-- ==== Sys2Proof/Word.lean ====
section
/-! DEFINITION. The word types of the Zoura Z24 (R6, R134, R213): 64-bit registers, bytes, 512-bit vectors. -/

namespace Sys2Proof

/-- A 64-bit scalar register or value token (R134, R213). -/
abbrev Word := BitVec 64
/-- One byte of any memory (R6). -/
abbrev Byte := BitVec 8
/-- A 512-bit vector register or vector token (R11, R213). -/
abbrev Vec := BitVec 512
/-- A register field of a sequencer word: x0 to x31 (R140). -/
abbrev Reg := BitVec 5

end Sys2Proof
end

