-- ==== Sys2Proof/Syntax.lean ====
section
/-! DEFINITION. The steps of the Zoura Z24 as syntax: one constructor of Instr per row of the table of operations and
events. Sequencer rows carry the fields of their 32-bit word (R140), fabric rows those of their 64-bit slot word (R189),
and a row without a word carries what names its place and what the outside supplies. -/

namespace Sys2Proof

/-- The fields of a slot word beside its opcode (R189). -/
structure FabWord where
  pm : BitVec 2
  mod : BitVec 4
  t0 : BitVec 10
  t1 : BitVec 10
  imm : BitVec 30
deriving DecidableEq, Repr

/-- Who is blocked at a stream's marks (R290, R292): a port, a fabric load of the round, or the draining store. -/
inductive Party
  | port (p : Nat)
  | load (i : Nat)
  | drain
deriving DecidableEq, Repr

/-- How a launch packet reached a die launch unit (R25, R261). -/
inductive PacketSource
  | host
  | context (launch : Nat)
  | ualink (endpoint : Nat)
  | ethernet (port : Nat)
deriving DecidableEq, Repr

/-- One access of a copy (R77): the read of a granule of its source; the write of a granule of its destination, of a multicast at one of the
receivers. -/
inductive CopyPart
  | read (granule : Nat)
  | write (granule receiver : Nat)
deriving DecidableEq, Repr

/-- Which command of a copy engine goes on (R350): that of a tile's chain at a place among its started ones, or else the head of the chain; and
with what, a part of its work. -/
structure CopyTurn (α : Type) where
  tile : Nat
  pick : Nat
  part : α
deriving DecidableEq, Repr

/-- A message of cp.grp at a receiver (R359): one of this package's senders, with the granule that is written, such a one that meets an
uncorrectable error at the receiver, or one from another package. -/
inductive GrpSource
  | inside (i granule : Nat)
  | failed (i : Nat)
  | outside (source endpoint group off : Nat) (data : List Byte)
deriving DecidableEq, Repr

/-- A cp.amo request at its target die (R362): in flight inside the package, or from another package. -/
inductive AmoSource
  | inside (i : Nat)
  | outside (die source tag retries age op : Nat) (wide : Bool) (address : Nat) (t c : Word)
deriving DecidableEq, Repr

/-- A cp.enq request at its home (R365). -/
inductive EnqSource
  | inside (i : Nat)
  | outside (die source tag retries age handle : Nat) (data : List Byte)
deriving DecidableEq, Repr

/-- A reply that arrives at a sender (R362, R363): its tag; status and value are read when the home lies in another package. -/
structure Reply where
  tag : Nat
  status : Nat
  value : Word
deriving DecidableEq, Repr

/-- A request between dies, or of another package by UPLI, that is performed (R75, R390): the read, write or atomic of memory of this package by
another endpoint, or a write of another package to memory of its own. -/
inductive RemoteSource
  | inside (request : Nat)
  | read (die source address bytes : Nat)
  | write (die source address : Nat) (data : List Byte)
  | atomic (die source address op : Nat) (wide : Bool) (t c : Word)
  | away (endpoint address : Nat) (data : List Byte)
deriving DecidableEq, Repr

/-- A request that reqtmo times (R399): an access of a copy command, which stands at a place among the started ones of its chain; a reduction
command of a chain; a store or fabric atomic; a load of a round; an access of a sequencer; the next access of a read port. -/
inductive Timed
  | copy (cluster tile pick : Nat) (part : CopyPart)
  | reduction (cluster tile pick : Nat)
  | store (request : Nat)
  | load (tile i : Nat)
  | seqLoad (tile i : Nat)
  | port (tile port : Nat)
deriving DecidableEq, Repr

/-- What a scrubber pass finds in a word (R405). -/
inductive ScrubFind
  | clean
  | corrected
  | uncorrectable
deriving DecidableEq, Repr

/-- A register of a management window, as the host reads it (R392, R394, R396). -/
inductive MgmtRead
  | dlint | ridle | scrint | reqtmo | spbase | spcount | clkcur | staleReplies | bootstat | bootlen | ringHead | ringTail | tmdata
  | lbase (amber : Bool) | llen (amber : Bool) | lrd (amber : Bool)
  | rtmo (cluster : Nat) | rmax (cluster : Nat) | rint (cluster : Nat)
  | group (entry : Nat) | receive (entry : Nat) | ingress (entry : Nat)
  | secstat (port : Nat) (receive : Bool)
  | rfbase | rfsize | hfbase | hfsize | spillSize | compaction | endpoint | control
deriving DecidableEq, Repr

/-- A write to a register of the management windows that has no row of its own. -/
inductive MgmtWrite
  | dlint (v : Nat) | ridle (v : Nat) | scrint (v : Nat) | reqtmo (v : Nat)
  | spbase (v : Nat) | spcount (v : Nat)
  | rfbase (v : Nat) | rfsize (v : Nat) | hfbase (v : Nat) | hfsize (v : Nat) | spillSize (v : Nat)
  | compaction (on : Bool)
  | lbase (amber : Bool) (v : Nat) | llen (amber : Bool) (v : Nat) | lrd (amber : Bool) (v : Nat)
  | rtmo (cluster v : Nat) | rmax (cluster v : Nat) | rint (cluster v : Nat)
  | group (entry : Nat) (mask : BitVec 1024)
  | receive (entry : Nat) (image : BitVec 192)
  | ingress (entry : Nat) (image : BitVec 128)
  | queueRetire (queue : Nat)
  | queueForward (queue die : Nat)
  | forwardClear (frame : Nat) | forwardMigrating (frame : Nat) | forwardTo (frame home : Nat)
  | dupPage (ctxid page homeKey : Nat) (copies : List (Nat × Nat))
  | staleClear
  | ringSlot (slot : Nat) (packet : List Byte) | ringTail (v : Nat)
  | bootlen (v : Nat) | bootImage (offset : Nat) (data : List Byte)
  | endpointBase (v : Nat)
  | pause (link : Nat) | overrides (link : Nat) | rerouted (link : Nat)
  | portRerouted (port via : Nat)
  | seckeyByte (port : Nat) (receive : Bool) (i : Nat) (v : Byte)
  | driver (absent : Bool)
deriving DecidableEq, Repr

/-- A host access (R396): through CXL.mem (R402); to a register of a management window, by its name or by its place in BAR0; of eight bytes in BAR2,
a write with its data; of n bytes of an aperture's data window, at its place in BAR4 or in CXL.mem; of a line of its own memory, which the device
caches (R69). -/
inductive HostAccess
  | read (n : Nat)
  | write (data : List Byte)
  | register (r : MgmtRead)
  | bar0 (offset : Nat) (data : Option Word)
  | bar2 (offset : Nat) (data : Option Word)
  | windowRead (cxl : Bool) (offset n : Nat)
  | windowWrite (cxl : Bool) (offset : Nat) (data : List Byte)
  | hostRead (address n : Nat)
  | hostWrite (address : Nat) (data : List Byte)
deriving DecidableEq, Repr

/-- The 332 steps of the table of operations and events. -/
inductive Instr
  /-- R146. Sequencer ALU add of two registers. -/
  | add (d : BitVec 5) (a : BitVec 5) (b : BitVec 5)
  /-- R146. Sequencer ALU subtract. -/
  | sub (d : BitVec 5) (a : BitVec 5) (b : BitVec 5)
  /-- R146. Sequencer bitwise AND. -/
  | and (d : BitVec 5) (a : BitVec 5) (b : BitVec 5)
  /-- R146. Sequencer bitwise OR. -/
  | or (d : BitVec 5) (a : BitVec 5) (b : BitVec 5)
  /-- R146. Sequencer bitwise XOR. -/
  | xor (d : BitVec 5) (a : BitVec 5) (b : BitVec 5)
  /-- R146. Shift left by register modulo 64. -/
  | sll (d : BitVec 5) (a : BitVec 5) (b : BitVec 5)
  /-- R146. Logical shift right by register. -/
  | srl (d : BitVec 5) (a : BitVec 5) (b : BitVec 5)
  /-- R146. Arithmetic shift right by register. -/
  | sra (d : BitVec 5) (a : BitVec 5) (b : BitVec 5)
  /-- R146. Set if signed less than. -/
  | slt (d : BitVec 5) (a : BitVec 5) (b : BitVec 5)
  /-- R146. Set if unsigned less than. -/
  | sltu (d : BitVec 5) (a : BitVec 5) (b : BitVec 5)
  /-- R146. Signed minimum. -/
  | min (d : BitVec 5) (a : BitVec 5) (b : BitVec 5)
  /-- R146. Signed maximum. -/
  | max (d : BitVec 5) (a : BitVec 5) (b : BitVec 5)
  /-- R146. Unsigned minimum. -/
  | minu (d : BitVec 5) (a : BitVec 5) (b : BitVec 5)
  /-- R146. Unsigned maximum. -/
  | maxu (d : BitVec 5) (a : BitVec 5) (b : BitVec 5)
  /-- R146. Add base plus index times 2. -/
  | xadd2 (d : BitVec 5) (a : BitVec 5) (b : BitVec 5)
  /-- R146. Add base plus index times 4. -/
  | xadd4 (d : BitVec 5) (a : BitVec 5) (b : BitVec 5)
  /-- R146. Add base plus index times 8. -/
  | xadd8 (d : BitVec 5) (a : BitVec 5) (b : BitVec 5)
  /-- R151. Stream address add modulo 2^48 keeping bits 63:48. -/
  | sadd (d : BitVec 5) (a : BitVec 5) (b : BitVec 5)
  /-- R146. Multiply low 64 bits. -/
  | mul (d : BitVec 5) (a : BitVec 5) (b : BitVec 5)
  /-- R146. Signed multiply high. -/
  | mulh (d : BitVec 5) (a : BitVec 5) (b : BitVec 5)
  /-- R146. Unsigned multiply high. -/
  | mulhu (d : BitVec 5) (a : BitVec 5) (b : BitVec 5)
  /-- R147. Signed division truncating, fixed results for zero and overflow. -/
  | div (d : BitVec 5) (a : BitVec 5) (b : BitVec 5)
  /-- R147. Unsigned division. -/
  | divu (d : BitVec 5) (a : BitVec 5) (b : BitVec 5)
  /-- R147. Signed remainder. -/
  | rem (d : BitVec 5) (a : BitVec 5) (b : BitVec 5)
  /-- R147. Unsigned remainder. -/
  | remu (d : BitVec 5) (a : BitVec 5) (b : BitVec 5)
  /-- R146. Count leading zeros. -/
  | clz (d : BitVec 5) (a : BitVec 5)
  /-- R146. Count trailing zeros. -/
  | ctz (d : BitVec 5) (a : BitVec 5)
  /-- R146. Population count. -/
  | popc (d : BitVec 5) (a : BitVec 5)
  /-- R152. No operation. -/
  | nop
  /-- R155. Jump to lk after target check. -/
  | ret
  /-- R152. Copy lk into a register. -/
  | mflk (d : BitVec 5)
  /-- R152. Copy a register into lk. -/
  | mtlk (a : BitVec 5)
  /-- R148. Add sign-extended 16-bit immediate. -/
  | addi (d : BitVec 5) (a : BitVec 5) (imm : BitVec 16)
  /-- R149. Add immediate shifted left 16. -/
  | addi16 (d : BitVec 5) (a : BitVec 5) (imm : BitVec 16)
  /-- R149. Add immediate shifted left 32. -/
  | addi32 (d : BitVec 5) (a : BitVec 5) (imm : BitVec 16)
  /-- R149. Add immediate shifted left 48. -/
  | addi48 (d : BitVec 5) (a : BitVec 5) (imm : BitVec 16)
  /-- R148. AND with zero-extended immediate. -/
  | andi (d : BitVec 5) (a : BitVec 5) (imm : BitVec 16)
  /-- R148. OR with zero-extended immediate. -/
  | ori (d : BitVec 5) (a : BitVec 5) (imm : BitVec 16)
  /-- R148. XOR with zero-extended immediate. -/
  | xori (d : BitVec 5) (a : BitVec 5) (imm : BitVec 16)
  /-- R148. Set if signed less than immediate. -/
  | slti (d : BitVec 5) (a : BitVec 5) (imm : BitVec 16)
  /-- R148. Set if unsigned less than sign-extended immediate. -/
  | sltiu (d : BitVec 5) (a : BitVec 5) (imm : BitVec 16)
  /-- R148. Shift left by immediate. -/
  | slli (d : BitVec 5) (a : BitVec 5) (imm : BitVec 6)
  /-- R148. Logical shift right by immediate. -/
  | srli (d : BitVec 5) (a : BitVec 5) (imm : BitVec 6)
  /-- R148. Arithmetic shift right by immediate. -/
  | srai (d : BitVec 5) (a : BitVec 5) (imm : BitVec 6)
  /-- R151. Stream address add of immediate modulo 2^48. -/
  | saddi (d : BitVec 5) (a : BitVec 5) (imm : BitVec 16)
  /-- R153. Branch if equal. -/
  | beq (a : BitVec 5) (b : BitVec 5) (imm : BitVec 16)
  /-- R153. Branch if not equal. -/
  | bne (a : BitVec 5) (b : BitVec 5) (imm : BitVec 16)
  /-- R153. Branch if signed less. -/
  | blt (a : BitVec 5) (b : BitVec 5) (imm : BitVec 16)
  /-- R153. Branch if signed greater or equal. -/
  | bge (a : BitVec 5) (b : BitVec 5) (imm : BitVec 16)
  /-- R153. Branch if unsigned less. -/
  | bltu (a : BitVec 5) (b : BitVec 5) (imm : BitVec 16)
  /-- R153. Branch if unsigned greater or equal. -/
  | bgeu (a : BitVec 5) (b : BitVec 5) (imm : BitVec 16)
  /-- R155. PC-relative jump. -/
  | j (imm : BitVec 26)
  /-- R155. PC-relative jump writing lk. -/
  | jal (imm : BitVec 26)
  /-- R155. Register-relative jump. -/
  | jr (a : BitVec 5) (imm : BitVec 16)
  /-- R155. Register-relative jump writing lk. -/
  | jalr (a : BitVec 5) (imm : BitVec 16)
  /-- R156. Read a system register. -/
  | mfs (d : BitVec 5) (sys : BitVec 12)
  /-- R156. Write a system register, subject to R139. -/
  | mts (a : BitVec 5) (sys : BitVec 12)
  /-- R159. LV load of 1 byte sign-extended. -/
  | ldI8 (d : BitVec 5) (base : BitVec 5) (imm : BitVec 16)
  /-- R159. LV load of 2 bytes sign-extended. -/
  | ldI16 (d : BitVec 5) (base : BitVec 5) (imm : BitVec 16)
  /-- R159. LV load of 4 bytes sign-extended. -/
  | ldI32 (d : BitVec 5) (base : BitVec 5) (imm : BitVec 16)
  /-- R159. LV load of 8 bytes. -/
  | ld64 (d : BitVec 5) (base : BitVec 5) (imm : BitVec 16)
  /-- R159. LV load of 1 byte zero-extended. -/
  | ldN8 (d : BitVec 5) (base : BitVec 5) (imm : BitVec 16)
  /-- R159. LV load of 2 bytes zero-extended. -/
  | ldN16 (d : BitVec 5) (base : BitVec 5) (imm : BitVec 16)
  /-- R159. LV load of 4 bytes zero-extended. -/
  | ldN32 (d : BitVec 5) (base : BitVec 5) (imm : BitVec 16)
  /-- R159. LV store of 1 byte into the store queue. -/
  | st8 (d : BitVec 5) (base : BitVec 5) (imm : BitVec 16)
  /-- R159. LV store of 2 bytes. -/
  | st16 (d : BitVec 5) (base : BitVec 5) (imm : BitVec 16)
  /-- R159. LV store of 4 bytes. -/
  | st32 (d : BitVec 5) (base : BitVec 5) (imm : BitVec 16)
  /-- R159. LV store of 8 bytes. -/
  | st64 (d : BitVec 5) (base : BitVec 5) (imm : BitVec 16)
  /-- R162. Scratchpad load of the size named by kind. -/
  | lds (d : BitVec 5) (a : BitVec 5) (off : BitVec 6) (kind : BitVec 3)
  /-- R162. Scratchpad store of the size named by kind. -/
  | sts (a : BitVec 5) (b : BitVec 5) (off : BitVec 6) (kind : BitVec 3)
  /-- R162. Private-memory load. -/
  | ldp (d : BitVec 5) (a : BitVec 5) (off : BitVec 6) (kind : BitVec 3)
  /-- R162. Private-memory store. -/
  | stp (a : BitVec 5) (b : BitVec 5) (off : BitVec 6) (kind : BitVec 3)
  /-- R163. LV atomic read-modify-write performed at the home, returning the old value. -/
  | amo (d : BitVec 5) (a : BitVec 5) (b : BitVec 5) (scope : BitVec 3) (ord : BitVec 2) (wide : BitVec 1) (op : BitVec 4)
  /-- R163. Scratchpad atomic read-modify-write. -/
  | amos (d : BitVec 5) (a : BitVec 5) (b : BitVec 5) (scope : BitVec 3) (ord : BitVec 2) (wide : BitVec 1) (op : BitVec 4)
  /-- R163. Ordered acquire load through the atomic group. -/
  | amoLd (d : BitVec 5) (a : BitVec 5) (scope : BitVec 3) (wide : BitVec 1) (space : BitVec 1)
  /-- R163. Ordered release store through the atomic group. -/
  | amoSt (a : BitVec 5) (b : BitVec 5) (scope : BitVec 3) (wide : BitVec 1) (space : BitVec 1)
  /-- R165. Acquire and/or release fence at a scope. -/
  | fence (scope : BitVec 3) (ord : BitVec 2)
  /-- R174. Select the context for following instructions. -/
  | ctxSel (a : BitVec 5)
  /-- R175. Start a run of rounds of the selected context. -/
  | run (a : BitVec 5)
  /-- R176. Wait until own runs, port programs and k-steps are done and stores performed. -/
  | drain
  /-- R177. Send a configuration stream from LV into the launch's own pages. -/
  | cfgs (a : BitVec 5) (b : BitVec 5)
  /-- R169. Make a barrier arrival-kind with a target. -/
  | barInit (a : BitVec 5) (b : BitVec 5)
  /-- R169. Make a barrier byte-kind with a target. -/
  | barInitb (a : BitVec 5) (b : BitVec 5)
  /-- R169. Arrive at a barrier, returning its phase. -/
  | barArr (d : BitVec 5) (a : BitVec 5)
  /-- R169. Wait for a barrier phase flip. -/
  | barWait (a : BitVec 5) (b : BitVec 5)
  /-- R169. Read barrier state. -/
  | barRd (d : BitVec 5) (a : BitVec 5)
  /-- R171. Set an event bit. -/
  | evSet (a : BitVec 5)
  /-- R171. Clear an event bit. -/
  | evClr (a : BitVec 5)
  /-- R171. Wait for an event bit without consuming it. -/
  | evWait (a : BitVec 5)
  /-- R171. Wait for an event bit and consume it. -/
  | evTake (a : BitVec 5)
  /-- R172. Read a timeline. -/
  | tlRd (d : BitVec 5) (a : BitVec 5)
  /-- R172. Advance a timeline. -/
  | tlAdv (a : BitVec 5) (b : BitVec 5)
  /-- R172. Wait until a timeline reaches a value. -/
  | tlWait (a : BitVec 5) (b : BitVec 5)
  /-- R173. Remove the oldest event-queue record if any. -/
  | evq (d : BitVec 5) (a : BitVec 5)
  /-- R173. Wait for and remove the oldest event-queue record. -/
  | evqW (d : BitVec 5) (a : BitVec 5)
  /-- R178. Look up an LV line in the tag table. -/
  | tlook (d : BitVec 5) (a : BitVec 5)
  /-- R178. Write a valid tag-table entry. -/
  | tset (a : BitVec 5) (b : BitVec 5)
  /-- R178. Invalidate a tag-table entry. -/
  | tclr (a : BitVec 5)
  /-- R179. Append a command entry to a cluster engine's chain, waiting for a free entry. -/
  | issue (eng : BitVec 3) (cmd : BitVec 8) (a : BitVec 5) (b : BitVec 5) (flags : BitVec 5)
  /-- R300. Load and start a port program. -/
  | spCfg (a : BitVec 5) (b : BitVec 5)
  /-- R296. Advance a stream's HWM. -/
  | spHwm (a : BitVec 5) (b : BitVec 5)
  /-- R296. Reserve an extent of a stream. -/
  | spResv (a : BitVec 5) (b : BitVec 5)
  /-- R296. Publish a reservation and advance HWM over published prefix. -/
  | spPub (a : BitVec 5) (b : BitVec 5)
  /-- R297. Advance or close a reader's release mark. -/
  | spRel (a : BitVec 5) (b : BitVec 5)
  /-- R308. Rewind a reading port and its cursor. -/
  | spRew (a : BitVec 5) (b : BitVec 5)
  /-- R299. Write a stream's marks to the scratchpad. -/
  | spRdm (a : BitVec 5) (b : BitVec 5)
  /-- R304. Bind or unbind a queue index to a stream. -/
  | spQbind (a : BitVec 5) (b : BitVec 5)
  /-- R181. Take the program trap. -/
  | trap (a : BitVec 5)
  /-- R184. Return from a trap handler. -/
  | eret
  /-- R185. Drain, complete the sequencer task and go idle. -/
  | seqEnd
  /-- R144. The sequencer fetches a word that is no instruction and takes the illegal-instruction trap precisely. -/
  | illegalInstruction (word : BitVec 32)
  /-- R216. Fabric scalar move. -/
  | fabMov (f : FabWord)
  /-- R216. Fabric vector move. -/
  | fabVmov (f : FabWord)
  /-- R217. Send a constant at round start. -/
  | fabConst (f : FabWord)
  /-- R216. Send a g register value at round start. -/
  | fabGrd (f : FabWord)
  /-- R216. Send a v register value at round start. -/
  | fabVrd (f : FabWord)
  /-- R216. Select one of two scalars by a bit. -/
  | fabSel (f : FabWord)
  /-- R216. Select one of two vectors by a bit. -/
  | fabVsel (f : FabWord)
  /-- R218. Fabric integer add. -/
  | fabAdd (f : FabWord)
  /-- R218. Fabric integer subtract. -/
  | fabSub (f : FabWord)
  /-- R218. Fabric add immediate. -/
  | fabAddi (f : FabWord)
  /-- R218. Fabric integer multiply. -/
  | fabMul (f : FabWord)
  /-- R218. Fabric multiply high. -/
  | fabMulh (f : FabWord)
  /-- R218. Fabric integer divide. -/
  | fabDiv (f : FabWord)
  /-- R218. Fabric integer remainder. -/
  | fabRem (f : FabWord)
  /-- R218. Fabric bitwise AND. -/
  | fabAnd (f : FabWord)
  /-- R218. Fabric bitwise OR. -/
  | fabOr (f : FabWord)
  /-- R218. Fabric bitwise XOR. -/
  | fabXor (f : FabWord)
  /-- R218. Fabric shift left. -/
  | fabShl (f : FabWord)
  /-- R218. Fabric shift right. -/
  | fabShr (f : FabWord)
  /-- R218. Fabric integer minimum. -/
  | fabMin (f : FabWord)
  /-- R218. Fabric integer maximum. -/
  | fabMax (f : FabWord)
  /-- R218. Fabric integer absolute value. -/
  | fabAbs (f : FabWord)
  /-- R218. Fabric integer negate. -/
  | fabNeg (f : FabWord)
  /-- R218. Fabric count leading zeros. -/
  | fabClz (f : FabWord)
  /-- R218. Fabric count trailing zeros. -/
  | fabCtz (f : FabWord)
  /-- R218. Fabric population count. -/
  | fabPopc (f : FabWord)
  /-- R218. Fabric saturating add. -/
  | fabAdds (f : FabWord)
  /-- R218. Fabric saturating subtract. -/
  | fabSubs (f : FabWord)
  /-- R218. Fabric stream address add. -/
  | fabSadd (f : FabWord)
  /-- R219. Compare equal, sending a bit. -/
  | fabCeq (f : FabWord)
  /-- R219. Compare not equal. -/
  | fabCne (f : FabWord)
  /-- R219. Compare less than. -/
  | fabClt (f : FabWord)
  /-- R219. Compare less or equal. -/
  | fabCle (f : FabWord)
  /-- R219. Predicate AND. -/
  | fabPand (f : FabWord)
  /-- R219. Predicate OR. -/
  | fabPor (f : FabWord)
  /-- R219. Predicate NOT. -/
  | fabPnot (f : FabWord)
  /-- R219. Predicate XOR. -/
  | fabPxor (f : FabWord)
  /-- R220. Float add, one rounding. -/
  | fabFadd (f : FabWord)
  /-- R220. Float subtract. -/
  | fabFsub (f : FabWord)
  /-- R220. Float multiply. -/
  | fabFmul (f : FabWord)
  /-- R222. Fused multiply-add with running or register addend. -/
  | fabFma (f : FabWord)
  /-- R222. Negated fused multiply-add. -/
  | fabFnma (f : FabWord)
  /-- R220. Float divide. -/
  | fabFdiv (f : FabWord)
  /-- R220. Float square root. -/
  | fabFsqrt (f : FabWord)
  /-- R220. Float reciprocal. -/
  | fabFrcp (f : FabWord)
  /-- R221. Float minimum. -/
  | fabFmin (f : FabWord)
  /-- R221. Float maximum. -/
  | fabFmax (f : FabWord)
  /-- R220. Float absolute value. -/
  | fabFabs (f : FabWord)
  /-- R220. Float negate. -/
  | fabFneg (f : FabWord)
  /-- R221. Float power of two within one ulp. -/
  | fabFexp2 (f : FabWord)
  /-- R221. Float base-2 logarithm within one ulp. -/
  | fabFlog2 (f : FabWord)
  /-- R223. Vector lane-wise add. -/
  | fabVadd (f : FabWord)
  /-- R223. Vector lane-wise subtract. -/
  | fabVsub (f : FabWord)
  /-- R223. Vector lane-wise multiply. -/
  | fabVmul (f : FabWord)
  /-- R223. Vector fused multiply-add. -/
  | fabVfma (f : FabWord)
  /-- R223. Vector minimum. -/
  | fabVmin (f : FabWord)
  /-- R223. Vector maximum. -/
  | fabVmax (f : FabWord)
  /-- R223. Vector absolute value. -/
  | fabVabs (f : FabWord)
  /-- R223. Vector negate. -/
  | fabVneg (f : FabWord)
  /-- R225. Horizontal pairwise-tree sum of lanes. -/
  | fabVhsum (f : FabWord)
  /-- R225. Horizontal maximum of lanes. -/
  | fabVhmax (f : FabWord)
  /-- R225. Broadcast a scalar to all lanes. -/
  | fabVbcast (f : FabWord)
  /-- R225. Extract one lane. -/
  | fabVext (f : FabWord)
  /-- R225. Insert a scalar into one lane. -/
  | fabVins (f : FabWord)
  /-- R223. Vector compare equal to lane masks. -/
  | fabVceq (f : FabWord)
  /-- R223. Vector compare less to lane masks. -/
  | fabVclt (f : FabWord)
  /-- R223. Vector bitwise AND. -/
  | fabVand (f : FabWord)
  /-- R223. Vector bitwise OR. -/
  | fabVor (f : FabWord)
  /-- R223. Vector bitwise XOR. -/
  | fabVxor (f : FabWord)
  /-- R223. Vector shift left per lane. -/
  | fabVshl (f : FabWord)
  /-- R223. Vector shift right per lane. -/
  | fabVshr (f : FabWord)
  /-- R223. Vector power of two. -/
  | fabVexp2 (f : FabWord)
  /-- R223. Vector reciprocal. -/
  | fabVrcp (f : FabWord)
  /-- R226. Scalar format conversion. -/
  | fabCvt (f : FabWord)
  /-- R226. Vector format conversion of one part. -/
  | fabVcvt (f : FabWord)
  /-- R227. Scale a partial sum into the running value. -/
  | fabScacc (f : FabWord)
  /-- R227. Vector scale-and-accumulate. -/
  | fabVscacc (f : FabWord)
  /-- R229. Turn a data token into a stop token of level k. -/
  | fabStop (f : FabWord)
  /-- R230. Send whether a token is a stop of level at least k. -/
  | fabSlvl (f : FabWord)
  /-- R232. Hold the last data token and send it at a stop. -/
  | fabSgate (f : FabWord)
  /-- R232. Count data tokens and send the count at a stop. -/
  | fabScount (f : FabWord)
  /-- R231. Turn each token into an order token. -/
  | fabOrdt (f : FabWord)
  /-- R234. Fabric LV or stream scalar load request. -/
  | fabLd (f : FabWord)
  /-- R234. Fabric held scalar store into the store buffer. -/
  | fabSt (f : FabWord)
  /-- R234. Fabric vector load. -/
  | fabVld (f : FabWord)
  /-- R234. Fabric held vector store. -/
  | fabVst (f : FabWord)
  /-- R234. Fabric indexed scalar load. -/
  | fabLdx (f : FabWord)
  /-- R234. Fabric indexed scalar store. -/
  | fabStx (f : FabWord)
  /-- R234. Fabric indexed vector load. -/
  | fabVldx (f : FabWord)
  /-- R234. Fabric indexed vector store. -/
  | fabVstx (f : FabWord)
  /-- R234. Fabric scratchpad scalar load. -/
  | fabLds (f : FabWord)
  /-- R234. Fabric scratchpad scalar store. -/
  | fabSts (f : FabWord)
  /-- R234. Fabric scratchpad vector load. -/
  | fabVlds (f : FabWord)
  /-- R234. Fabric scratchpad vector store. -/
  | fabVsts (f : FabWord)
  /-- R238. Split a vector into ordered scalar pieces. -/
  | fabWsplit (f : FabWord)
  /-- R239. Join scalar tokens into a vector. -/
  | fabWjoin (f : FabWord)
  /-- R237. Fabric LV atomic held until drain. -/
  | fabAmo (f : FabWord)
  /-- R237. Fabric scratchpad atomic held until drain. -/
  | fabAmos (f : FabWord)
  /-- R240. Buffer a vector stream and emit it c times. -/
  | fabRpt (f : FabWord)
  /-- R316. Fire a matrix k-step into an accumulator tile, claiming banks. -/
  | fabMma (f : FabWord)
  /-- R321. Read a complete tile out as vector tokens. -/
  | fabAccrd (f : FabWord)
  /-- R343. Write a bound setting of a bank. -/
  | fabBld (f : FabWord)
  /-- R344. Hold a store of bnd or obnd. -/
  | fabBst (f : FabWord)
  /-- R242. Count an exit, optionally ending the run. -/
  | fabExit (f : FabWord)
  /-- R243. Send null tokens to close a path. -/
  | fabNull (f : FabWord)
  /-- R244. Hold one barrier arrival for commit. -/
  | fabBar (f : FabWord)
  /-- R235. Return of a fabric load's bytes, sending value and completion. -/
  | memoryNodeResponse (tile load : Nat) (seen : List Bool)
  /-- R203. Tile starts a round of a context, recording port positions. -/
  | roundStart (tile ctx : Nat)
  /-- R207. Commit of a round once its counts and accesses are complete. -/
  | roundCommit (tile : Nat)
  /-- R18. Committed round's stores drain to memory. -/
  | storeBufferDrain (tile : Nat)
  /-- R301. A port access returns and its token is delivered in order. -/
  | portReadResponse (tile port : Nat) (fetch : Bool)
  /-- R302. Write port performs a committed round's buffered writes. -/
  | portWritePerform (tile port : Nat)
  /-- R58. Flush a port's hotness counters as a record. -/
  | hotnessFlush (tile port : Nat)
  /-- R290. Blocked stream read proceeds once HWM covers it. -/
  | streamReadUnblock (tile : Nat) (who : Party)
  /-- R292. Blocked stream write proceeds once the window has room. -/
  | streamWriteUnblock (tile : Nat) (who : Party)
  /-- R295. Extend a blocked stream's window after its spill delay. -/
  | spill (launch handle : Nat)
  /-- R306. Detector raises a slate record after a whole interval without progress. -/
  | streamDeadlock (launch : Nat)
  /-- R305. System software binds a stream aperture. -/
  | apertureBind (j : Nat) (value : Word)
  /-- R305. Host producer HWM write. -/
  | apertureHwm (j : Nat) (value : Word)
  /-- R305. Host reader release write. -/
  | apertureRel (j : Nat) (value : Word)
  /-- R305. Write clearing the aperture error count. -/
  | apertureErr (j : Nat)
  /-- R305. Host read through an aperture window, never blocking. -/
  | apertureDataRead (j offset size : Nat)
  /-- R305. Host write through an aperture window, dropped if it would block. -/
  | apertureDataWrite (j offset : Nat) (data : List Byte)
  /-- R123. Configuration write command into a staged field. -/
  | cfgWrite (page : BitVec 4) (element : BitVec 6) (field : BitVec 5) (value : BitVec 16)
  /-- R124. Configuration command selecting a context. -/
  | cfgSelectContext (rsv : BitVec 25) (ctx : BitVec 3)
  /-- R124. Configuration command opening a page with its count. -/
  | cfgPageHeader (page : BitVec 4) (rsv : BitVec 8) (count : BitVec 16)
  /-- R125. Configuration command writing a block header part. -/
  | cfgBlockHeader (part : BitVec 4) (rsv : BitVec 8) (value : BitVec 16)
  /-- R124. Configuration checksum command. -/
  | cfgChecksum (sum : BitVec 28)
  /-- R211. Check and take staged contexts, or reject the stream. -/
  | configurationComplete (rsv : BitVec 28)
  /-- R27. Inject held seed tokens once the wave has passed. -/
  | seedInject (launch : Nat)
  /-- R261. A launch packet reaches a die launch unit. -/
  | launchPacket (die : Nat) (packet : List Byte) (source : PacketSource)
  /-- R261. Die 0 consumes host launch-queue slots after a tail write. -/
  | launchQueue
  /-- R260. Allocator places a queued launch once tiles are free. -/
  | place (die : Nat)
  /-- R28. Retire a launch, clear tiles and return them. -/
  | retire (launch : Nat)
  /-- R256. Launch retires when its consist is quiescent. -/
  | quiescent (launch : Nat)
  /-- R264. Allocator moves a consist cluster under compaction. -/
  | moveCluster (launch position target : Nat)
  /-- R253. Dispatch a ready block, seq or cmd task. -/
  | taskDispatch (cluster index : Nat)
  /-- R253. Complete a task, setting events and barrier arrival. -/
  | taskCompletion (cluster index : Nat)
  /-- R255. COND node completes when its condition word read returns. -/
  | graphCond (cluster index : Nat)
  /-- R255. WHILE node completes on its read, counting trips. -/
  | graphWhile (cluster index : Nat)
  /-- R255. JOIN node counts and sets its mask at n. -/
  | graphJoin (cluster index : Nat)
  /-- R258. Write a task entry. -/
  | taskDef (cluster tile : Nat)
  /-- R258. Invalidate a task entry. -/
  | taskDis (cluster tile : Nat)
  /-- R258. OR a mask into a consist cluster's events. -/
  | taskEvset (cluster tile : Nat)
  /-- R258. Set a timeline, possibly backward. -/
  | taskTlset (cluster tile : Nat)
  /-- R258. Submit a launch packet. -/
  | taskLaunch (cluster tile : Nat)
  /-- R354. Bulk copy between spaces. -/
  | cpBulk (cluster : Nat) (turn : CopyTurn CopyPart)
  /-- R356. Multicast to consist scratchpads with byte arrivals. -/
  | cpMcast (cluster : Nat) (turn : CopyTurn CopyPart)
  /-- R358. Group multicast to domain endpoints. -/
  | cpGrp (cluster : Nat) (turn : CopyTurn Nat)
  /-- R364. Exactly-once remote atomic. -/
  | cpAmo (cluster : Nat) (turn : CopyTurn Unit)
  /-- R365. Remote enqueue to a queue handle. -/
  | cpEnq (cluster : Nat) (turn : CopyTurn Nat)
  /-- R359. Receiver judges and writes a cp.grp message. -/
  | grpMessage (message : GrpSource)
  /-- R359. Acknowledgements merge up the replication tree. -/
  | grpAck (cluster tile endpoint reason : Nat)
  /-- R359. Endpoint counted failed after the no-response time. -/
  | grpNoResponse (cluster tile endpoint : Nat)
  /-- R362. Target decides a remote atomic or enqueue request against its reply cache. -/
  | amoRequest (request : AmoSource)
  /-- R363. Reply arrives at the sender and ends the command. -/
  | amoReply (cluster tile : Nat) (reply : Reply)
  /-- R363. rtmo expiry retransmits with same tag and age. -/
  | retransmission (cluster tile : Nat)
  /-- R363. rint expiry resends a refused request with a new tag. -/
  | retryInterval (cluster tile : Nat)
  /-- R365. Home checks and performs an enqueue. -/
  | enqRequest (request : EnqSource)
  /-- R372. Register a fabric reduction participant. -/
  | redFab (cluster tile : Nat)
  /-- R374. Reduction runs once every masked cluster has issued. -/
  | reductionStart (launch tag : Nat)
  /-- R377. Open or join an estimating session. -/
  | redEst (cluster tile : Nat)
  /-- R383. Write session state to the scratchpad. -/
  | redRd (cluster tile : Nat)
  /-- R378. Root serves a chunk claim. -/
  | claim (launch position : Nat)
  /-- R380. Root merges chunk statistics and checks the stop. -/
  | merge (launch position : Nat)
  /-- R382. Stop reaches another participant's engine. -/
  | stopNotice (launch position : Nat)
  /-- R386. Feed port delivers the final level-2 stop. -/
  | level2Stop (launch position : Nat)
  /-- R316. Engine accepts a fired k-step two cycles later. -/
  | kstepAccept (cluster : Nat)
  /-- R311. Engine performs an accepted k-step and updates the bound. -/
  | kstep (cluster : Nat)
  /-- R327. Set PRIO or SLOT mode. -/
  | mxMode (cluster tile : Nat)
  /-- R327. Replace the SLOT table. -/
  | mxSlot (cluster tile : Nat)
  /-- R327. Empty complete tiles. -/
  | mxFree (cluster tile : Nat)
  /-- R328. Write the matrix state image. -/
  | mxRd (cluster tile : Nat)
  /-- R53. Write to the walker invalidation registers. -/
  | invalidate (die ctxid lo len : Nat) (everyDie : Bool)
  /-- R53. Invalidation completes once entries and accesses are gone. -/
  | invalidationComplete (die : Nat)
  /-- R62. Host answers a page request. -/
  | priAnswer (die ctxid page : Nat) (success : Bool)
  /-- R63. Host ATS invalidation request carried out and acknowledged. -/
  | atsInvalidation (die pasid lo len : Nat)
  /-- R75. Home receives a request, holding it against its vector clock. -/
  | remoteRequest (request : RemoteSource)
  /-- R61. Holder of a duplicated page drops its copy and acknowledges. -/
  | dupInvalidation (write holder : Nat)
  /-- R61. Acknowledgement arrives; the last applies the write at home. -/
  | dupAck (write holder : Nat)
  /-- R273. Gate a launch's tiles and read out every page. -/
  | preempt (die : Nat) (word : Word)
  /-- R273. Readout ends, clusters freed and busy cleared. -/
  | readoutComplete (launch : Nat)
  /-- R275. Place and restore a read-out launch. -/
  | restore (die : Nat) (word : Word)
  /-- R272. Resume stopped parts of a page. -/
  | resume (die : Nat) (word : Word)
  /-- R272. End a launch and retire it. -/
  | kill (die : Nat) (word : Word)
  /-- R281. Copy a waiting record into its lane ring. -/
  | recordCopy (die : Nat)
  /-- R388. Receiver checks and accepts or discards a die-to-die flit, which arrives with some of its bits changed, or without side not at all. -/
  | flit (die link : Nat) (data : BitVec 256) (crc : BitVec 32) (side : Option (BitVec 16))
  /-- R389. Link declared dead after 16 retries; router drains. -/
  | linkDead (die link : Nat)
  /-- R389. Loss of lane lock kills a link. -/
  | laneLockLoss (die link : Nat)
  /-- R398. A UALink or Ultra Ethernet port goes down and drains. -/
  | portDown (port : Nat)
  /-- R391. Flit counter exhausts its key; switch or stop with record. -/
  | keyExhaustion (port : Nat) (receive : Bool)
  /-- R392. Firmware installs a next UALinkSec key. -/
  | seckey (port : Nat) (receive : Bool) (key : BitVec 256)
  /-- R395. Ultra Ethernet stream-ingress message written or dropped. -/
  | ingressMessage (die port : Nat) (message : List Byte)
  /-- R395. Held ingress message decided again at cycle end. -/
  | ingressRetry (die port : Nat)
  /-- R399. reqtmo expiry of an outstanding request. -/
  | requestTimeout (who : Timed)
  /-- R400. Idle router powers down. -/
  | routerPowerDown (cluster : Nat)
  /-- R400. Arriving packet wakes a router. -/
  | routerWake (cluster : Nat)
  /-- R402. Host starts image verification. -/
  | bootgo
  /-- R402. Verification ends, starting or refusing firmware. -/
  | imageVerified
  /-- R403. Reset kills launches and wipes state. -/
  | packageReset
  /-- R403. Authorised forward life-cycle transition with wipe. -/
  | lifeCycleTransition (auth : List Byte)
  /-- R404. SPDM certificate request. -/
  | getCertificate
  /-- R404. SPDM challenge answered with signed response. -/
  | challenge (nonce : List Byte)
  /-- R404. SPDM measurements request. -/
  | getMeasurements (nonce : List Byte)
  /-- R405. Scrubber pass reads and corrects ECC arrays. -/
  | scrub (die array word : Nat) (errors : ScrubFind)
  /-- R284. Uncorrectable error stops the launch with an amber record. -/
  | uncorrectableError (tile array word : Nat)
  /-- R406. Add die counts to the telemetry flash. -/
  | telemetryFlush
  /-- R406. Flush telemetry at orderly shutdown. -/
  | orderlyShutdown
  /-- R406. Select a telemetry counter for tmdata. -/
  | tmsel (value : Word)
  /-- R409. Lower a die's clock above a power or temperature limit. -/
  | throttle (die : Nat)
  /-- R409. Module shuts down at 110 °C. -/
  | thermalShutdown
  /-- R266. Write to a management register with no row of its own. -/
  | registerWrite (die : Nat) (write : MgmtWrite)
  /-- R160. The value of a sequencer LV or scratchpad load, or the reply of a returning atomic, returns and binds d. -/
  | loadValueReturn (tile load : Nat)
  /-- R160. A queued sequencer store leaves the 16-entry store queue for memory in an order R68 permits. -/
  | storeQueueDrain (tile entry : Nat)
  /-- R397. A host read of a lane's lwr re-arms that lane's pending MSI-X vector. -/
  | lwrRead (die : Nat) (amber : Bool)
  /-- R406. Loss of power discards the die counts added since the last telemetry flush. -/
  | powerFailure
  /-- R387. A die-to-die or UALink link trains, restarting its flit sequence numbers at 0, or is disabled on failing to train at x4. -/
  | linkTraining (die link : Nat) (ok : Bool)
  /-- R402. A host CXL.mem access to device memory is served, or is answered with all-ones data with writes dropped before boot and during a wipe. -/
  | cxlMemAccess (die : Nat) (lpddr : Bool) (address : Nat) (access : HostAccess)
  /-- R361. A request held because its next tag ended fewer than 16,800 cycles earlier is released and sent. -/
  | tagHoldExpiry (cluster tile : Nat)
  /-- R326. The SLOT walk reaches the end of an entry, moves to the next entry or restarts at entry 0, and takes up a replacement table. -/
  | slotEntryBoundary (cluster : Nat)
  /-- R403. The reset or transition wipe ends, the part enters its new life-cycle state, and host accesses leave their wipe behaviour. -/
  | wipeComplete
deriving DecidableEq, Repr

end Sys2Proof
end

