-- ==== Sys2Proof/Config.lean ====
section
/-! DEFINITION. What an implementation fixes and the manual leaves open: uninterpreted constants, of which nothing can
be proved but what holds of every value. Each names its log entry. -/

namespace Sys2Proof.Config

/-- FREE VALUE (R221). Whether fexp2 answers the upper of the two representable values that bracket 2^L: a fixed
function of the type code and the operand's encoding. DESIGN CHOICE, log entry 3. -/
opaque exp2Up : Nat → Nat → Bool
/-- FREE VALUE (R221). As exp2Up, for flog2. DESIGN CHOICE, log entry 3. -/
opaque log2Up : Nat → Nat → Bool
/-- SHA-256 of an image (R402), named and not defined by the manual. DESIGN CHOICE, log entry 7. -/
opaque sha256 : List Byte → BitVec 256
/-- SLH-DSA-SHA2-128s verification of a message under a public key (R402). DESIGN CHOICE, log entry 7. -/
opaque slhVerify : (key message signature : List Byte) → Bool
/-- The SLH-DSA-SHA2-128f key pair, public and private, that a device secret gives (R404). DESIGN CHOICE, log entry 7. -/
opaque slhKeys : (secret : BitVec 256) → BitVec 256 × BitVec 512
/-- The SLH-DSA-SHA2-128f signature of 17,088 bytes of a message under a private key (R404). DESIGN CHOICE, log entry 7. -/
opaque slhSign : (key : BitVec 512) → (message : List Byte) → BitVec 136704
/-- The certificate chain that ends in a public identity key (R404). DESIGN CHOICE, log entry 7. -/
opaque certificate : (key : BitVec 256) → List Byte
/-- The hash of the boot ROM, measurement 0 (R404). DESIGN CHOICE, log entry 7. -/
opaque romHash : BitVec 256
/-- Whether an image's signature carries the manufacturer's diagnostic flag (R403). DESIGN CHOICE, log entry 7. -/
opaque diagnostic : (signature : List Byte) → Bool
/-- Whether a life-cycle authorisation is signed under the manufacturer key (R403). DESIGN CHOICE, log entry 7. -/
opaque authorised : (auth : List Byte) → Bool
/-- FREE VALUE (R282). The value field of the record of a fabric fault that has no address, target, value or instruction
word: a function of cause and slot. DESIGN CHOICE, log entry 13. -/
opaque faultValue : Nat → Nat → Word
/-- FREE VALUE (R58). Whether the record that a hotness flush overwrites at a cycle has not been consumed: the manual does not
say how system software marks one consumed. DESIGN CHOICE, log entry 14. -/
opaque hotUnread : Nat → Bool
/-- FREE VALUE (R127, R257). What a barrier symbol of an image declares: page, barrier and target, a function of its entry of 24
bytes. The manual gives no place of them. DESIGN CHOICE, log entry 15. -/
opaque barrierOf : List Byte → Nat × Nat × Nat
/-- FREE VALUE (R127). What an event symbol declares at a consist position: the bit and its value. DESIGN CHOICE, log entry 15. -/
opaque eventOf : List Byte → Nat → Nat × Bool
/-- FREE VALUE (R127, R257). What a timeline symbol declares at a consist position. DESIGN CHOICE, log entry 15. -/
opaque timelineOf : List Byte → Nat → Nat × Word
/-- FREE VALUE (R25, R300). The image of the port program that a page set names for a port of a page, if it names one: a function of
the image's symbol table, the page and the port. The manual gives no place of it in an image. DESIGN CHOICE, log entry 80. -/
opaque portProgram : List Byte → Nat → Nat → Option (List Byte)
/-- Which side of a die each of its four die-to-die links leaves: left, right, up, down (R10): the manual does not number the four
interfaces. DESIGN CHOICE, log entry 17. -/
opaque linkOrder : Nat → Equiv.Perm (Fin 4)
/-- The cluster of a die, modulo 40, beside whose router a byte of the die's memory is reached (R400): the manual does not place it.
DESIGN CHOICE, log entry 17. -/
opaque memoryRouter : Nat → Nat
/-- The register that the host reads at a place of a management window, if there is one (R396): the manual does not number the registers of the
window. DESIGN CHOICE, log entry 99. -/
opaque windowRead : Nat → Option MgmtRead
/-- What a write of eight bytes there is (R396). DESIGN CHOICE, log entry 99. -/
opaque windowWrite : Nat → Word → Option MgmtWrite
/-- Which aperture, and which place in its window, an offset of BAR4 or an address of CXL.mem is, if one (R305, R396). DESIGN CHOICE, log entry
99. -/
opaque apertureAt : Bool → Nat → Option (Nat × Nat)
/-- Whether the route between two clusters passes a third (R400): the manual does not place the clusters on the dies' router meshes. DESIGN CHOICE, log entry 17. -/
opaque routePasses : Nat → Nat → Nat → Bool
/-- The data bits of a flit that a die-to-die link sends anew, by die, link and number (R387): the manual does not say how packets lie in
flits. DESIGN CHOICE, log entry 96. -/
opaque linkData : Nat → Nat → Nat → BitVec 256
/-- The UALink port that the traffic of a domain endpoint takes, modulo 16 (R390): the manual gives no routes. DESIGN CHOICE, log entry
17. -/
opaque ualinkPort : Nat → Nat
/-- The channel of a die on which an LPDDR frame lies, modulo 2 (R407, R408): by die and frame. DESIGN CHOICE, log entry 38. -/
opaque channelOf : Nat → Nat → Nat
/-- The die that writes the records of a UALink port (R391): the manual does not place the ports. DESIGN CHOICE, log entry 17. -/
opaque portDie : Nat → Nat
/-- Whether an endpoint outside this package belongs to the domain (R368): system software numbers them. DESIGN CHOICE, log entry 50. -/
opaque domainHas : Nat → Bool
/-- The package of such an endpoint (R358). DESIGN CHOICE, log entry 50. -/
opaque packageOf : Nat → Nat
/-- FREE VALUE (R399). Whether a store that was reported as lost had been performed: a function of its number. DESIGN CHOICE,
log entry 25. -/
opaque lostPerformed : Nat → Bool
/-- FREE VALUE (R406). The temperature bin of a die at a cycle. DESIGN CHOICE, log entry 26. -/
opaque tempBin : Nat → Nat → Nat
/-- FREE VALUE (R406). Which counter of a group an index inside it names: die and two coordinates. The manual gives no order.
DESIGN CHOICE, log entry 26. -/
opaque tmCounter : Nat → Nat → Nat × Nat × Nat
/-- FREE VALUE (R194). How the record of a rejected configuration names the failing check. DESIGN CHOICE, log entry 19. -/
opaque checkCode : Nat → Word
/-- FREE VALUE (R277). A byte of a port's 128 in a save frame, whose layout the manual does not give: a function of what the port holds (its
program, positions and counters) and of the place. DESIGN CHOICE, log entry 24. -/
opaque portByte : List Nat → Nat → Byte
/-- FREE VALUE (R275, R277). What a restore reads of a port's 128 bytes that have been changed in the frame: the numbers that portByte was
given. DESIGN CHOICE, log entry 24. -/
opaque portRead : List Byte → Nat → Nat
/-- FREE VALUE (R279). The extra field of a dynamic list entry of a kind for which the manual does not describe it: by kind, index and
place. DESIGN CHOICE, log entry 24. -/
opaque listExtra : Nat → Nat → Nat → BitVec 32
/-- FREE VALUE (R279). The payload that stands for a lane of a slot's running value, whose format the manual does not give: a function of
the value. DESIGN CHOICE, log entry 24. -/
opaque listValue : Bool × Nat × Nat × Nat → BitVec 512
/-- FREE VALUE (R275, R279). The running value that a restore reads of a payload that has been changed in the frame. DESIGN CHOICE, log entry
24. -/
opaque valueRead : Nat → Bool × Nat × Nat × Nat

/-- FREE VALUE (R406). Hours that a die newly spent in a temperature bin, at a flush. DESIGN CHOICE, log entry 26. -/
opaque tempHours : Nat → Nat → Nat → Nat
/-- FREE VALUE (R281, R400, R405). What a register with a stated range holds after a write outside it, as an offset in the range:
a function of the register's name and the value. DESIGN CHOICE, log entry 30. -/
opaque outOfRange : Nat → Nat → Nat

/-- FREE VALUE (R47). The host frame that ATS answers for a page: by PASID, LV page and the number of host invalidation requests so far.
DESIGN CHOICE, log entry 84. -/
opaque atsFrame : Nat → Nat → Nat → BitVec 34
/-- FREE VALUE (R47). The read and write permissions that ATS answers for it. DESIGN CHOICE, log entry 84. -/
opaque atsPerm : Nat → Nat → Nat → Bool × Bool

end Sys2Proof.Config
end

