-- ==== Sys2Proof/Machine/Bits.lean ====
section
/-! DEFINITION. Bit fields, sign extension and byte order (R6, R141), shared by the decoder and the machine. -/

namespace Sys2Proof.Machine

/-- Bits [hi:lo] of a word, as a number (R6). -/
def bits {n : Nat} (w : BitVec n) (hi lo : Nat) : Nat := (w.toNat >>> lo) % 2 ^ (hi + 1 - lo)

/-- Bit i of a word. -/
def bit {n : Nat} (w : BitVec n) (i : Nat) : Bool := w.getLsbD i

/-- The low n bits of v read as two's complement (R141). -/
def signedOf (n v : Nat) : Int :=
  let u := v % 2 ^ n
  if 2 * u < 2 ^ n then (u : Int) else (u : Int) - (2 ^ n : Nat)

/-- sext16 and sext26 of R141: a field extended by its top bit to 64 bits. -/
def sext {n : Nat} (v : BitVec n) : Word := v.signExtend 64

/-- zext16 of R141. -/
def zext {n : Nat} (v : BitVec n) : Word := v.zeroExtend 64

/-- A 64-bit value from an integer, modulo 2^64 (R141). -/
def ofInt (i : Int) : Word := BitVec.ofInt 64 i

/-- A little-endian number from bytes (R6). -/
def leNat : List Byte → Nat
  | [] => 0
  | b :: r => b.toNat + 256 * leNat r

/-- n little-endian bytes of a number (R6). -/
def leBytes : Nat → Nat → List Byte
  | 0, _ => []
  | n + 1, v => BitVec.ofNat 8 v :: leBytes n (v / 256)

/-- Bytes i to i + n - 1 of a byte image, as a number. -/
def leAt (img : List Byte) (i n : Nat) : Nat := leNat ((img.drop i).take n)

/-- Round v up to a multiple of m. -/
def alignUp (v m : Nat) : Nat := (v + m - 1) / m * m

/-- Ceiling of a quotient. -/
def ceilDiv (a b : Nat) : Nat := (a + b - 1) / b

/-- The number of significant bits of v. -/
def bitLen (v : Nat) : Nat := if v = 0 then 0 else Nat.log2 v + 1

/-- Number of trailing zeros of a number below 2^n, n when it is zero. -/
def ctzNat : Nat → Nat → Nat
  | 0, _ => 0
  | n + 1, v => if v % 2 = 1 then 0 else 1 + ctzNat n (v / 2)

/-- Number of one bits among the low n bits of v. -/
def popNat : Nat → Nat → Nat
  | 0, _ => 0
  | n + 1, v => v % 2 + popNat n (v / 2)

/-- Number of leading zeros of v seen as an n-bit number. -/
def clzNat (n v : Nat) : Nat := n - bitLen (v % 2 ^ n)

/-- serial_lt of R108 at width w. -/
def serialLt (w a b : Nat) : Bool :=
  let d := (b + 2 ^ w - a % 2 ^ w) % 2 ^ w
  0 < d && d < 2 ^ (w - 1)

/-- serial_le of R108 at width w. -/
def serialLe (w a b : Nat) : Bool := a % 2 ^ w == b % 2 ^ w || serialLt w a b

/-- mix64 of R108. -/
def mix64 (x : Word) : Word :=
  let z := (x ^^^ (x >>> 30)) * 0xBF58476D1CE4E5B9
  let z := (z ^^^ (z >>> 27)) * 0x94D049BB133111EB
  z ^^^ (z >>> 31)

/-- sadd of R151: add to the 48-bit offset and keep bits [63:48]. -/
def streamAdd (a b : Word) : Word :=
  (a &&& 0xFFFF000000000000) ||| ((a + b) &&& 0x0000FFFFFFFFFFFF)

/-- Saturate a count at 32 bits. DEDUCED, log entry 70. -/
def sat32 (n : Nat) : Nat := min n 0xFFFFFFFF

/-- The first index below n that satisfies p. -/
def firstIdx (n : Nat) (p : Nat → Bool) : Option Nat := (List.range n).find? p

/-- Replace element i of a list. -/
def setIdx {α : Type} (l : List α) (i : Nat) (v : α) : List α := l.set i v

end Sys2Proof.Machine
end

