-- ==== Sys2Proof/Machine/Flags.lean ====
section
/-! DEFINITION. The floating status flags of fstat (R106) and how the flags of several results combine. -/

namespace Sys2Proof.Machine

/-- Bits [5:0] of fstat (R106): fe nx uf of dz nv. -/
abbrev Flags := BitVec 6

/-- A Q4X marker decoded as zero. -/
def flFE : Flags := 32
/-- Inexact result. -/
def flNX : Flags := 16
/-- Underflow. -/
def flUF : Flags := 8
/-- Overflow. -/
def flOF : Flags := 4
/-- Division by zero. -/
def flDZ : Flags := 2
/-- Invalid. -/
def flNV : Flags := 1
/-- No flag. -/
def fl0 : Flags := 0

/-- A flag when a condition holds. -/
def flIf (c : Bool) (f : Flags) : Flags := if c then f else 0

/-- The OR of the flags of several results (R106, R223). -/
def flAll (l : List Flags) : Flags := l.foldl (· ||| ·) 0

end Sys2Proof.Machine
end

