-- ==== Sys2Proof/Machine/Num.lean ====
section
/-! DEFINITION. Number formats, rounding and conversions (R97 to R112): every value is an exact fraction first and is
rounded by one function. -/

namespace Sys2Proof.Machine

/-- The floating-point formats of R97. -/
inductive Fmt | f64 | f32 | bf16 | f16 | e4m3 | e5m2
deriving DecidableEq, Repr

/-- Width in bits (R97). -/
def Fmt.width : Fmt → Nat
  | .f64 => 64 | .f32 => 32 | .bf16 => 16 | .f16 => 16 | .e4m3 => 8 | .e5m2 => 8
/-- Width of the fraction field (R97). -/
def Fmt.frac : Fmt → Nat
  | .f64 => 52 | .f32 => 23 | .bf16 => 7 | .f16 => 10 | .e4m3 => 3 | .e5m2 => 2
/-- Width of the exponent field (R97). -/
def Fmt.expw (f : Fmt) : Nat := f.width - 1 - f.frac
/-- Exponent bias (R97). -/
def Fmt.bias : Fmt → Nat
  | .f64 => 1023 | .f32 => 127 | .bf16 => 127 | .f16 => 15 | .e4m3 => 7 | .e5m2 => 15
/-- Precision p = m + 1 (R97). -/
def Fmt.prec (f : Fmt) : Nat := f.frac + 1
/-- Exponent of the smallest normal (R97). -/
def Fmt.emin (f : Fmt) : Int := 1 - (f.bias : Int)
/-- Exponent of the largest finite value (R97): in E4M3 the all-ones exponent is an ordinary binade. -/
def Fmt.emax (f : Fmt) : Int := match f with | .e4m3 => 8 | _ => (f.bias : Int)
/-- The largest significand of the top binade, as an integer of p bits (R97). -/
def Fmt.topMant (f : Fmt) : Nat := match f with | .e4m3 => 14 | _ => 2 ^ f.prec - 1
/-- Largest and smallest exponent inside a unit (R110). -/
def Fmt.wide : Fmt → Int × Int
  | .f16 => (63, -62) | .f64 => (4095, -4094) | _ => (511, -510)
/-- The encoding of the canonical NaN (R98). -/
def Fmt.nanBits (f : Fmt) : Nat := match f with
  | .e4m3 => 0x7F
  | _ => (2 ^ f.expw - 1) * 2 ^ f.frac + 2 ^ (f.frac - 1)
/-- Sign bit of an encoding. -/
def Fmt.signBit (f : Fmt) (neg : Bool) : Nat := if neg then 2 ^ (f.width - 1) else 0
/-- The encoding of an infinity. -/
def Fmt.infBits (f : Fmt) (neg : Bool) : Nat := f.signBit neg + (2 ^ f.expw - 1) * 2 ^ f.frac
/-- The encoding of the largest finite value. -/
def Fmt.maxBits (f : Fmt) (neg : Bool) : Nat :=
  f.signBit neg + (match f with | .e4m3 => 0x7E | _ => (2 ^ f.expw - 1) * 2 ^ f.frac - 1)
/-- The format that a type code of R190 names, if it is a float. -/
def fmtOf : Nat → Option Fmt
  | 0x8 => some .f64 | 0x9 => some .f32 | 0xA => some .bf16 | 0xB => some .f16 | 0xC => some .e4m3 | 0xD => some .e5m2
  | _ => none

/-- A real value, an infinity or a NaN. A finite value is (-1)^neg * num / den; neg is kept for a zero. -/
inductive Val
  | nan (signalling : Bool)
  | inf (neg : Bool)
  | fin (neg : Bool) (num den : Nat)
deriving DecidableEq, Repr

/-- Positive zero. -/
def Val.zero : Val := .fin false 0 1
/-- Is the value a NaN? -/
def Val.isNan : Val → Bool | .nan _ => true | _ => false
/-- Is the value a signalling NaN? -/
def Val.isSnan : Val → Bool | .nan b => b | _ => false
/-- Is the value infinite or NaN? -/
def Val.special : Val → Bool | .fin _ _ _ => false | _ => true
/-- Is the value a zero? -/
def Val.isZero : Val → Bool | .fin _ n _ => n == 0 | _ => false
/-- Sign of a value; a NaN counts as positive. -/
def Val.sign : Val → Bool | .nan _ => false | .inf n => n | .fin n _ _ => n
/-- The value with the opposite sign. -/
def Val.neg : Val → Val | .nan b => .nan b | .inf n => .inf (!n) | .fin n a d => .fin (!n) a d
/-- The magnitude of a value. -/
def Val.abs : Val → Val | .nan b => .nan b | .inf _ => .inf false | .fin _ a d => .fin false a d
/-- m * 2^e with a sign. -/
def Val.scaled (neg : Bool) (m : Nat) (e : Int) : Val :=
  match e with
  | .ofNat k => .fin neg (m * 2 ^ k) 1
  | .negSucc k => .fin neg m (2 ^ (k + 1))
/-- A value from an integer. -/
def Val.ofInt (i : Int) : Val := .fin (i < 0) i.natAbs 1
/-- Signed numerator of a finite value over its denominator. -/
def Val.snum : Val → Int | .fin n a _ => if n then -(a : Int) else a | _ => 0
/-- Denominator of a finite value. -/
def Val.den : Val → Nat | .fin _ _ d => d | _ => 1

/-- val of R97 and R98: the value that an encoding stands for. -/
def decodeFmt (f : Fmt) (b : Nat) : Val :=
  let fr := b % 2 ^ f.frac
  let ex := (b / 2 ^ f.frac) % 2 ^ f.expw
  let neg := (b / 2 ^ (f.width - 1)) % 2 == 1
  let ones := ex == 2 ^ f.expw - 1
  match f with
  | .e4m3 =>
    if ones && fr == 7 then .nan false
    else if ex == 0 then Val.scaled neg fr (f.emin - f.frac)
    else Val.scaled neg (fr + 2 ^ f.frac) ((ex : Int) - f.bias - f.frac)
  | _ =>
    if ones then (if fr == 0 then .inf neg else .nan (fr < 2 ^ (f.frac - 1)))
    else if ex == 0 then Val.scaled neg fr (f.emin - f.frac)
    else Val.scaled neg (fr + 2 ^ f.frac) ((ex : Int) - f.bias - f.frac)

/-- floor (log2 (n / d)) for n, d > 0. -/
def ilog2 (n d : Nat) : Int :=
  let e : Int := (Nat.log2 n : Int) - (Nat.log2 d : Int)
  let below := match e with
    | .ofNat k => decide (n < d * 2 ^ k)
    | .negSucc k => decide (n * 2 ^ (k + 1) < d)
  if below = true then e - 1 else e

/-- Numerator and denominator of n / d / 2^u. -/
def unscale (n d : Nat) (u : Int) : Nat × Nat :=
  match u with
  | .ofNat k => (n, d * 2 ^ k)
  | .negSucc k => (n * 2 ^ (k + 1), d)

/-- choose of R105 and R107 on a magnitude n / d that lies between k and k + 1 units: whether the magnitude k + 1 is
taken. r is the stochastic word of mode rs. -/
def roundUp (mode : Nat) (neg : Bool) (r : Word) (k n d : Nat) : Bool :=
  let rem := n - k * d
  if rem = 0 then false
  else match mode with
    | 1 => false
    | 2 => !neg
    | 3 => neg
    | 4 =>
      let low := r.toNat % 2 ^ 32
      if neg then !(low < (d - rem) * 2 ^ 32 / d) else low < rem * 2 ^ 32 / d
    | _ => if 2 * rem > d then true else if 2 * rem = d then k % 2 == 1 else false

/-- The magnitude n / d rounded to p significant bits, not finer than 2^lo when a floor is given: units, exponent of
the unit, and whether it was inexact. -/
def quantize (p : Nat) (lo : Option Int) (mode : Nat) (neg : Bool) (r : Word) (n d : Nat) : Nat × Int × Bool :=
  let e := ilog2 n d
  let u0 := e - (p - 1 : Nat)
  let u := match lo with | some l => max u0 l | none => u0
  let q := unscale n d u
  let k := q.1 / q.2
  let k' := if roundUp mode neg r k q.1 q.2 then k + 1 else k
  if k' = 2 ^ p then (2 ^ (p - 1), u + 1, k * q.2 != q.1) else (k', u, k * q.2 != q.1)

/-- Mode rs outside BF16, FP16, E4M3 and E5M2 acts as rne (R104). -/
def effMode (f : Fmt) (mode : Nat) : Nat :=
  if mode == 4 && (f == .f64 || f == .f32) then 0 else mode

/-- round of R105: the encoding of a value in a format, and the flags raised. -/
def round (f : Fmt) (x : Val) (mode0 : Nat) (r : Word := 0) : Nat × Flags :=
  let mode := effMode f mode0
  match x with
  | .nan s => (f.nanBits, flIf s flNV)
  | .inf neg => if f = .e4m3 then (f.nanBits, flNV) else (f.infBits neg, 0)
  | .fin neg n d =>
    if n = 0 then (f.signBit neg, 0)
    else
      let q := quantize f.prec (some (f.emin - f.frac)) mode neg r n d
      let k := q.1
      let u := q.2.1
      let inx := q.2.2
      let tiny := ilog2 n d < f.emin
      let fl := flIf inx flNX ||| flIf (inx && tiny) flUF
      let top : Int := u + f.frac
      if k ≥ 2 ^ f.frac ∧ (top > f.emax ∨ (top = f.emax ∧ k > f.topMant)) then
        let b := match f, mode with
          | .e4m3, _ => f.maxBits neg
          | _, 1 => f.maxBits neg
          | _, 2 => if neg then f.maxBits neg else f.infBits neg
          | _, 3 => if neg then f.infBits neg else f.maxBits neg
          | _, _ => f.infBits neg
        (b, fl ||| flOF ||| flNX)
      else if k < 2 ^ f.frac then (f.signBit neg + k, fl)
      else (f.signBit neg + (top + f.bias).toNat * 2 ^ f.frac + (k - 2 ^ f.frac), fl)

/-- round_acc of R108 and R110: p bits, the widened exponent range, no subnormals, no encoding. -/
def roundAcc (f : Fmt) (x : Val) (mode0 : Nat) (r : Word := 0) : Val × Flags :=
  let mode := effMode f mode0
  match x with
  | .nan s => (.nan false, flIf s flNV)
  | .inf neg => (.inf neg, 0)
  | .fin neg n d =>
    if n = 0 then (.fin neg 0 1, 0)
    else if ilog2 n d < f.wide.2 then (.fin neg 0 1, flUF ||| flNX)
    else
      let q := quantize f.prec none mode neg r n d
      if q.2.1 + f.frac > f.wide.1 then (.inf neg, flOF ||| flNX)
      else (Val.scaled neg q.1 q.2.1, flIf q.2.2 flNX)

/-- u(fmt) of R97 as 1 / 2^p. -/
def unitRoundoff (f : Fmt) : Nat × Nat := (1, 2 ^ f.prec)

/-- ulp(fmt, x) of R108, as a value. -/
def ulp (f : Fmt) (x : Val) : Val :=
  match x with
  | .fin _ n d =>
    if n = 0 then Val.scaled false 1 (f.emin - f.frac)
    else Val.scaled false 1 (max (ilog2 n d) f.emin - f.frac)
  | _ => .zero

/-- Exact sum, with the sign of an exact zero (R105) and the invalid cases of R220. -/
def vadd (a b : Val) (mode : Nat) : Val × Flags :=
  match a, b with
  | .nan s, .nan t => (.nan false, flIf (s || t) flNV)
  | .nan s, _ => (.nan false, flIf s flNV)
  | _, .nan t => (.nan false, flIf t flNV)
  | .inf m, .inf n => if m = n then (.inf m, 0) else (.nan false, flNV)
  | .inf m, _ => (.inf m, 0)
  | _, .inf n => (.inf n, 0)
  | .fin m _ _, .fin n _ _ =>
    let s := a.snum * (b.den : Int) + b.snum * (a.den : Int)
    let dd := a.den * b.den
    if s = 0 then
      (.fin ((a.isZero && b.isZero && m && n) || mode == 3) 0 1, 0)
    else (.fin (s < 0) s.natAbs dd, 0)

/-- Exact product (R220). -/
def vmul (a b : Val) : Val × Flags :=
  let s := a.sign != b.sign
  match a, b with
  | .nan p, .nan q => (.nan false, flIf (p || q) flNV)
  | .nan p, _ => (.nan false, flIf p flNV)
  | _, .nan q => (.nan false, flIf q flNV)
  | .inf _, .inf _ => (.inf s, 0)
  | .inf _, .fin _ n _ => if n = 0 then (.nan false, flNV) else (.inf s, 0)
  | .fin _ n _, .inf _ => if n = 0 then (.nan false, flNV) else (.inf s, 0)
  | .fin _ n d, .fin _ n' d' => (.fin s (n * n') (d * d'), 0)

/-- Exact quotient (R220). -/
def vdiv (a b : Val) : Val × Flags :=
  let s := a.sign != b.sign
  match a, b with
  | .nan p, .nan q => (.nan false, flIf (p || q) flNV)
  | .nan p, _ => (.nan false, flIf p flNV)
  | _, .nan q => (.nan false, flIf q flNV)
  | .inf _, .inf _ => (.nan false, flNV)
  | .inf _, .fin _ _ _ => (.inf s, 0)
  | .fin _ _ _, .inf _ => (.fin s 0 1, 0)
  | .fin _ n d, .fin _ n' d' =>
    if n' = 0 then (if n = 0 then (.nan false, flNV) else (.inf s, flDZ))
    else (.fin s (n * d') (d * n'), 0)

/-- Integer square root by bisection on the bits, from the top bit down. -/
def isqrtGo (n : Nat) : Nat → Nat → Nat
  | 0, acc => acc
  | k + 1, acc =>
    let t := acc + 2 ^ k
    isqrtGo n k (if t * t ≤ n then t else acc)

/-- floor (sqrt n). -/
def isqrt (n : Nat) : Nat := isqrtGo n (bitLen n / 2 + 1) 0

/-- A fraction that every rounding of R105 rounds as the square root of n / d: the root itself when it is exact, else
the midpoint of a grid step 2^-260 of its binade. DEDUCED, log entry 8. -/
def sqrtFrac (n d : Nat) : Nat × Nat :=
  let k := 520 + bitLen d
  let m := n * 4 ^ k / d
  let s := isqrt m
  if s * s * d = n * 4 ^ k then (s, 2 ^ k) else (2 * s + 1, 2 ^ (k + 1))

/-- Exact square root (R220). -/
def vsqrt (a : Val) : Val × Flags :=
  match a with
  | .nan s => (.nan false, flIf s flNV)
  | .inf neg => if neg then (.nan false, flNV) else (.inf false, 0)
  | .fin neg n d =>
    if n = 0 then (.fin neg 0 1, 0)
    else if neg then (.nan false, flNV)
    else let q := sqrtFrac n d; (.fin false q.1 q.2, 0)

/-- Is a < b, for values that are not NaN (R219)? -/
def vlt (a b : Val) : Bool :=
  match a, b with
  | .nan _, _ => false
  | _, .nan _ => false
  | .inf m, .inf n => m && !n
  | .inf m, _ => m
  | _, .inf n => !n
  | _, _ => a.snum * (b.den : Int) < b.snum * (a.den : Int)

/-- Do a and b compare equal (R98, R219)? -/
def veq (a b : Val) : Bool :=
  match a, b with
  | .nan _, _ => false
  | _, .nan _ => false
  | .inf m, .inf n => m == n
  | .inf _, _ => false
  | _, .inf _ => false
  | _, _ => a.snum * (b.den : Int) == b.snum * (a.den : Int)

/-- The larger magnitude of two values; a special value wins. -/
def vmaxAbs (a b : Val) : Val :=
  if a.isNan || b.isNan then .nan false else if vlt a.abs b.abs then b.abs else a.abs

/-! ### Powers and logarithms of two (R221) -/

/-- Product over the bits of f / 2^b, most significant first, of 2^(2^-i), in fixed point of P bits. -/
def exp2Go (P : Nat) (f : Nat) : Nat → Nat → Nat → Nat
  | 0, _, acc => acc
  | b + 1, root, acc =>
    let root' := isqrt (root * 2 ^ P)
    exp2Go P f b root' (if (f / 2 ^ b) % 2 = 1 then acc * root' / 2 ^ P else acc)

/-- 2^x for a finite x that is no integer: a lower approximation of its significand in [1, 2) with 256 bits, and its
exponent. The error is below 2^-180 of the value (DEDUCED, log entry 8). -/
def exp2Approx (x : Val) : Nat × Int :=
  let num := x.snum
  let den := x.den
  let fl : Int := num / (den : Int)
  let fr : Nat := (num - fl * den).toNat
  let f := fr * 2 ^ 200 / den
  (exp2Go 256 f 200 (2 ^ 257) (2 ^ 256), fl)

/-- Bits of log2 m for m in [1, 2) held with P fraction bits, most significant first. -/
def log2Go (P : Nat) : Nat → Nat → Nat → Nat
  | 0, _, acc => acc
  | b + 1, m, acc =>
    let s := m * m / 2 ^ P
    if s ≥ 2 ^ (P + 1) then log2Go P b (s / 2) (2 * acc + 1) else log2Go P b s (2 * acc)

/-- log2 of a positive n / d as a signed fraction over 2^200, from below (DEDUCED, log entry 8). -/
def log2Approx (n d : Nat) : Int :=
  let e := ilog2 n d
  let q := unscale n d e
  let m := q.1 * 2 ^ 600 / q.2
  e * (2 ^ 200 : Nat) + (log2Go 600 200 m 0 : Nat)

/-- Is an integer-valued x exactly held, so that 2^x is exact (R221)? -/
def Val.isInt : Val → Bool | .fin _ n d => n % d == 0 | _ => false

/-- Does a finite magnitude lie beyond the top binade, so that both values that bracket it overflow (R105)? -/
def Val.beyond (f : Fmt) (x : Val) : Bool :=
  match x with | .fin _ n d => n != 0 && decide (ilog2 n d > f.emax) | _ => false

/-- One of the two values of a format that bracket a nonzero inexact magnitude: mode rz when up is false, away from
zero when it is true; beyond the top binade both are the overflow of R105. -/
def bracket (f : Fmt) (x : Val) (up : Bool) : Nat × Flags :=
  round f x (if x.beyond f then 0 else if up then (if x.sign then 3 else 2) else 1)

/-- fexp2 of R221 on an encoding. -/
def fexp2 (f : Fmt) (code enc : Nat) : Nat × Flags :=
  match decodeFmt f enc with
  | .nan s => (f.nanBits, flIf s flNV)
  | .inf true => (0, 0)
  | .inf false => (f.infBits false, 0)
  | .fin neg n d =>
    let x := Val.fin neg n d
    let k := x.snum / (d : Int)
    let up := Config.exp2Up code enc
    if k > 5000 then bracket f (.fin false (2 ^ 5000) 1) up
    else if k < -5000 then bracket f (.fin false 1 (2 ^ 5000)) up
    else if x.isInt then
      let r := round f (Val.scaled false 1 k) 0
      if r.2 &&& flNX = 0 then r else bracket f (Val.scaled false 1 k) up
    else
      let a := exp2Approx x
      bracket f (Val.scaled false (2 * a.1 + 1) (a.2 - 257)) up

/-- flog2 of R221 on an encoding. -/
def flog2 (f : Fmt) (code enc : Nat) : Nat × Flags :=
  match decodeFmt f enc with
  | .nan s => (f.nanBits, flIf s flNV)
  | .inf true => (f.nanBits, flNV)
  | .inf false => (f.infBits false, 0)
  | .fin neg n d =>
    if n = 0 then (f.infBits true, flDZ)
    else if neg then (f.nanBits, flNV)
    else
      let e := ilog2 n d
      let q := unscale n d e
      if q.1 = q.2 then round f (Val.ofInt e) 0
      else
        let l := log2Approx n d
        bracket f (Val.scaled (l < 0) (2 * l + 1).natAbs (-201)) (Config.log2Up code enc)

/-! ### Integers -/

/-- Signed type codes of R190: 0x0 to 0x3. -/
def codeSigned (c : Nat) : Bool := c < 4
/-- Integer type codes of R190: 0x0 to 0x7. -/
def codeInt (c : Nat) : Bool := c < 8
/-- Width in bits of a type code (R213); Q4X elements have 4. -/
def codeWidth : Nat → Nat
  | 0x0 => 64 | 0x4 => 64 | 0x8 => 64 | 0x1 => 32 | 0x5 => 32 | 0x9 => 32
  | 0x2 => 16 | 0x6 => 16 | 0xA => 16 | 0xB => 16 | 0x3 => 8 | 0x7 => 8 | 0xC => 8 | 0xD => 8
  | _ => 4
/-- Lanes of a vector of a type (R213). -/
def codeLanes (c : Nat) : Nat := 512 / codeWidth c

/-- The integer that an encoding of an integer type stands for (R99). -/
def intOf (c : Nat) (b : Nat) : Int :=
  let w := codeWidth c
  if codeSigned c then signedOf w b else ((b % 2 ^ w : Nat) : Int)

/-- The encoding of an integer modulo 2^w (R99). -/
def intBits (c : Nat) (i : Int) : Nat := (i % (2 ^ codeWidth c : Nat)).toNat

/-- sat of R108: the clamped integer, and whether it was clamped. -/
def sat (c : Nat) (i : Int) : Int × Bool :=
  let w := codeWidth c
  let lo : Int := if codeSigned c then -(2 ^ (w - 1) : Nat) else 0
  let hi : Int := if codeSigned c then (2 ^ (w - 1) : Nat) - 1 else (2 ^ w : Nat) - 1
  if i < lo then (lo, true) else if i > hi then (hi, true) else (i, false)

/-- A finite value rounded to an integer by a mode (R109); rs acts as rne. -/
def roundInt (x : Val) (mode : Nat) : Int × Bool :=
  match x with
  | .fin neg n d =>
    let k := n / d
    let k' := if roundUp (if mode == 4 then 0 else mode) neg 0 k n d then k + 1 else k
    ((if neg then -(k' : Int) else k'), k * d != n)
  | _ => (0, false)

/-- Conversion of a value into an integer type (R109). -/
def toInt (c : Nat) (x : Val) (mode : Nat) : Int × Flags :=
  match x with
  | .nan _ => (0, flNV)
  | .inf neg => ((sat c (if neg then -(2 ^ 80 : Nat) else (2 ^ 80 : Nat))).1, flNV)
  | _ =>
    let r := roundInt x mode
    let s := sat c r.1
    (s.1, if s.2 then flNV else flIf r.2 flNX)

/-! ### BND16 and RFX320 -/

/-- val of a BND16 code (R101). -/
def bndVal (c : BitVec 16) : Val :=
  if c = 0 then .zero
  else if c = 0xFFFF then .inf false
  else Val.scaled false (1024 + c.toNat % 1024) ((c.toNat / 1024 : Nat) - 41 : Int)

/-- to_bnd of R102: the least BND16 value that is at least x. -/
def toBnd (x : Val) : BitVec 16 :=
  match x with
  | .fin _ n d =>
    if n = 0 then 0
    else
      let e := ilog2 n d
      if e > 32 then 0xFFFF
      else if e < -31 then 1
      else
        let q := unscale n d (e - 10)
        let k := if q.1 % q.2 = 0 then q.1 / q.2 else q.1 / q.2 + 1
        let code := ((e + 31).toNat * 1024) + (k - 1024)
        if code = 0 then 1 else if code ≥ 0xFFFF then 0xFFFF else BitVec.ofNat 16 code
  | _ => 0xFFFF

/-- A sum of bounds: +inf absorbs (R102). -/
def bndAdd (a b : Val) : Val := if a.special || b.special then .inf false else (vadd a b 0).1
/-- A product of bounds: +inf absorbs, also against zero (R102). -/
def bndMul (a b : Val) : Val := if a.special || b.special then .inf false else (vmul a b).1

/-- The RFX320 accumulator of R103. -/
structure Rfx where
  sum : Int
  nan : Bool
  pinf : Bool
  ninf : Bool
  ovf : Bool
deriving DecidableEq, Repr

/-- The empty sum. -/
def Rfx.zero : Rfx := { sum := 0, nan := false, pinf := false, ninf := false, ovf := false }

/-- One input converted exactly and summed (R103). -/
def Rfx.add (a : Rfx) (x : Val) : Rfx :=
  match x with
  | .nan _ => { a with nan := true }
  | .inf n => if n then { a with ninf := true } else { a with pinf := true }
  | .fin _ _ d =>
    let s := a.sum + x.snum * (2 ^ 160 : Nat) / d
    if s < -(2 ^ 319 : Nat) ∨ s ≥ (2 ^ 319 : Nat) then { a with sum := s.bmod (2 ^ 320), ovf := true }
    else { a with sum := s }

/-- The conversion at the root (R103). Where every input was -0, R105 gives a sum of -0, which the integer of R103 cannot hold: the
integer's zero is converted, +0 except in mode rm. DESIGN CHOICE, log entry 79. -/
def Rfx.root (a : Rfx) (f : Fmt) (mode : Nat) : Nat × Flags :=
  if a.nan || (a.pinf && a.ninf) then (f.nanBits, flNV)
  else if a.pinf then round f (.inf false) mode
  else if a.ninf then round f (.inf true) mode
  else if a.ovf then (f.nanBits, flNV ||| flOF)
  else round f (if a.sum = 0 then .fin (mode == 3) 0 1 else .fin (a.sum < 0) a.sum.natAbs (2 ^ 160)) mode

/-! ### Q4X (R100) -/

/-- Number of marker nibbles of a byte. -/
def q4xMarks (b : Nat) : Nat := (if b % 16 = 8 then 1 else 0) + (if b / 16 % 16 = 8 then 1 else 0)

/-- The two elements of a byte of a pair: donor says that this byte is the donor, other is the other byte, has says
that the pair has a donor. -/
def q4xByte (b other : Nat) (donor has : Bool) : List Val × Flags :=
  if donor then ([.zero, .zero], 0)
  else
    let el (n : Nat) : Val × Flags :=
      if n = 8 then (if has then (decodeFmt .e4m3 other, 0) else (.zero, flFE)) else (Val.ofInt (signedOf 4 n), 0)
    let a := el (b % 16)
    let c := el (b / 16 % 16)
    ([a.1, c.1], a.2 ||| c.2)

/-- The elements of Q4X bytes, decoded in pairs. -/
def q4xDecode : List Nat → List Val × Flags
  | lo :: hi :: r =>
    let up := q4xMarks lo == 1
    let dn := !up && q4xMarks hi == 1
    let a := q4xByte lo hi dn up
    let b := q4xByte hi lo up dn
    let t := q4xDecode r
    (a.1 ++ b.1 ++ t.1, a.2 ||| b.2 ||| t.2)
  | _ => ([], 0)

/-! ### Conversions (R111) -/

/-- The value of an encoding of a type code, Q4X apart. -/
def codeVal (c : Nat) (b : Nat) : Val :=
  match fmtOf c with
  | some f => decodeFmt f b
  | none => Val.ofInt (intOf c b)

/-- The encoding and flags of a value converted to a type code (R105, R109, R111). -/
def codeRound (c : Nat) (x : Val) (mode : Nat) (r : Word := 0) : Nat × Flags :=
  match fmtOf c with
  | some f => round f x mode r
  | none => let i := toInt c x mode; (intBits c i.1, i.2)

/-- The scalar conversion of cvt (R111, R226): integer to integer saturates, everything else goes through the exact
value. -/
def convert (dst src : Nat) (b : Nat) (mode : Nat) (r : Word := 0) : Nat × Flags :=
  if codeInt dst && codeInt src then
    let s := sat dst (intOf src b)
    (intBits dst s.1, flIf s.2 flNV)
  else codeRound dst (codeVal src b) mode r

end Sys2Proof.Machine
end

