-- ==== Sys2Proof/Machine/FabTable.lean ====
section
/-! DEFINITION. The fabric opcode map (R192, R193) and what each opcode admits: type codes, operand positions, outputs,
immediate bits, order field (R213 to R244, R314, R321, R343, R344). The decoder, the load checks and the firing rule
all read this one table. -/

namespace Sys2Proof.Machine

/-- The three kinds of token (R191). -/
inductive Kind | scalar | vector | bit
deriving DecidableEq, Repr

/-- What an output sends: nothing (the target must be none), one kind, or whatever kind its target takes. -/
inductive OutKind | none | one (k : Kind) | any
deriving DecidableEq, Repr

/-- One row of the opcode map. -/
structure OpInfo where
  /-- Stands only in a vector-capable slot (R16, R193). -/
  vec : Bool
  /-- Admitted type codes, bit m for code m (R190). -/
  mods : Nat
  /-- Bits of imm that the opcode's own fields occupy, order field and rnd apart. -/
  imm : Nat
  /-- Where imm [29:27] is the rnd field: never, with a float mod, always (R189, R223). -/
  rnd : Nat
  /-- Low bit of the order field, if there is one (R192). -/
  order : Option Nat
  /-- Admitted predicate modes, bit m for mode m. -/
  pms : Nat
deriving DecidableEq, Repr

/-- A row with the usual order field imm [3:0] and every predicate mode. -/
def opRow (mods : Nat) (imm : Nat := 0) (rnd : Nat := 0) (vec : Bool := false) (order : Nat := 0) : OpInfo :=
  { vec := vec, mods := mods, imm := imm, rnd := rnd, order := some order, pms := 0b1111 }

/-- A row that must have pm 0b00 (R192). -/
def opRow0 (mods : Nat) (imm : Nat := 0) (vec : Bool := false) : OpInfo :=
  { vec := vec, mods := mods, imm := imm, rnd := 0, order := none, pms := 1 }

/-- Type codes 0x0 to 0x7. -/
def modsInt : Nat := 0x00FF
/-- Type codes 0x8 to 0xB. -/
def modsFloat : Nat := 0x0F00
/-- Type codes 0x0 to 0xB. -/
def modsArith : Nat := 0x0FFF
/-- Type codes 0x0 to 0xD. -/
def modsScalar : Nat := 0x3FFF
/-- Type codes 0x0 to 0xE. -/
def modsVector : Nat := 0x7FFF
/-- Type code 0x0 alone. -/
def modsNone : Nat := 1
/-- The fields src, rlev and reg of R222. -/
def immFused : Nat := 0x07E0003F

/-- The opcode map of R193. -/
def opInfo : Nat → Option OpInfo
  | 0x01 => some (opRow modsNone)
  | 0x02 => some (opRow0 modsScalar 0x3FFFFFFF)
  | 0x03 => some (opRow0 modsNone 0x3F)
  | 0x04 => some (opRow0 modsNone 0xF true)
  | 0x05 => some (opRow0 modsNone)
  | 0x06 => some (opRow0 modsNone 0 true)
  | 0x07 => some (opRow modsNone 0 0 true)
  | 0x12 => some { vec := false, mods := modsInt, imm := 0x3FFFFFFF, rnd := 0, order := none, pms := 0b0111 }
  | 0x25 => some (opRow modsNone)
  | 0x28 | 0x29 | 0x2A | 0x2B => some (opRow modsScalar)
  | 0x2C | 0x2D | 0x2E | 0x2F => some (opRow modsNone)
  | 0x30 | 0x31 | 0x32 | 0x35 | 0x36 | 0x37 => some (opRow modsFloat 0 2)
  | 0x33 | 0x34 => some (opRow modsFloat immFused 2 false 10)
  | 0x38 | 0x39 | 0x3A | 0x3B | 0x3C | 0x3D => some (opRow modsFloat)
  | 0x40 | 0x41 | 0x42 | 0x48 => some (opRow modsArith 0 1 true)
  | 0x43 => some (opRow modsFloat immFused 2 true 10)
  | 0x44 | 0x45 | 0x46 | 0x47 | 0x49 | 0x4D | 0x4E => some (opRow modsArith 0 0 true)
  | 0x4A => some (opRow modsScalar 0 0 true)
  | 0x4B | 0x4C => some (opRow modsScalar 0x7F 0 true 7)
  | 0x4F | 0x50 | 0x51 => some (opRow modsNone 0 0 true)
  | 0x52 | 0x53 => some (opRow modsInt 0 0 true)
  | 0x54 => some (opRow modsFloat 0 0 true)
  | 0x55 => some (opRow modsFloat 0 2 true)
  | 0x60 => some (opRow modsScalar 0xF 2 false 4)
  | 0x61 => some (opRow modsScalar 0x7F 2 true 7)
  | 0x62 => some (opRow 0x0300 (immFused ||| 0x3C0) 2 false 10)
  | 0x63 => some (opRow 0x0300 (immFused ||| 0x3C0) 2 true 10)
  | 0x68 | 0x69 | 0x6A | 0x6B | 0x6C => some (opRow modsNone 0xF 0 false 4)
  | 0x70 | 0x71 | 0x74 | 0x75 | 0x78 | 0x79 => some (opRow modsScalar 0xFFFFFF 0 false 24)
  | 0x72 | 0x73 | 0x76 | 0x77 | 0x7A | 0x7B => some (opRow modsVector 0xFFFFFF 0 true 24)
  | 0x7C | 0x7D => some (opRow modsNone 0xF 0 true 4)
  | 0x7E | 0x7F => some (opRow 0x0033 0x3800000F 0 false 4)
  | 0x88 => some (opRow0 modsVector 0 true)
  | 0x89 => some { opRow 0x7F88 0x07FFFFE0 2 true 0 with pms := 0b1001 }
  | 0x8A => some (opRow 0x3F0A 0x001F8000 2 true 0)
  | 0x8B => some (opRow modsNone 0x00FE0000)
  | 0x8C => some (opRow modsNone 0x00F20000)
  | 0x90 => some (opRow modsNone 0x1F 0 false 5)
  | 0x91 => some (opRow modsNone 0x10)
  | 0x92 => some (opRow modsNone 0x7FF 0 false 11)
  | n => if (0x10 ≤ n ∧ n ≤ 0x24) then some (opRow modsInt) else none

/-- The kind of the operand at `.l` (R216 to R244, R315). -/
def kindL (op imm : Nat) : Option Kind :=
  match op with
  | 0x02 | 0x03 | 0x04 => none
  | 0x2C | 0x2D | 0x2E | 0x2F => some .bit
  | 0x06 | 0x07 | 0x7C | 0x88 | 0x89 | 0x61 | 0x63 => some .vector
  | 0x4A => some .scalar
  | 0x68 | 0x69 | 0x6A | 0x6B | 0x6C => some (if imm / 8 % 2 = 1 then .vector else .scalar)
  | 0x90 | 0x91 => some (if imm / 16 % 2 = 1 then .bit else .scalar)
  | 0x92 => some (if imm / 1024 % 2 = 1 then .bit else .scalar)
  | n => some (if 0x40 ≤ n ∧ n ≤ 0x55 then .vector else .scalar)

/-- The kind of the operand at `.r`, if the opcode takes one. -/
def kindR (op imm : Nat) : Option Kind :=
  match op with
  | 0x05 => some .scalar
  | 0x06 => some .vector
  | 0x2C | 0x2D | 0x2F => some .bit
  | 0x12 | 0x1E | 0x1F | 0x20 | 0x21 | 0x22 | 0x2E => none
  | 0x30 | 0x31 | 0x32 | 0x33 | 0x34 | 0x35 | 0x38 | 0x39 => some .scalar
  | 0x40 | 0x41 | 0x42 | 0x43 | 0x44 | 0x45 | 0x4D | 0x4E | 0x4F | 0x50 | 0x51 | 0x52 | 0x53 => some .vector
  | 0x4C => some .scalar
  | 0x62 => some .scalar
  | 0x63 => some .vector
  | 0x71 | 0x75 | 0x79 | 0x7E | 0x7F => some .scalar
  | 0x73 | 0x77 | 0x7B => some .vector
  | 0x88 => some .scalar
  | 0x89 => some .vector
  | 0x8B => if imm / 0x80000 % 2 = 0 then some .scalar else none
  | 0x8C => some .scalar
  | n => if (0x10 ≤ n ∧ n ≤ 0x25) ∨ (0x28 ≤ n ∧ n ≤ 0x2B) then some .scalar else none

/-- The kind sent to t0 (R216 to R244). -/
def kindOut0 (op imm : Nat) : OutKind :=
  match op with
  | 0x04 | 0x06 | 0x07 | 0x61 | 0x63 | 0x72 | 0x76 | 0x7A | 0x7D | 0x88 | 0x8A | 0x4A | 0x4C => .one .vector
  | 0x48 | 0x49 | 0x4B => .one .scalar
  | 0x68 | 0x6A => .one (if imm / 8 % 2 = 1 then .vector else .scalar)
  | 0x69 | 0x6C => .one .bit
  | 0x71 | 0x73 | 0x75 | 0x77 | 0x79 | 0x7B | 0x7E | 0x7F | 0x8C | 0x90 | 0x92 => .none
  | 0x91 => .any
  | n => if 0x28 ≤ n ∧ n ≤ 0x2F then .one .bit
         else if 0x40 ≤ n ∧ n ≤ 0x55 then .one .vector else .one .scalar

/-- The kind sent to t1: the completion bit of memory, bound-store and barrier nodes, else as t0. -/
def kindOut1 (op imm : Nat) : OutKind :=
  match op with
  | 0x70 | 0x71 | 0x72 | 0x73 | 0x74 | 0x75 | 0x76 | 0x77 | 0x78 | 0x79 | 0x7A | 0x7B | 0x7E | 0x7F | 0x8B | 0x8C | 0x92 =>
    .one .bit
  | 0x7C | 0x90 => .none
  | n => kindOut0 n imm

/-- Store-kind slots of R199: stores, atomics, bst and bar. -/
def opStoreKind (op : Nat) : Bool :=
  op ∈ [0x71, 0x73, 0x75, 0x77, 0x79, 0x7B, 0x7E, 0x7F, 0x8C, 0x92]

/-- Is the opcode a counted slot (R199)? -/
def opCounted (op : Nat) : Bool := opStoreKind op || op == 0x90

/-- Memory nodes, whose completion bit is sent also when they are nullified or stopped (R196); bld is one of them in both its forms.
DESIGN CHOICE, log entry 100. -/
def opMemory (op : Nat) : Bool := (0x70 ≤ op && op ≤ 0x7B) || op == 0x7E || op == 0x7F || op == 0x8B || op == 0x8C

/-- The stop operators of R228. -/
def opStop (op : Nat) : Bool := 0x68 ≤ op && op ≤ 0x6C

/-- Slots that send at round start (R203, R216). -/
def opSource (op : Nat) : Bool := op == 2 || op == 3 || op == 4

/-- The pairs of R111 that a conversion performs, Q4X and BND16 sources included where the opcode admits them. -/
def cvtPair (dst src : Nat) : Bool :=
  if src == 0xF then dst == 8 || dst == 9
  else if src == 0xE then dst ≤ 0xD
  else if codeInt dst || codeInt src then true
  else dst != src

/-- The accumulation formats admitted by R310 for A, B: bit af of the answer. -/
def mmaAdmits (a b : Nat) : Nat :=
  match a with
  | 0x8 => if b = 0x8 then 0b0100 else 0
  | 0x9 => if b = 0x9 then 0b0110 else 0
  | 0xA => if b = 0xA then 0b0111 else 0
  | 0xB => if b = 0xB then 0b0111 else 0
  | 0xC | 0xD => if b = 0xC ∨ b = 0xD then 0b0111 else 0
  | 0x3 | 0x7 => if b = 0x3 ∨ b = 0x7 then 0b1000 else 0
  | 0xE => if b = 0xE then 0b0111 else 0
  | _ => 0

/-- Rows of a tile shape: the m field of R314. -/
def mmaM (imm : Nat) : Nat := if imm / 2 ^ 18 % 2 = 1 then 128 else 64
/-- Columns of a tile shape: the n field of R314. -/
def mmaN (imm : Nat) : Nat := 64 * 2 ^ (imm / 2 ^ 16 % 4)
/-- Banks of a tile (R312) at a width code (2 is FP64). -/
def tileBanks (m n width : Nat) : Nat := m / 64 * ceilDiv n (if width = 2 then 64 else 128)
/-- The gang size of R314. -/
def mmaGang (imm : Nat) : Nat := 2 ^ (imm / 2 ^ 9 % 4)

/-- The checks of R312, R314, R319 and R323 that one mma word can break by itself. -/
def mmaOk (mod imm : Nat) : Bool :=
  let bt := imm / 2 ^ 23 % 16
  let af := imm / 2 ^ 21 % 4
  let b0 := imm / 2 ^ 19 % 4
  let gang := imm / 2 ^ 9 % 4
  let split := imm / 2 ^ 8 % 2
  (mmaAdmits mod bt / 2 ^ af % 2 = 1) && (imm / 2 ^ 27 ≤ 3) && (imm / 2 ^ 13 % 8 != 0) && (gang != 3) &&
  (gang != 0 || (split = 0 && imm / 2 ^ 7 % 2 = 0)) &&
  (b0 + tileBanks (mmaM imm) (mmaN imm) af ≤ 4) &&
  (gang == 0 || (if split = 0 then mmaGang imm * mmaM imm ≤ 256 else mmaGang imm * mmaN imm ≤ 512))

/-- The opcode's own checks of mod and imm beyond reserved bits (R217, R221, R222, R225 to R228, R237 to R239, R314,
R343, R344). -/
def opOk (op mod imm : Nat) : Bool :=
  match op with
  | 0x02 => match mod with
    | 0xA | 0xB => imm < 2 ^ 16
    | 0xC | 0xD => imm < 2 ^ 8
    | _ => true
  | 0x33 | 0x34 | 0x43 | 0x62 | 0x63 =>
    let src := imm / 2 ^ 24 % 8
    let rlev := imm / 2 ^ 21 % 8
    let reg := imm % 64
    let pt := imm / 64 % 16
    (src == 0 && reg == 0 || src == 1 && rlev == 0 && (reg < 16 || (op != 0x43 && op != 0x63))) &&
    (if op = 0x62 then pt == 0 || pt == 1 || pt == 8 || pt == 9
     else if op = 0x63 then (if mod = 9 then pt == 1 || pt == 9 else pt == 0 || pt == 8) else true)
  | 0x4B | 0x4C => imm % 128 < codeLanes mod
  | 0x60 => imm % 16 != 0xE && cvtPair mod (imm % 16)
  | 0x61 =>
    let s := imm % 16
    s != 0xF && cvtPair mod s &&
      imm / 16 % 8 < max (codeLanes s) (codeLanes mod) / min (codeLanes s) (codeLanes mod)
  | 0x68 | 0x69 | 0x6A | 0x6B => imm % 8 != 0
  | 0x6C => imm % 8 == 0
  | 0x7C | 0x7D => 1 ≤ imm % 16 && imm % 16 ≤ 8
  | 0x7E | 0x7F => imm % 16 ≤ 6
  | 0x89 => mmaOk mod imm
  | 0x8B =>
    let reg := imm / 2 ^ 22 % 4
    let src := imm / 2 ^ 19 % 2
    let mx := imm / 2 ^ 18 % 2
    let sp := imm / 2 ^ 17 % 2
    reg != 3 && !(reg == 2 && (src == 0 || mx == 1)) && !(src == 1 && sp == 1)
  | 0x8C => imm / 2 ^ 22 % 4 < 2
  | _ => true

/-- The named reasons for which one slot word rejects its stream (R194). -/
inductive SlotError
  | opcode | emptyField | mod | rnd | scope | predicate | targetIndex | targetPosition | reserved | operand
deriving DecidableEq, Repr

/-- Is a target field well formed by itself (R121, R191)? -/
def targetOk (t : BitVec 10) : Bool :=
  let pos := t.toNat / 256
  let i := t.toNat % 256
  if pos = 0 then i == 0 else i < 208 && (i < 128 || pos == 1)

/-- Does the opcode use the rnd field with this mod? -/
def usesRnd (o : OpInfo) (mod : Nat) : Bool := o.rnd == 2 || (o.rnd == 1 && mod ≥ 8)

/-- The bits of imm that a slot word may set: its own fields, rnd where it rounds, the order field in mode 0b11. -/
def immAllowed (o : OpInfo) (mod pm : Nat) : Nat :=
  o.imm ||| (if usesRnd o mod then 0x38000000 else 0) |||
    (if pm = 3 then (match o.order with | some lo => 0xF * 2 ^ lo | none => 0) else 0)

/-- The count N of an order-gated slot (R192). -/
def orderCount (o : OpInfo) (imm : Nat) : Nat :=
  match o.order with | some lo => imm / 2 ^ lo % 16 | none => 0

/-- The first four checks of R194: opcode, mod, rnd and scope codes, predicate mode. -/
def slotHead (op : Nat) (f : FabWord) : Option SlotError :=
  let mod := f.mod.toNat
  let pm := f.pm.toNat
  let imm := f.imm.toNat
  match opInfo op with
  | none => some .opcode
  | some o =>
    if o.mods / 2 ^ mod % 2 = 0 then some .mod
    else if usesRnd o mod && imm / 2 ^ 27 > 4 then some .rnd
    else if (op == 0x7E || op == 0x7F) && imm / 2 ^ 27 > 6 then some .scope
    else if o.pms / 2 ^ pm % 2 = 0 || (pm == 3 && (o.order.isNone || orderCount o imm == 0)) then some .predicate
    else none

/-- Does a target name an index from 208 to 255 (R194)? -/
def targetHigh (t : BitVec 10) : Bool := decide (t.toNat % 256 ≥ 208)

/-- The checks of the targets that a word fails by itself: an index of no unit, then a position that cannot stand with its index or a
target of an output that sends nothing. -/
def slotTargets (op : Nat) (f : FabWord) : Option SlotError :=
  if targetHigh f.t0 || targetHigh f.t1 then some .targetIndex
  else if !(targetOk f.t0 && targetOk f.t1) then some .targetPosition
  else if (kindOut0 op f.imm.toNat == .none && f.t0 != 0) || (kindOut1 op f.imm.toNat == .none && f.t1 != 0) then some .targetPosition
  else none

/-- The last check of R194, a reserved bit, and then the opcode's own checks beside R194. -/
def slotTail (op : Nat) (f : FabWord) : Option SlotError :=
  match opInfo op with
  | none => none
  | some o =>
    if f.imm.toNat &&& immAllowed o f.mod.toNat f.pm.toNat != f.imm.toNat then some .reserved
    else if !opOk op f.mod.toNat f.imm.toNat then some .operand
    else none

/-- The first check of R194 that a slot word fails by itself, none when it passes them all. -/
def slotError (op : Nat) (f : FabWord) : Option SlotError :=
  match slotHead op f with
  | some e => some e
  | none => match slotTargets op f with
    | some e => some e
    | none => slotTail op f

end Sys2Proof.Machine
end

