-- ==== Sys2Proof/Machine/Tbl.lean ====
section
/-! DEFINITION. Sparse tables: a list of (index, value) pairs, sorted by index. An index that is not listed holds the
table's default, which the reader names. Every register file, memory and unit table of the model is one of these. -/

namespace Sys2Proof.Machine

/-- A sparse table from indexes to values. -/
abbrev Tbl (α : Type) := List (Nat × α)

/-- The value at index i, or the default d. -/
def Tbl.get {α : Type} (d : α) : Tbl α → Nat → α
  | [], _ => d
  | (k, v) :: r, i => if k = i then v else Tbl.get d r i

/-- The value at index i, if one is listed. -/
def Tbl.find {α : Type} : Tbl α → Nat → Option α
  | [], _ => none
  | (k, v) :: r, i => if k = i then some v else Tbl.find r i

/-- Write v at index i, keeping the indexes in rising order. -/
def Tbl.put {α : Type} : Tbl α → Nat → α → Tbl α
  | [], i, v => [(i, v)]
  | (k, w) :: r, i, v =>
    if i < k then (i, v) :: (k, w) :: r
    else if i = k then (i, v) :: r
    else (k, w) :: Tbl.put r i v

/-- Drop index i. -/
def Tbl.del {α : Type} (t : Tbl α) (i : Nat) : Tbl α := t.filter (fun p => p.1 != i)

/-- Rewrite the value at index i. -/
def Tbl.upd {α : Type} (d : α) (t : Tbl α) (i : Nat) (f : α → α) : Tbl α := t.put i (f (t.get d i))

/-- Rewrite every listed value. -/
def Tbl.mapAll {α : Type} (f : Nat → α → α) (t : Tbl α) : Tbl α := t.map (fun p => (p.1, f p.1 p.2))

/-- Indexes rise strictly. -/
def Tbl.sorted {α : Type} : Tbl α → Bool
  | [] => true
  | [_] => true
  | a :: b :: r => a.1 < b.1 && Tbl.sorted (b :: r)

end Sys2Proof.Machine
end

