-- ==== Sys2Proof/Machine/TileState.lean ====
section
/-! DEFINITION. What a tile holds: the sequencer (R134, R138, R160), the eight contexts (R187, R205), the round in hand
(R203 to R210), the stream ports (R300 to R303), the store buffer (R18) and the named barriers (R169). -/

namespace Sys2Proof.Machine

/-! ### Addresses -/

/-- Who performs the accesses to a byte (R65). -/
inductive Home
  /-- Stack SRAM or LPDDR of a die of this package. -/
  | die (d : Nat)
  /-- A die of another package, the host or the pool. -/
  | outside
  /-- The tile's own private memory or its cluster's scratchpad. -/
  | near
deriving DecidableEq, Repr

/-- One naturally aligned piece of an access (R77, R78): its first key in memory, its size, its home; under a leaf with dup = 1, log2 of
the page size, else 0 (R45, R61). -/
structure Piece where
  key : Nat
  size : Nat
  home : Home
  dup : Nat := 0
deriving DecidableEq, Repr

/-- A cached translation (R48): tagged with the full context identifier; page is the LV address above what the entry's own index covers;
span is log2 of the page size; leaf the L0, L1 or L2 entry, or the L3 entry of a host-delegated span with the host's frame in its
place, beside the permissions that the host returned (R47). -/
structure Xlat where
  ctxid : Nat
  page : Nat
  span : Nat
  leaf : Word
  rd : Bool
  wr : Bool
deriving DecidableEq, Repr

/-! ### The sequencer -/

/-- Idle, running, or stopped with a trap pending (R135, R183). -/
inductive Phase | idle | running | stopped
deriving DecidableEq, Repr

/-- A load that has not returned (R160). A returning atomic has already been performed at its home and carries its value
(R164). -/
structure SeqLoad where
  /-- Program order. -/
  no : Nat
  d : Reg
  /-- Pieces still to be read, ascending, and the bytes of those before them (R78, R159). -/
  pieces : List Piece
  got : List Byte
  sgn : Bool
  value : Option Word
  /-- The address, for a record of R399, and the cycle of its request. -/
  addr : Word
  since : Nat
  /-- Retransmissions of an atomic (R399). -/
  retries : Nat
deriving DecidableEq, Repr

/-- One piece of a queued store (R160). -/
structure SeqStore where
  no : Nat
  piece : Piece
  data : List Byte
  addr : Word
deriving DecidableEq, Repr

/-- The sequencer's registers and queues (R134, R138, R160). -/
structure Seq where
  phase : Phase
  /-- Bits [15:2] of pc; the two low bits are always zero (R134). -/
  pc : BitVec 14
  x : Tbl Word
  lk : Word
  /-- Status bit 0: system mode. -/
  mode : Bool
  ctxsel : Nat
  /-- Bits [15:2] of tvec and tepc (R138). -/
  tvec : BitVec 14
  tepc : BitVec 14
  tcause : BitVec 32
  tval : Word
  tscratch : Word
  /-- Program-order number of the next access. -/
  no : Nat
  loads : List SeqLoad
  queue : List SeqStore
  /-- Release fences that earlier stores in the queue or on their way still concern: the number of the next access, and whether the
  scope is wider than the die (R68). -/
  fences : List (Nat × Bool)
  /-- Index of the sequencer task in execution (R253). -/
  task : Option Nat
deriving DecidableEq, Repr

/-- The sequencer after the reset wipe (R135, R403). -/
def Seq.reset : Seq :=
  { phase := .idle, pc := 0, x := [], lk := 0, mode := false, ctxsel := 0, tvec := 0, tepc := 0, tcause := 0, tval := 0,
    tscratch := 0, no := 0, loads := [], queue := [], fences := [], task := none }

/-! ### Contexts -/

/-- What a configuration stream loads into a context as one unit (R211): slot words, fields 8 to 10 of each element keyed
element × 4 + field − 8 (R205), header parts (R125). -/
structure Block where
  slots : Tbl Word
  fields : Tbl (BitVec 16)
  header : Tbl (BitVec 16)
deriving DecidableEq, Repr

/-- No block. -/
def Block.empty : Block := { slots := [], fields := [], header := [] }

/-- Who started a run (R175, R253). -/
inductive Starter | sequencer | task (index : Nat)
deriving DecidableEq, Repr

/-- A run of rounds (R175, R210): the count asked, 0 for none; rounds committed; the rounds that its end has been decided. -/
structure Run where
  asked : Nat
  done : Nat
  by_ : Starter
  /-- Of a run of the sequencer: its stores below this number stand before a release fence that precedes the run (R235). -/
  below : Nat
deriving DecidableEq, Repr

/-- Why a context waits after a void (R269). -/
inductive StopWhy
  /-- A PRI answer is awaited for this page (R62); slot, port and source of the fault's record (R282), and its address. -/
  | pri (page slot port source : Nat) (addr : Word)
  /-- Stopped until a resume: the cause of its record; a bound trap names the slots that skip the next check (R338). -/
  | cause (code : Nat) (unchecked : List Nat)
deriving DecidableEq, Repr

/-- A context of a tile. -/
structure Ctx where
  ctxid : BitVec 24
  fstat : Flags
  tbase : Word
  pasid : BitVec 20
  hotbase : Word
  hotlen : BitVec 32
  hotnext : BitVec 32
  hotovr : BitVec 32
  block : Block
  staged : Option Block
  /-- Stall reason and count of each slot (R30). -/
  stall : Tbl (Nat × Nat)
  /-- Stochastic state of each element after the last committed round (R107). -/
  sto : Tbl Word
  /-- rseed was written, or nothing ran, since the state was loaded (R107, R139). -/
  fresh : Bool
  run : Option Run
  stopped : Option StopWhy
  /-- Escalation steps of each mma node in the run in hand (R336). -/
  steps : Tbl Nat
  /-- Slots whose threshold check the next replay leaves out (R338). -/
  unchecked : List Nat
  /-- Rounds committed since configuration in which a gang node fired (R324). -/
  gangs : Nat
deriving DecidableEq, Repr

/-- A context after the wipe: every register 0 (R135, R403). -/
def Ctx.reset : Ctx :=
  { ctxid := 0, fstat := 0, tbase := 0, pasid := 0, hotbase := 0, hotlen := 0, hotnext := 0, hotovr := 0,
    block := Block.empty, staged := none, stall := [], sto := [], fresh := true, run := none, stopped := none, steps := [],
    unchecked := [], gangs := 0 }

/-! ### The round in hand -/

/-- A token (R195): its kind, stop level, null mark, payload; deps are the held stores of the round from whose output it
derives (R66), by their place in the round. -/
structure Tok where
  kind : Kind
  level : Nat
  null : Bool
  bits : Vec
  deps : List Nat
deriving DecidableEq, Repr

/-- A token between its slot and its target (R198): which output sent it, where it goes, and where it stands. -/
structure Transit where
  src : Nat
  out : Nat
  /-- Target slot and position, on this page or, of an exported token, on another (R201). -/
  index : Nat
  pos : Nat
  page : Option Nat
  tok : Tok
  /-- The element whose switch box holds it, and the input it stands in: 0 to 3 from the left, right, upper and lower box, 4 and 5 the
  injection points of the sub-slots (R188), 6 a stream port's (R200), 7 the seam port's (R202). -/
  box : Nat
  way : Nat
  /-- Cycles in which it was injected, and in which it came to where it stands. -/
  born : Nat
  since : Nat
deriving DecidableEq, Repr

/-- A held store or atomic of the round (R18, R79, R237), or one of the store buffer's draining half. -/
structure Held where
  slot : Nat
  /-- LV, stream or scratchpad address. -/
  addr : Word
  /-- Translated pieces; none for a stream address, which is decided at drain (R236). -/
  pieces : List Piece
  data : List Byte
  /-- Atomic operation code of R163's numbering and scope, for amo and amos. -/
  amo : Option (Nat × Nat)
  signed : Bool
  ctx : Nat
  /-- Number of its round on the tile (R67), and its place among the held stores of the round. -/
  no : Nat
  place : Nat
  /-- Its run was started by the sequencer (R22). -/
  bySeq : Bool
  /-- Cycle since which it has been blocked at the window (R292, R295). -/
  blocked : Option Nat
  /-- Retransmissions after reqtmo (R399). -/
  retries : Nat
deriving DecidableEq, Repr

/-- An outstanding fabric load (R235). -/
structure FabLoad where
  slot : Nat
  addr : Word
  /-- Pieces still to be read, ascending, and the bytes of those before them (R78). -/
  pieces : List Piece
  got : List Byte
  size : Nat
  /-- Cycle since which it has been blocked ahead of HWM (R236, R290). -/
  blocked : Option Nat
  deps : List Nat
  /-- Cycle of its request (R399). -/
  since : Nat
  /-- Once it has read the store buffer: the places of the stores of its round that it sees without an edge (R235). -/
  saw : Option (List Nat)
deriving DecidableEq, Repr

/-- The state of a slot within a round: the running value (R222), sgate's token and scount's n (R232), wjoin's lanes
(R239), wsplit's pieces (R238), rpt's buffer (R240), mma panels (R315), accrd's progress (R321). -/
structure SlotSt where
  /-- Running value, one entry per lane as encoded in the widened range: sign, numerator, denominator, kind. -/
  acc : List (Bool × Nat × Nat × Nat)
  held : Option Tok
  n : Nat
  toks : List Tok
  toksR : List Tok
  nul : Bool
  /-- rpt: level of the terminator once the fill has ended. -/
  term : Option Nat
  /-- rpt, wsplit and accrd: tokens sent of the pass in hand; passes sent. -/
  sent : Nat
  passes : Nat
  /-- Tokens of an accrd still to leave, and the value tokens of a mma close. -/
  out : List Tok
  active : Bool
  deps : List Nat
deriving DecidableEq, Repr

/-- Cleared at every round start (R203). -/
def SlotSt.reset : SlotSt :=
  { acc := [], held := none, n := 0, toks := [], toksR := [], nul := false, term := none, sent := 0, passes := 0, out := [],
    active := false, deps := [] }

/-- A token at a seam port (R202): the context it is for, its target. -/
structure SeamTok where
  ctx : Nat
  index : Nat
  pos : Nat
  tok : Tok
  /-- Source page, slot and output: their order is kept (R197). -/
  src : Nat
deriving DecidableEq, Repr

/-- An exported token of the round in hand (R202). -/
structure Export where
  page : Nat
  tok : SeamTok
deriving DecidableEq, Repr

/-- The bound settings of a bank (R331): ea, eb, thr, rel, lim, obnd. -/
structure BndSet where
  ea : BitVec 16
  eb : BitVec 16
  thr : BitVec 16
  rel : Bool
  lim : Nat
  obnd : BitVec 16
deriving DecidableEq, Repr

/-- At placement (R331). -/
def BndSet.reset : BndSet := { ea := 0, eb := 0, thr := 0xFFFF, rel := false, lim := 2, obnd := 0 }

/-- The round in hand of a tile (R17, R203). -/
structure Round where
  ctx : Nat
  /-- Count of rounds of the tile since configuration, for gangs (R324). -/
  no : Nat
  /-- Latches, keyed slot × 4 + position (R187). -/
  latch : Tbl Tok
  order : Tbl Nat
  orderDeps : Tbl (List Nat)
  /-- Slots whose order tokens include a null (R243). -/
  orderNul : List Nat
  /-- Counted slots that fired or counted as done (R199). -/
  fired : List Nat
  slotSt : Tbl SlotSt
  transit : List Transit
  /-- g and v write slots reached: the value held, or none where nullified or stopped (R206). -/
  gw : Tbl (Option Word)
  vw : Tbl (Option Vec)
  stores : List Held
  bars : List Nat
  /-- Slots that have had a turn in the cycle in hand, and so are not stalled in it (R30). -/
  acted : List Nat
  flags : Flags
  exports : List Export
  /-- Seam tokens consumed (R202). -/
  seamTaken : List SeamTok
  loads : List FabLoad
  /-- Stochastic state now and at the start, for each element (R107). -/
  sto : Tbl Word
  stoStart : Tbl Word
  freshStart : Bool
  /-- A data exit with end, or a stop of the level an exit names, was received (R210). -/
  ends : Bool
  /-- Bound settings of the banks at round start (R336). -/
  settings : List BndSet
  /-- A gang node of the round has fired, or has been sent a panel: the round is one of a set (R324). -/
  ganged : Bool
deriving DecidableEq, Repr

/-! ### Stream ports -/

/-- A port program (R300). -/
structure PortProg where
  base : Word
  spad : Bool
  write : Bool
  ctx : Nat
  slot : Nat
  pos : Nat
  esz : Nat
  psz : Nat
  nlev : Nat
  stops : Bool
  rdr : Nat
  rel : Bool
  pub : Bool
  rlv : Nat
  n : List Nat
  s : List Word
deriving DecidableEq, Repr

/-- A write a port holds (R302), with the number of its round on the tile, the places of the held stores of the round that it is
edge-ordered after (R66), and, of an LV address, the translation of its window (R50). -/
structure PortWrite where
  addr : Word
  data : List Byte
  c : Nat
  no : Nat
  deps : List Nat
  xlat : Option Xlat
deriving DecidableEq, Repr

/-- What a void restores (R267, R268). -/
structure PortPos where
  /-- Iterations performed. -/
  c : Nat
  /-- Iterations whose access has been issued. -/
  issued : Nat
  toks : List Tok
  shareClosed : Bool
  /-- The offset after the last element delivered, and the cursor of the port's reader (R267). -/
  read : Option Nat
  mark : Option Nat
deriving DecidableEq, Repr

/-- A stream port. -/
structure Port where
  prog : Option PortProg
  /-- Loaded by this sequencer's sp.cfg (R22). -/
  bySeq : Bool
  /-- Iterations completed (R267), and accesses issued. -/
  c : Nat
  issued : Nat
  /-- Tokens fetched and not delivered, in order (R57). -/
  toks : List Tok
  /-- Writes of the round in hand, and of committed rounds (R302). -/
  buf : List PortWrite
  committed : List PortWrite
  /-- Position recorded at round start. -/
  saved : PortPos
  /-- The round's share has been delivered (R307). -/
  shareClosed : Bool
  /-- A fault held against the window of its address until an access of a round falls there (R50), or, of a write, for the next round of
  the context (R303): cause, address, page of a request. -/
  fault : Option (Nat × Word × Option Nat)
  /-- Implicit HWM advances due, oldest first (R302): the iterations that must have been written before it, the number of its round. -/
  pubDue : List (Nat × Nat)
  /-- Of a port that reads a stream: the offset after the last element delivered (R302). -/
  read : Option Nat
  /-- The offset after the last byte written. -/
  cursor : Word
  /-- Cycle since which the oldest access has been blocked by R290, or the head write by R292. -/
  hwmBlocked : Option Nat
  winBlocked : Option Nat
  hwmblk : Nat
  winblk : Nat
  /-- Hotness (R58): delivered, starved, the current window's page. -/
  delivered : Nat
  starved : Nat
  page : Option Nat
  tlb : List Xlat
  /-- The page window that it translated last, and its translation (R50). -/
  window : Option (Nat × Xlat)
  /-- Lent to an estimating session (R377). -/
  loan : Bool
  /-- Cycle since which the next access of a read port has been outstanding (R399). -/
  since : Option Nat
deriving DecidableEq, Repr

/-- A port without a program. -/
def Port.reset : Port :=
  { prog := none, bySeq := false, c := 0, issued := 0, toks := [], buf := [], committed := [],
    saved := { c := 0, issued := 0, toks := [], shareClosed := false, read := none, mark := none }, shareClosed := false, fault := none,
    pubDue := [], read := none, cursor := 0, hwmBlocked := none, winBlocked := none, hwmblk := 0, winblk := 0, delivered := 0, starved := 0, page := none,
    tlb := [], window := none, loan := false, since := none }

/-! ### The tile -/

/-- A named barrier (R169). -/
structure Bar where
  phase : Bool
  bytes : Bool
  count : Nat
  target : Nat
  /-- Cycle of the last flip of its phase: it flips at most once in a cycle. -/
  flipped : Option Nat
deriving DecidableEq, Repr

/-- After placement every field is zero (R169). -/
def Bar.reset : Bar := { phase := false, bytes := false, count := 0, target := 0, flipped := none }

/-- A tile. -/
structure Tile where
  /-- The launch whose page it holds, by its context index, and the page (R260). -/
  launch : Option Nat
  page : Nat
  /-- Clocks gated by a preempt (R273); stopped by a hardware error (R284). -/
  gated : Bool
  dead : Bool
  seq : Seq
  rseed : Word
  g : Tbl Word
  v : Tbl Vec
  bars : Tbl Bar
  barDrops : Nat
  /-- Bytes written by copy receivers that count at a barrier from a cycle on: cycle, barrier, bytes (R356). -/
  counts : List (Nat × Nat × Nat)
  /-- Loads reported as lost whose replies may still come (R399). -/
  lostLoads : Nat
  ctxs : Tbl Ctx
  round : Option Round
  /-- Context of the last round, for turns (R175), and rounds started since configuration (R324). -/
  last : Nat
  rounds : Nat
  /-- The draining half of the store buffer (R18). -/
  drain : List Held
  /-- Barrier arrivals of committed rounds whose writes are not all performed, with the number of the round (R72, R207). -/
  arrivals : List (Nat × Nat)
  seam : List SeamTok
  ports : Tbl Port
  tlb : List Xlat
  /-- For each network, box and output, the input that is served next (R198). -/
  robin : Tbl Nat
deriving DecidableEq, Repr

/-- A tile after the wipe (R403). -/
def Tile.reset : Tile :=
  { launch := none, page := 0, gated := false, dead := false, seq := Seq.reset, rseed := 0, g := [], v := [], bars := [],
    barDrops := 0, counts := [], lostLoads := 0, ctxs := [], round := none, last := 0, rounds := 0, drain := [], arrivals := [], seam := [], ports := [], tlb := [], robin := [] }

end Sys2Proof.Machine
end

