-- ==== Sys2Proof/Machine/ClusterState.lean ====
section
/-! DEFINITION. What a cluster holds beside its tiles: tag table (R54), events and timelines (R170 to R172, R247), task
table (R248), command chains (R180, R247), event queues (R173) and the state of the four engines. -/

namespace Sys2Proof.Machine

/-- A task table entry with its three hidden fields (R248). image is the 128-byte entry as a number. -/
structure Task where
  image : BitVec 1024
  running : Bool
  count : Nat
  age : Nat
  /-- The one completion of a one-shot entry has been made (R250). -/
  done : Bool
  /-- It was ready as the cycle in hand began, and has not been dispatched in it: the cycle counts in its age (R251). -/
  lost : Bool
deriving DecidableEq, Repr

/-- An invalid entry. -/
def Task.reset : Task := { image := 0, running := false, count := 0, age := 0, done := false, lost := false }

/-- A request of cp.amo or cp.enq at its sender (R361, R363). -/
structure Remote where
  tag : Nat
  sent : Nat
  retries : Nat
  /-- Held because the next tag is outstanding or ended too recently; or refused and waiting for rint. -/
  held : Bool
  refused : Bool
  /-- When the request or its last retransmission left, or the refusal arrived. -/
  since : Nat
  /-- Where it goes: die of this package, or another endpoint. -/
  die : Option Nat
  endpoint : Nat
  addr : Word
  key : Nat
  size : Nat
  /-- log2 of the size of the duplicated page that it lies in, 0 where none does (R61). -/
  dup : Nat
  /-- cp.amo: operation, operand, compare value, result offset; cp.enq: handle, wait option, payload. -/
  op : Nat
  t : Word
  c : Word
  res : Nat
  handle : Nat
  wait : Bool
  data : List Byte
  /-- Redirected out of the package by the old home, so that the reply carries a new-home hint (R60). -/
  moved : Bool
deriving DecidableEq, Repr

/-- A group multicast at its sender (R359). -/
structure Grp where
  since : Nat
  /-- Endpoints still to acknowledge, acknowledgements counted, failures with their reason. -/
  waiting : List Nat
  ok : Nat
  failed : List (Nat × Nat)
deriving DecidableEq, Repr

/-- How far a started command has come. -/
inductive Stage
  /-- Started; so many bytes of its copy have been performed. -/
  | begun (bytes : Nat)
  /-- Stopped by a fault of the slate lane: cause, address, bytes performed (R352). -/
  | faulted (cause : Nat) (addr : Word) (bytes : Nat)
  | remote (r : Remote)
  | grp (g : Grp)
  /-- Waits for the partners of a reduction (R373). -/
  | partners
  /-- red.est with its descriptor: waits to join a session, or takes part in one (R377). -/
  | session (desc : List Byte)
  /-- Ended: status and the 64 bytes of its record. -/
  | ended (status : Nat) (record : List Byte)
deriving DecidableEq, Repr

/-- A started command of a chain (R180). -/
structure Cmd where
  seq : Nat
  eng : Nat
  cmd : Nat
  flags : Nat
  mode : Bool
  a : Word
  b : Word
  /-- Program-order number of the issue, for the acquire flag (R71). -/
  before : Nat
  /-- Index of the cmd task that appended it. -/
  task : Option Nat
  stage : Stage
  /-- Cycle at which it was started. -/
  at_ : Nat
  /-- Its accesses that are blocked at a stream's marks (R290, R292), keyed by granule: handle, since, writing. -/
  blocked : Tbl (Nat × Nat × Bool)
  /-- Told "migrating", it goes on from this cycle (R60). -/
  retryAt : Nat
  /-- The accumulator banks of a copy, a bit each, from its start to its last access (R354). -/
  banks : Nat
  /-- Flags of its accumulator reads so far (R354). -/
  accFlags : BitVec 6
  /-- Its descriptor, read once (R349); of a cp.grp, the group table as it started (R368). -/
  desc : Option (List Byte)
  groups : Tbl (BitVec 1024)
  /-- Clock of its die as it started (R71). -/
  clock : List Nat
  /-- The granules of its source that have been read, and those that have been written, by receiver × 2^32 + granule (R77, R356). -/
  src : Tbl (List Byte)
  fin : List Nat
  /-- Cycle at which an access of it was performed last (R399). -/
  since : Nat
  /-- Its completion ends the launch (R382). -/
  ends : Bool
deriving DecidableEq, Repr

/-- A command chain (R180, R247): ring indexes, the next sequence number, started commands, whether a fault stopped it. -/
structure Chain where
  head : Nat
  tail : Nat
  next : Nat
  /-- Sequence number of the command at the head. -/
  first : Nat
  /-- Issue order number and task of each entry between head and tail, keyed by ring index. -/
  notes : Tbl (Nat × Option Nat)
  started : List Cmd
  /-- Sequence numbers ended whose predecessors are not all ended. -/
  finished : List Nat
  /-- Every command up to here has completed. -/
  upTo : Nat
  stopped : Bool
  /-- Records of completed commands that found the tile's event queue full, oldest first (R173). -/
  held : List (List Byte)
deriving DecidableEq, Repr

/-- After placement: empty, the counter at 1 (R180). -/
def Chain.reset : Chain :=
  { head := 0, tail := 0, next := 1, first := 1, notes := [], started := [], finished := [], upTo := 0, stopped := false, held := [] }

/-! ### The matrix engine -/

/-- The tag of a bank (R313). -/
inductive Tag | empty | open_ | complete
deriving DecidableEq, Repr

/-- The node that owns a tile: tile in cluster, context, slot. -/
structure Node where
  tile : Nat
  ctx : Nat
  slot : Nat
deriving DecidableEq, Repr

/-- A bank (R312, R313, R331). words holds the encodings in the widened range, keyed by element index of the bank. -/
structure Bank where
  tag : Tag
  first : Nat
  width : Nat
  m : Nat
  n : Nat
  owner : Node
  /-- Round number of the tile in which the group was opened (R318). -/
  round : Nat
  /-- The group has been closed and completes after its last accepted k-step (R317). -/
  closing : Bool
  /-- A keep = 0 readout of an earlier round's tile empties it at the reading round's commit (R321). -/
  readOut : Bool
  acc : Tbl (Bool × Nat × Nat × Nat)
  bnd : BitVec 16
  mx : BitVec 16
  set : BndSet
  /-- Held stores of its round from which its tile derives (R66); the number of the claim, by which a readout knows its tile again (R321). -/
  deps : List Nat
  claims : Nat
  /-- Cycle of the last change of its tag: what is judged on tags takes those at the start of the cycle (R316, R322). -/
  since : Option Nat
deriving DecidableEq, Repr

/-- After placement (R313, R331). -/
def Bank.reset : Bank :=
  { tag := .empty, first := 0, width := 0, m := 64, n := 64, owner := { tile := 0, ctx := 0, slot := 0 }, round := 0,
    closing := false, readOut := false, acc := [], bnd := 0, mx := 0, set := BndSet.reset, deps := [], claims := 0, since := none }

/-- A fired k-step (R316): its node, panels, and the settings captured at acceptance (R332). -/
structure Kstep where
  node : Node
  round : Nat
  imm : Nat
  amod : Nat
  width : Nat
  a : List Nat
  b : List Nat
  accepted : Bool
  /-- Its round's run was started by the sequencer (R176). -/
  bySeq : Bool
  fired : Nat
  /-- The engine performs it: it ends at the cycle that busyUntil names (R329). -/
  started : Bool
  set : BndSet
  /-- The next check of its node is not left out by R338. -/
  check : Bool
deriving DecidableEq, Repr

/-- A gathering group (R320): its node, the row addresses, k-steps gathered, the 64-byte pieces read, by piece number, what the row
addresses derive from (R66). -/
structure Gather where
  node : Node
  rows : List Word
  steps : Nat
  cache : Tbl (List Byte)
  deps : List Nat
deriving DecidableEq, Repr

/-- The matrix engine of a cluster (R310 to R330). -/
structure Matrix where
  slotMode : Bool
  table : List (BitVec 32)
  newTable : Option (List (BitVec 32))
  entry : Nat
  /-- Cycles left in the entry, and whether it has just begun. -/
  left : Nat
  begun : Bool
  banks : Tbl Bank
  queue : List Kstep
  /-- The engine is free again at this cycle. -/
  busyUntil : Nat
  current : Option Node
  waits : List (Node × Nat)
  performed : Nat
  idle : Nat
  escalations : Nat
  traps : Nat
  gathers : List Gather
deriving DecidableEq, Repr

/-- After placement, before R265 sets the mode. -/
def Matrix.reset : Matrix :=
  { slotMode := false, table := [], newTable := none, entry := 0, left := 0, begun := true, banks := [], queue := [],
    busyUntil := 0, current := none, waits := [], performed := 0, idle := 0, escalations := 0, traps := 0, gathers := [] }

/-! ### The cluster -/

/-- A cluster. -/
structure Cluster where
  /-- The launch it serves, by context index, and its consist position (R246). -/
  launch : Option Nat
  pos : Nat
  /-- A final task completed: nothing more dispatches (R256). -/
  final : Bool
  tags : Tbl Word
  events : Tbl Bool
  tl : Tbl Word
  tasks : Tbl Task
  /-- Keyed engine × 4 + tile. -/
  chains : Tbl Chain
  /-- Records queued for each tile (R173). -/
  evq : Tbl (List (List Byte))
  /-- Which tile each engine looks at next (R258, R350). -/
  turn : Tbl Nat
  rtmo : Nat
  rmax : Nat
  rint : Nat
  tlb : List Xlat
  mx : Matrix
  /-- The router is powered down; it has been idle for so many cycles (R400). -/
  routerDown : Bool
  /-- The cycle since which its router has been idle. -/
  routerSince : Nat
deriving DecidableEq, Repr

/-- After the wipe; the three retry registers at their defaults (R353). -/
def Cluster.reset : Cluster :=
  { launch := none, pos := 0, final := false, tags := [], events := [], tl := [], tasks := [], chains := [], evq := [],
    turn := [], rtmo := 4096, rmax := 7, rint := 1024, tlb := [], mx := Matrix.reset, routerDown := false, routerSince := 0 }

end Sys2Proof.Machine
end

