-- ==== Sys2Proof/Machine/DieState.lean ====
section
/-! DEFINITION. What a die and the package hold: launches and their streams (R26, R260, R287, R288), records and lanes
(R280 to R282), requests between dies (R75), tables of the copy engine at receivers and targets (R357, R361, R304),
links (R387 to R392), boot and life cycle (R402, R403), telemetry (R406). -/

namespace Sys2Proof.Machine

/-! ### Streams -/

/-- A reader slot of a stream (R287, R288). -/
structure Reader where
  live : Bool
  cursor : Nat
  release : Nat
deriving DecidableEq, Repr

/-- An outstanding reservation (R296). -/
structure Resv where
  start : Nat
  size : Nat
  published : Bool
deriving DecidableEq, Repr

/-- A stream of a launch, at its home translator (R287, R288, R293, R295). -/
structure Stream where
  lfr : Nat
  spill : Bool
  scope : Nat
  tier : Nat
  frames : Nat
  limit : Nat
  delay : Nat
  hwm : Nat
  rsv : Nat
  /-- Keyed by reader slot; a slot that is not declared is not listed. -/
  readers : Tbl Reader
  extent : Nat
  resvs : List Resv
  /-- Backing of each frame number held: physical frame index; indexes from W on are spill frames (R293). -/
  backing : Tbl Nat
  /-- Where the primary frames stand in a pool of its home die (R293): ranges, each with the key of its first frame and its frames. -/
  base : List (Nat × Nat)
  /-- Furthest byte written. -/
  furthest : Nat
  /-- Clock of the writes before its mark changes (R73, R75). -/
  clock : List Nat
  refused : Nat
  queue : Option Nat
deriving DecidableEq, Repr

/-! ### Launches -/

/-- The phase of a launch (R26, R256, R273, R275). -/
inductive LPhase | queued | placed | configuring | waved | running | ending | readOut
deriving DecidableEq, Repr

/-- The state of a configuration stream in delivery (R123, R124, R126). -/
structure Cfg where
  /-- Page whose stream is being delivered, words left of it. -/
  page : Nat
  words : List (BitVec 32)
  index : Nat
  selected : Option Nat
  header : Option Nat
  left : Nat
  sum : Nat
  /-- Pages that had a header, and contexts written or selected, as page × 8 + context. -/
  headers : List Nat
  touched : List Nat
  done : Bool
  rejected : Bool
  /-- Delivered by cfgs of this tile (R177). -/
  by_ : Option Nat
  /-- Reading the stream faulted after the words read (R177): cause, address, page of a request. -/
  fault : Option (Nat × Word × Option Nat)
deriving DecidableEq, Repr

/-- No stream in delivery. -/
def Cfg.reset : Cfg :=
  { page := 0, words := [], index := 0, selected := none, header := none, left := 0, sum := 0, headers := [], touched := [],
    done := false, rejected := false, by_ := none, fault := none }

/-- A seed token (R132): page, port, type code, value. -/
structure Seed where
  page : Nat
  port : Nat
  type : Nat
  value : Word
deriving DecidableEq, Repr

/-- A participant of an estimating session (R377 to R380). -/
structure Member where
  tile : Nat
  ctx : Nat
  feed : Nat
  take : Nat
  fslot : Nat
  fpos : Nat
  vt : Nat
  /-- Chunks claimed and unmerged, as (first, end); the first is the one in delivery. -/
  chunks : List (Nat × Nat)
  /-- Statistics of committed chunks on their way to the root: count, mean, M2, flags. -/
  sums : List (Nat × Nat × Nat × Nat)
  /-- It has learnt of the stop or of the exhausted budget (R386); it has been sent its level-2 stop (R379). -/
  knows : Bool
  level2 : Bool
  items : Nat
  /-- Its command: issuing tile, sequence number; whether it has completed. -/
  from_ : Nat
  cmd : Nat
  gone : Bool
  /-- Claims of it that have reached the root, which serves them as the cycle ends (R378, R386). -/
  owed : Nat
  /-- Cycle since which its oldest statistics are on their way (R399). -/
  sent : Nat
  /-- The round with its level-2 stop has committed; its loan has ended (R377). -/
  closed : Bool
  done : Bool
deriving DecidableEq, Repr

/-- An estimating session (R375 to R383). Participants are keyed by consist position; those of earlier sessions whose loan has
not ended, by position plus a multiple of 16. -/
structure Session where
  /-- Bytes 0 to 36 of the root's descriptor (R376). -/
  params : List Byte
  seed : Word
  z : Nat
  tol : Nat
  total : Nat
  nmin : Nat
  nmax : Nat
  csz : Nat
  fin : Bool
  c : Nat
  n : Nat
  mean : Nat
  m2 : Nat
  flags : Flags
  stopped : Bool
  failed : Bool
  members : Tbl Member
  ended : Bool
deriving DecidableEq, Repr

/-- A participant of a fabric reduction that waits for its partners (R373). -/
structure RedParty where
  pos : Nat
  tag : Nat
  cluster : Nat
  tile : Nat
  cmd : Nat
  desc : List Byte
deriving DecidableEq, Repr

/-- The save frame of a page (R273, R276): its number, the die cycle at gating (R278), the tile's number, and the tile as it stood, from which
restore takes the parts of a frame whose layout the manual does not give (log entry 24). -/
structure Saved where
  frame : Nat
  cycle : Nat
  tile : Nat
  image : Tile
deriving DecidableEq, Repr

/-- A launch: keyed in the package by its context index (R49). -/
structure Launch where
  ctxid : BitVec 24
  home : Nat
  phase : LPhase
  packet : List Byte
  source : PacketSource
  density : Nat
  pinned : Bool
  wantsSlot : Bool
  /-- The 64-byte descriptor of R132 and the image's place. -/
  pages : Nat
  imageBase : Nat
  imageSpace : Nat
  /-- Tile of each page, and clusters in consist order (R260). -/
  place : List Nat
  consist : List Nat
  cfg : Cfg
  seeds : List Seed
  streams : Tbl Stream
  /-- Status to report at retirement, and whether a hardware error or a kill ended it (R262, R272, R285). -/
  status : Nat
  dead : Bool
  /-- A save frame for each page, from a preempt to its restore; the clusters by consist position, and the phase to go on in. -/
  saved : List Saved
  savedClusters : List Cluster
  resumeTo : LPhase
  session : Option Session
  /-- red.fab commands issued and not ended (R373). -/
  reds : List RedParty
  /-- Cycle of the last progress, and whether the detector has fired since (R306). -/
  progress : Nat
  fired : Bool
  /-- The home die's cycle register at the end of placement (R262). -/
  base : Word
deriving DecidableEq, Repr

/-! ### Records -/

/-- Who writes a record (R282, source codes 0 to 10). -/
structure Rec where
  amber : Bool
  source : Nat
  voided : Bool
  cause : Nat
  ctxid : Nat
  die : Nat
  cluster : Nat
  tile : Nat
  page : Nat
  ctx : Nat
  slot : Nat
  port : Nat
  value : Word
  cycle : Nat
  info : List Word
  /-- Assigned when it takes a slot (R281). -/
  seq : Nat
deriving DecidableEq, Repr

/-- A lane ring (R281). -/
structure Lane where
  lbase : Nat
  llen : Nat
  lwr : Nat
  lrd : Nat
deriving DecidableEq, Repr

/-! ### Requests between dies -/

/-- Which write of a committed round a request carries: the round's number on the tile (R67), the place of the held store in the round or
the port that wrote it, context and slot, and whether the sequencer started its run (R22, R176). -/
structure RoundWrite where
  no : Nat
  place : Nat
  port : Option Nat
  ctx : Nat
  slot : Nat
  bySeq : Bool
deriving DecidableEq, Repr

/-- A store, atomic or duplicated-page write on its way to a home on another die (R61, R75). -/
structure Req where
  id : Nat
  src : Nat
  home : Nat
  clock : List Nat
  no : Nat
  /-- Tile that made it; of a write of a committed round, which one. -/
  tile : Nat
  round : Option RoundWrite
  piece : Piece
  data : List Byte
  /-- The operation of a fabric atomic, whose operand is its data (R237). -/
  amo : Option Nat
  /-- Sequence number of the copy command that made it (R399). -/
  cmd : Option Nat
  addr : Word
  since : Nat
  retries : Nat
  /-- Write-pending on a duplicated page: holders that have not acknowledged, and those that dropped (R61). -/
  holders : List Nat
  dropped : List Nat
deriving DecidableEq, Repr

/-- A duplicated page (R61): its context, page number, key of the home copy, keys of the copies by die. -/
structure Dup where
  ctxid : Nat
  page : Nat
  homeKey : Nat
  copies : Tbl Nat
  /-- Dies whose copy has been dropped: they read the home copy. -/
  dropped : List Nat
deriving DecidableEq, Repr

/-- A forward table entry (R60). -/
inductive Fwd | migrating | to (home : Nat)
deriving DecidableEq, Repr

/-- A reply cache entry (R361). -/
structure Reply1 where
  endpoint : Nat
  tag : Nat
  status : Nat
  value : Word
  at_ : Nat
deriving DecidableEq, Repr

/-- A queue index (R304). -/
structure Queue where
  /-- Launch and handle of the bound stream. -/
  bound : Option (Nat × Nat)
  gen : Nat
  retired : Bool
  forward : Option Nat
deriving DecidableEq, Repr

/-- An unbound index. -/
def Queue.reset : Queue := { bound := none, gen := 0, retired := false, forward := none }

/-- An ingress table entry (R394). -/
structure Ingress where
  image : BitVec 64
  delivered : Nat
  dropped : Nat
deriving DecidableEq, Repr

/-- An invalid entry. -/
def Ingress.reset : Ingress := { image := 0, delivered := 0, dropped := 0 }

/-- A die-to-die link, on the receiving side and on the sending side (R387 to R389). -/
structure Link where
  up : Bool
  dead : Bool
  expected : Nat
  next : Nat
  /-- Data of the flits sent and not acknowledged, oldest first: the retry buffer (R388). -/
  buf : List (BitVec 256)
  retry : Bool
  discarding : Bool
  retries : Nat
  /-- Place in the retry buffer of the flit to send again next. -/
  resendFrom : Option Nat
  /-- The flit last put on the wire: data, CRC, sideband, and the cycle of it; the data last accepted (R387, R388). -/
  wire : Option (BitVec 256 × BitVec 32 × BitVec 16)
  sentAt : Option Nat
  taken : BitVec 256
  /-- Rerouting (R398): nothing is forwarded; injection across it is paused; the routers' overrides avoid it. -/
  draining : Bool
  paused : Bool
  avoided : Bool
deriving DecidableEq, Repr

/-- Trained at reset, every number at 0 (R387). -/
def Link.reset : Link :=
  { up := true, dead := false, expected := 0, next := 0, buf := [], retry := false, discarding := false, retries := 0,
    resendFrom := none, wire := none, sentAt := none, taken := 0, draining := false, paused := false, avoided := false }

/-- A host's invalidation request (R63): the PASID that it named, the die that it reached, its number. -/
structure AtsReq where
  pasid : Nat
  die : Nat
  no : Nat
deriving DecidableEq, Repr

/-- A range under invalidation (R53): the contexts it names; the host request of R63 that it carries out. -/
structure Inval where
  ctxids : List Nat
  lo : Nat
  len : Nat
  ats : Option AtsReq
deriving DecidableEq, Repr

/-! ### The die -/

/-- A die. -/
structure Die where
  cycleBase : Nat
  compaction : Bool
  /-- Launch packets waiting, oldest first (R26). -/
  queue : List (List Byte × PacketSource)
  busy : Bool
  result : Nat
  spbase : Nat
  spcount : Nat
  framesUsed : List Nat
  rfbase : Nat
  rfsize : Nat
  hfbase : Nat
  hfsize : Nat
  rfTaken : Nat
  hfTaken : Nat
  spillSize : Nat
  dlint : Nat
  ridle : Nat
  scrint : Nat
  reqtmo : Nat
  endpoint : Nat
  /-- Records in slots, in order of seq, and records of sources that found none (R280). -/
  slots : List Rec
  waiting : List Rec
  scrubHeld : Tbl Rec
  seq : Nat
  amber : Lane
  slate : Lane
  invals : List Inval
  pri : List (Nat × Nat)
  stale : Nat
  forwards : Tbl Fwd
  clock : List Nat
  queues : Tbl Queue
  replies : List Reply1
  staleReplies : Nat
  /-- Homes that replies named for queue handles: later enqueues go there directly (R365). -/
  handleHome : Tbl Nat
  nextTag : Nat
  tags : List Nat
  ended : Tbl Nat
  receive : Tbl (BitVec 192)
  pending : Tbl Nat
  ingress : Tbl Ingress
  /-- Held ingress messages of policy hold, by port (R395). -/
  held : Tbl (List Byte)
  links : Tbl Link
  clkcur : Nat
deriving DecidableEq, Repr

/-- An empty ring of 16 entries (R281). DESIGN CHOICE llen 4, log entry 5. -/
def Lane.reset : Lane := { lbase := 0, llen := 4, lwr := 0, lrd := 0 }

/-- A die after the wipe, with the defaults of R266, R399, R400 and R405. -/
def Die.reset : Die :=
  { cycleBase := 0, compaction := false, queue := [], busy := false, result := 0, spbase := 0, spcount := 0, framesUsed := [],
    rfbase := 0, rfsize := 0, hfbase := 0, hfsize := 0, rfTaken := 0, hfTaken := 0, spillSize := 0,
    dlint := 24, ridle := 12, scrint := 34, reqtmo := 65536, endpoint := 0, slots := [], waiting := [], scrubHeld := [],
    seq := 0, amber := Lane.reset, slate := Lane.reset, invals := [], pri := [], stale := 0, forwards := [], clock := [],
    queues := [], replies := [], staleReplies := 0, handleHome := [], nextTag := 0, tags := [], ended := [], receive := [], pending := [],
    ingress := [], held := [], links := [], clkcur := 1050 }

/-! ### The package -/

/-- One direction of a UALink port (R391, R392). -/
structure KeyDir where
  active : BitVec 256
  next : BitVec 256
  nextv : Bool
  stopped : Bool
  count : Nat
deriving DecidableEq, Repr

/-- No key installed. -/
def KeyDir.reset : KeyDir := { active := 0, next := 0, nextv := false, stopped := false, count := 0 }

/-- A message that leaves the package, or an answer to a party outside. -/
inductive Message
  | report (die : Nat) (data : List Byte)
  | ats (die ctxid page : Nat)
  | pri (die ctxid page : Nat)
  | atsDone (die pasid lo len : Nat)
  | ualink (endpoint : Nat) (data : List Byte)
  | amo (endpoint source tag retries age op : Nat) (wide : Bool) (address : Nat) (t c : Word)
  | enq (endpoint source tag retries age handle : Nat) (data : List Byte)
  | grp (package : Nat) (mask : BitVec 1024) (group off total : Nat) (data : List Byte)
  | grpAck (endpoint source group reason : Nat)
  | upliRead (endpoint address bytes : Nat)
  | upliWrite (endpoint address : Nat) (data : List Byte)
  | upliAtomic (endpoint address op bytes t c : Nat)
  | upliData (endpoint status : Nat) (data : List Byte)
  | hostData (data : List Byte)
  | spdm (data signature : List Byte)
  | interrupt (vector : Nat)
  | firmware (what : Nat) (unit : Nat)
deriving DecidableEq, Repr

/-- A UALink port (0 to 15) or Ultra Ethernet port (16 to 19). -/
structure ExtPort where
  down : Bool
  draining : Bool
  transmit : KeyDir
  receive : KeyDir
  /-- Messages that wait in it or behind it, oldest first (R391, R398); the port that its traffic takes after a reroute. -/
  waiting : List Message
  via : Option Nat
deriving DecidableEq, Repr

/-- A port that is up. -/
def ExtPort.reset : ExtPort := { down := false, draining := false, transmit := KeyDir.reset, receive := KeyDir.reset, waiting := [], via := none }

/-- A stream aperture (R305). -/
structure Aperture where
  bind : Word
  err : Nat
deriving DecidableEq, Repr

/-- The life-cycle states (R403). -/
inductive Life | manufacture | provisioned | deployed | returned
deriving DecidableEq, Repr

/-- A cp.grp command's data on its way to one receiver (R358, R359), in messages of up to 256 bytes. -/
structure GrpMsg where
  cluster : Nat
  tile : Nat
  endpoint : Nat
  group : Nat
  off : Nat
  data : List Byte
  /-- Sequence number of the command; the receiver's judgement, 0 for accepted, and the receive entry by which it was made (R360). -/
  seq : Nat
  judged : Option Nat
  entry : BitVec 192
  /-- Granules written so far (R369); the clock of the sender's die; the endpoint of a sender outside the package. -/
  fin : List Nat
  clock : List Nat
  source : Option Nat
deriving DecidableEq, Repr

/-- A cp.amo or cp.enq request in flight (R361): its sender, the die it goes to, what it carries. -/
structure Ask where
  cluster : Nat
  tile : Nat
  die : Nat
  enq : Bool
  req : Remote
  /-- An old home has redirected it (R60). -/
  moved : Bool
deriving DecidableEq, Repr

/-- A reply in flight (R362, R365): status, value, and the new home where the request was redirected (R60). -/
structure Answer where
  cluster : Nat
  tile : Nat
  tag : Nat
  status : Nat
  value : Word
  home : Option Nat
deriving DecidableEq, Repr

/-- Package-wide state. -/
structure Pkg where
  caps : Tbl Word
  bootstat : Nat
  bootlen : Nat
  fwHash : BitVec 256
  keyHash : BitVec 256
  life : Life
  target : Life
  wiping : Bool
  /-- The fused device secret, and the identity key pair, public and private, that it gave (R404). -/
  secret : BitVec 256
  identity : Option (BitVec 256 × BitVec 512)
  keyInstalls : Nat
  groups : Tbl (BitVec 1024)
  ring : Tbl (List Byte)
  ringHead : Nat
  ringTail : Nat
  apertures : Tbl Aperture
  ports : Tbl ExtPort
  flash : Tbl Nat
  counts : Tbl Nat
  tmsel : Word
  lastFlush : Nat
  msix : List Nat
  /-- Is the host driver absent, so that firmware receives its notifications (R397)? -/
  driverAbsent : Bool
  shutDown : Bool
  /-- Generation of every context index (R49). -/
  gens : Tbl Nat
  reqs : List Req
  reqNo : Nat
  /-- Clock of the write that each LV byte holds (R75). -/
  stamps : Tbl (List Nat)
  dups : List Dup
  /-- Host pages that the host's page tables answer as resident, as (ctxid, page) (R47, R62). -/
  resident : List (Nat × Nat)
  /-- Host invalidation requests so far: what ATS answers is fixed between them (R47, R63). -/
  atsNo : Nat
  grps : List GrpMsg
  asks : List Ask
  answers : List Answer
  /-- Requests reported as lost whose replies may still come: number and die (R399). -/
  lost : List (Nat × Nat)
deriving DecidableEq, Repr

end Sys2Proof.Machine
end

