-- ==== Sys2Proof/Machine/Mem.lean ====
section
/-! DEFINITION. Memory as plain data: the listed bytes, in rising order of key, none of them zero. A byte that is not
listed reads 0 (R403 wipes every byte of the package to zero; for memory outside the package see log entry 6). One key
space holds every byte of the machine (R39, R43, R65): a region number times 2^48 plus the offset in the region. -/

namespace Sys2Proof.Machine

/-- Every byte of the machine. -/
abbrev Memory := List Host.Cell

/-- The byte at a key. -/
def Memory.read : Memory → Nat → Byte
  | [], _ => 0
  | (k, b) :: r, i => if k = i then b else Memory.read r i

/-- Put one byte, keeping the canonical form. -/
def Memory.write : Memory → Nat → Byte → Memory
  | [], i, b => if b = 0 then [] else [(i, b)]
  | (k, c) :: r, i, b =>
    if i < k then (if b = 0 then (k, c) :: r else (i, b) :: (k, c) :: r)
    else if i = k then (if b = 0 then r else (i, b) :: r)
    else (k, c) :: Memory.write r i b

/-- Put a list of bytes, in order. -/
def Memory.writes (m : Memory) : List (Nat × Byte) → Memory
  | [] => m
  | (k, b) :: r => Memory.writes (m.write k b) r

/-- The keys rise from a bound on and no byte is zero. -/
def Memory.wfFrom : Nat → Memory → Bool
  | _, [] => true
  | lo, (k, b) :: r => decide (lo ≤ k) && (b != 0) && Memory.wfFrom (k + 1) r

/-- The canonical form: equal memories are equal lists. -/
def Memory.wf (m : Memory) : Bool := Memory.wfFrom 0 m

/-- n bytes from a key on. -/
def Memory.bytes (m : Memory) (k n : Nat) : List Byte := (List.range n).map (fun i => m.read (k + i))

/-- A little-endian number of n bytes (R6). -/
def Memory.nat (m : Memory) (k n : Nat) : Nat := leNat (m.bytes k n)

/-- The writes that put bytes from a key on. -/
def putBytes (k : Nat) (bs : List Byte) : List (Nat × Byte) := bs.mapIdx (fun i b => (k + i, b))

/-- Keep the bytes of keys that satisfy p. -/
def Memory.keep (m : Memory) (p : Nat → Bool) : Memory := m.filter (fun c => p c.1)

/-! ### Regions -/

/-- The key of an offset in a region of a kind (0 to 7) with an index. -/
def regionKey (kind index off : Nat) : Nat := (index * 8 + kind) * 2 ^ 48 + off % 2 ^ 48
/-- Private memory of a tile (R39). -/
def privKey (tile off : Nat) : Nat := regionKey 0 tile off
/-- Scratchpad of a cluster (R39, R54). -/
def spadKey (cluster off : Nat) : Nat := regionKey 1 cluster off
/-- Stack SRAM of a die (R43). -/
def sramKey (die off : Nat) : Nat := regionKey 2 die off
/-- LPDDR of a die (R43). -/
def lpddrKey (die off : Nat) : Nat := regionKey 3 die off
/-- Memory of a die in another package, by domain endpoint (R43, R45). -/
def remoteKey (endpoint : Nat) (lpddr : Bool) (off : Nat) : Nat := regionKey 4 (endpoint * 2 + lpddr.toNat) off
/-- Host memory or the CXL pool (R43). -/
def hostKey (off : Nat) : Nat := regionKey 5 0 off
/-- A physical frame of a stream (R293): by launch, handle and place among the frames of the stream. -/
def frameKey (launch handle off : Nat) : Nat := regionKey 6 (launch * 2 ^ 15 + handle) off

/-- Does a key lie in the package (R403 wipes it)? -/
def keyInside (k : Nat) : Bool := let kind := k / 2 ^ 48 % 8; kind != 4 && kind != 5

end Sys2Proof.Machine
end

