-- ==== Sys2Proof/Machine/State.lean ====
section
/-! DEFINITION. The state of the machine: everything the manual gives the package, and four fields of the model's own
(agenda, focus, marks, outbox; log entry 1). -/

namespace Sys2Proof.Machine

/-- Whose step comes next. The manual leaves the order of concurrent steps open (R31, R96): an agenda is one order. -/
inductive Turn
  /-- A tile's sequencer fetches and executes the instruction at its pc. -/
  | seq (tile : Nat)
  /-- A slot of the round in hand fires, or takes one step of a firing that spans several. -/
  | slot (tile ctx slot : Nat)
  /-- The i-th token in the switch boxes of a tile moves into its target's latch (R198). -/
  | arrive (tile i : Nat)
  /-- The i-th token of a tile's seam port moves into its target's latch (R202). -/
  | seam (tile i : Nat)
  /-- The next command of a launch's configuration stream is delivered (R26 step 3, R177). -/
  | config (launch : Nat)
  /-- A step without an instruction word. -/
  | event (i : Instr)
deriving DecidableEq, Repr

/-- What the step in hand works on: a tile for a sequencer instruction; a tile, context and slot for a fabric
instruction; a launch for a configuration command. The model's own field (log entry 1). -/
structure Focus where
  tile : Nat
  ctx : Nat
  slot : Nat
  launch : Nat
deriving DecidableEq, Repr

/-- The state of the package. -/
structure State where
  /-- Cycles since power-on (R4). -/
  now : Nat
  /-- The turns to come, each with the cycles that pass before it (log entry 1). -/
  agenda : List (Nat × Turn)
  focus : Focus
  /-- For what the manual orders within a cycle, the highest rank taken in the present one (log entry 35). -/
  marks : Tbl Nat
  mem : Memory
  /-- Keyed die × 160 + cluster × 4 + tile (R10). -/
  tiles : Tbl Tile
  /-- Keyed die × 40 + cluster (R10). -/
  clusters : Tbl Cluster
  dies : Tbl Die
  /-- Keyed by context index (R49). -/
  launches : Tbl Launch
  pkg : Pkg
  /-- Messages that left the package, oldest first. -/
  outbox : List Message
deriving DecidableEq, Repr

/-- Why a step stops. -/
inductive Fault
  /-- Raised by a step that names a die, cluster, tile, context, slot, port or link that no package has (R10). Safe: such a
  step is no step of the hardware. -/
  | noSuchUnit
deriving DecidableEq, Repr

/-- Why a step has no meaning. -/
inductive Refusal
  /-- Raised by the dispatcher for an instruction whose meaning is not written. Safe: nothing can be proved of it. -/
  | notModelled (mnemonic : String)
deriving DecidableEq, Repr

/-- The capability registers of a fully enabled PZ24-M of stepping 0 at 1,050 MHz (R407). DESIGN CHOICE, log entry 5. -/
def resetCaps : Tbl Word :=
  [(0, 0x0000000000000024), (1, 0xFFFFFF)] ++ (List.range 24).map (fun d => (2 + d, (0xFFFFFFFFFF : Word))) ++
    [(0x1A, 0xFFFFFFFFFFFF), (0x1B, 0xFFFFF), (0x1C, 1050)]

/-- Package-wide state after reset (R402, R403). -/
def Pkg.reset : Pkg :=
  { caps := resetCaps, bootstat := 0, bootlen := 0, fwHash := 0, keyHash := 0, life := .manufacture, target := .manufacture,
    wiping := false, secret := 0, identity := none, keyInstalls := 0, groups := [], ring := [], ringHead := 0, ringTail := 0,
    apertures := [], ports := [], flash := [], counts := [], tmsel := 0, lastFlush := 0, msix := [], driverAbsent := false, shutDown := false,
    gens := [], reqs := [], reqNo := 0, stamps := [], dups := [], resident := [], atsNo := 0, grps := [], asks := [], answers := [], lost := [] }

/-- The machine right after reset (R403): every sequencer idle, every memory, table and register zero, the registers with
a stated default at it (R266, R353, R399, R400, R405), and the values of log entry 5. DESIGN CHOICE, log entry 2.
DESIGN CHOICE, log entry 4. -/
def State.reset : State :=
  { now := 0, agenda := [], focus := { tile := 0, ctx := 0, slot := 0, launch := 0 }, marks := [], mem := [], tiles := [], clusters := [],
    dies := [], launches := [], pkg := Pkg.reset, outbox := [] }

end Sys2Proof.Machine
end

