-- ==== Sys2Proof/Machine/Ops.lean ====
section
/-! DEFINITION. The named operations that every meaning is written over: access to units and registers, how a step ends,
records (R280 to R282), taking a sequencer trap and returning from one (R183, R184), moving on (R141, R154), vector clocks
(R75), barriers (R169), events and timelines (R170, R172). -/

namespace Sys2Proof.Machine

/-! ### How a step ends -/

/-- What a meaning answers: a state beside the bytes it writes, the same with the wipe of R403 after them, or a stop. -/
inductive Act
  | go (s : State) (ws : List (Nat × Byte))
  | wipe (s : State) (ws : List (Nat × Byte))
  | stop (f : Fault)
deriving DecidableEq, Repr

/-- The outcome of a meaning at s. Memory changes by the listed bytes alone: whatever else the meaning does, every other
byte reads as before. -/
def perform (s : State) (a : Act) : Host.Outcome State Fault Refusal :=
  match a with
  | .go s' ws => .next { s' with mem := s.mem.writes ws }
  | .wipe s' ws => .next { s' with mem := (s.mem.writes ws).keep (fun k => !keyInside k) }
  | .stop f => .fault f

/-- A step that finds its condition unmet leaves the machine as it is: the agenda named it too early. -/
def idle (s : State) : Act := .go s []

/-- A step with a guard. -/
@[inline] def when (c : Bool) (s : State) (a : Act) : Act := if c then a else idle s

/-- A step that names a unit. DESIGN CHOICE, log entry 77. -/
@[inline] def within (c : Bool) (a : Act) : Act := if c then a else .stop .noSuchUnit

/-! ### Units (R10) -/

/-- Compute dies of a package. -/
def dieCount : Nat := 24
/-- Clusters of a package. -/
def clusterCount : Nat := 960
/-- Tiles of a package. -/
def tileCount : Nat := 3840
/-- Cluster of a tile. -/
def clusterOf (t : Nat) : Nat := t / 4
/-- Die of a tile. -/
def dieOf (t : Nat) : Nat := t / 160
/-- Die of a cluster. -/
def dieOfCluster (k : Nat) : Nat := k / 40

/-- A tile. -/
def State.tile (s : State) (t : Nat) : Tile := s.tiles.get Tile.reset t
/-- Put a tile. -/
def State.setTile (s : State) (t : Nat) (v : Tile) : State := { s with tiles := s.tiles.put t v }
/-- Change a tile. -/
def State.modTile (s : State) (t : Nat) (f : Tile → Tile) : State := s.setTile t (f (s.tile t))
/-- A cluster. -/
def State.cluster (s : State) (k : Nat) : Cluster := s.clusters.get Cluster.reset k
/-- Put a cluster. -/
def State.setCluster (s : State) (k : Nat) (v : Cluster) : State := { s with clusters := s.clusters.put k v }
/-- Change a cluster. -/
def State.modCluster (s : State) (k : Nat) (f : Cluster → Cluster) : State := s.setCluster k (f (s.cluster k))
/-- A die. -/
def State.die (s : State) (d : Nat) : Die := s.dies.get Die.reset d
/-- Put a die. -/
def State.setDie (s : State) (d : Nat) (v : Die) : State := { s with dies := s.dies.put d v }
/-- Change a die. -/
def State.modDie (s : State) (d : Nat) (f : Die → Die) : State := s.setDie d (f (s.die d))
/-- A launch, if its context index is live. -/
def State.launch (s : State) (l : Nat) : Option Launch := s.launches.find l
/-- The tile of a page of a launch. -/
def pageTile (s : State) (l page : Nat) : Option Nat := (s.launch l).bind (fun L => L.place[page]?)
/-- Put a launch. -/
def State.setLaunch (s : State) (l : Nat) (v : Launch) : State := { s with launches := s.launches.put l v }
/-- Change a launch that is live. -/
def State.modLaunch (s : State) (l : Nat) (f : Launch → Launch) : State :=
  match s.launch l with | some v => s.setLaunch l (f v) | none => s
/-- Change the package-wide state. -/
def State.modPkg (s : State) (f : Pkg → Pkg) : State := { s with pkg := f s.pkg }
/-- A message leaves the package. -/
def State.send (s : State) (m : Message) : State := { s with outbox := s.outbox ++ [m] }

/-- An external port. -/
def Pkg.port (p : Pkg) (i : Nat) : ExtPort := p.ports.get ExtPort.reset i
/-- Change an external port. -/
def State.modExt (s : State) (i : Nat) (f : ExtPort → ExtPort) : State :=
  s.modPkg (fun p => { p with ports := p.ports.put i (f (p.port i)) })

/-- The UALink port that traffic of a domain endpoint takes, after a reroute another (R390, R398). -/
def linkPort (s : State) (endpoint : Nat) : Nat :=
  let p := Config.ualinkPort endpoint % 16
  (match (s.pkg.port p).via with | some q => q | none => p) % 16

/-- Counter values that a key protects: the next would be 2^32 − 1 (R391). -/
def keySpent : Nat := 2 ^ 32 - 1

/-- May a direction of a port carry a flit now (R391, R398)? -/
def KeyDir.open_ (k : KeyDir) : Bool := !k.stopped && k.count < keySpent
/-- A flit under the active key; a message counts as one. DESIGN CHOICE, log entry 96. -/
def KeyDir.flit (k : KeyDir) : KeyDir := { k with count := k.count + 1 }

/-- The domain endpoint of a message that leaves through a UALink port: of a group message, the lowest of its mask. -/
def Message.endpoint : Message → Nat
  | .ualink e _ | .amo e _ _ _ _ _ _ _ _ _ | .enq e _ _ _ _ _ _ | .grpAck e _ _ _ | .upliRead e _ _ | .upliWrite e _ _
  | .upliAtomic e _ _ _ _ _ | .upliData e _ _ => e
  | .grp _ mask _ _ _ _ => (firstIdx 1024 (fun i => mask.getLsbD i)).getD 0
  | _ => 0

/-- A message to a domain endpoint leaves through its UALink port, or waits there or behind it (R390, R391, R398). -/
def State.leave (s : State) (endpoint : Nat) (m : Message) : State :=
  let i := linkPort s endpoint
  let P := s.pkg.port i
  if P.down || P.draining || !P.transmit.open_ then s.modExt i (fun P => { P with waiting := P.waiting ++ [m] })
  else (s.modExt i (fun P => { P with transmit := P.transmit.flit })).send m

/-- A capability register, by its number less 0x800 (R407): a number not listed reads zero. -/
def State.cap (s : State) (n : Nat) : Word := s.pkg.caps.get 0 n
/-- Is an external port of the part enabled (R407, R408)? -/
def portEnabled (s : State) (i : Nat) : Bool := (s.cap 0x1B).getLsbD i
/-- Can a message from a domain endpoint arrive now? -/
def earOpen (s : State) (endpoint : Nat) : Bool :=
  let P := s.pkg.port (linkPort s endpoint)
  portEnabled s (linkPort s endpoint) && !P.down && P.receive.open_
/-- Can a request to a domain endpoint leave now and its response arrive (R390, R391, R398)? Not behind a message that waits. -/
def portOpen (s : State) (endpoint : Nat) : Bool :=
  let P := s.pkg.port (linkPort s endpoint)
  earOpen s endpoint && !P.draining && P.transmit.open_ && P.waiting.isEmpty
/-- A message from a domain endpoint arrives through its port (R391). -/
def State.heard (s : State) (endpoint : Nat) : State := s.modExt (linkPort s endpoint) (fun P => { P with receive := P.receive.flit })

/-- A vector's message is sent unless one is still pending (R397); firmware is notified where there is no host driver. -/
def raiseVector (s : State) (v : Nat) : State :=
  if s.pkg.driverAbsent then s.send (.firmware 4 v)
  else if s.pkg.msix.contains v then s
  else (s.modPkg (fun p => { p with msix := p.msix ++ [v] })).send (.interrupt v)

/-- The launch of a tile; an index that no launch has when there is none. -/
def Tile.launchNo (T : Tile) : Nat := T.launch.getD (2 ^ 14)
/-- A context of a tile. -/
def Tile.ctx (T : Tile) (c : Nat) : Ctx := T.ctxs.get Ctx.reset c
/-- Put a context. -/
def Tile.setCtx (T : Tile) (c : Nat) (v : Ctx) : Tile := { T with ctxs := T.ctxs.put c v }
/-- Change a context. -/
def Tile.modCtx (T : Tile) (c : Nat) (f : Ctx → Ctx) : Tile := T.setCtx c (f (T.ctx c))
/-- A port of a tile. -/
def Tile.port (T : Tile) (p : Nat) : Port := T.ports.get Port.reset p
/-- Put a port. -/
def Tile.setPort (T : Tile) (p : Nat) (v : Port) : Tile := { T with ports := T.ports.put p v }
/-- Change a port. -/
def Tile.modPort (T : Tile) (p : Nat) (f : Port → Port) : Tile := T.setPort p (f (T.port p))
/-- A named barrier. -/
def Tile.bar (T : Tile) (i : Nat) : Bar := T.bars.get Bar.reset i
/-- Put a named barrier. -/
def Tile.setBar (T : Tile) (i : Nat) (b : Bar) : Tile := { T with bars := T.bars.put i b }
/-- A chain of an engine and a tile in the cluster (R247). -/
def Cluster.chain (K : Cluster) (eng tile : Nat) : Chain := K.chains.get Chain.reset (eng * 4 + tile)
/-- Put a chain. -/
def Cluster.setChain (K : Cluster) (eng tile : Nat) (c : Chain) : Cluster := { K with chains := K.chains.put (eng * 4 + tile) c }
/-- A task table entry. -/
def Cluster.task (K : Cluster) (i : Nat) : Task := K.tasks.get Task.reset i
/-- A bank of the matrix engine. -/
def Matrix.bank (m : Matrix) (b : Nat) : Bank := m.banks.get Bank.reset b
/-- Change a bank. -/
def Matrix.modBank (m : Matrix) (b : Nat) (f : Bank → Bank) : Matrix := { m with banks := m.banks.put b (f (m.bank b)) }
/-- Is a cluster enabled (R407, R408)? -/
def State.clusterEnabled (s : State) (k : Nat) : Bool :=
  (s.cap 1).getLsbD (dieOfCluster k) && (s.cap (2 + dieOfCluster k)).getLsbD (k % 40)
/-- Does the part carry LPDDR on a die (R407)? -/
def State.hasLpddr (s : State) (d : Nat) : Bool := bits (s.cap 0x1A) (2 * d + 1) (2 * d) != 0
/-- Is the channel of an LPDDR frame of a die enabled (R407, R408)? -/
def State.hasChannel (s : State) (d frame : Nat) : Bool :=
  bits (s.cap 0x1A) (2 * d + 1) (2 * d) = 3 || (s.hasLpddr d && (s.cap 0x1A).getLsbD (2 * d + Config.channelOf d frame % 2))
/-- Is a domain endpoint outside the package there: in the domain, and not behind a disabled port (R351, R368, R408)? -/
def endpointThere (s : State) (e : Nat) : Bool := Config.domainHas e && (s.cap 0x1B).getLsbD (linkPort s e)
/-- The cycle register of a die (R138). -/
def State.cycle (s : State) (d : Nat) : Word := BitVec.ofNat 64 (s.now - (s.die d).cycleBase)

/-! ### Records (R280 to R282) -/

/-- May a record take a slot (R280)? -/
def slotFree (D : Die) (amber : Bool) : Bool :=
  D.slots.length < 256 && (amber || (D.slots.filter (fun r => !r.amber)).length < 192)

/-- Place a record in a slot, giving it its seq, or hold it at its source (R280, R281). -/
def Die.place (D : Die) (r : Rec) : Die :=
  if slotFree D r.amber then
    { D with slots := D.slots ++ [{ r with seq := D.seq }], seq := (D.seq + 1) % 2 ^ 32 }
  else { D with waiting := D.waiting ++ [r] }

/-- A source writes a record. -/
def State.record (s : State) (r : Rec) : State := s.modDie r.die (fun D => D.place r)

/-- The lane of a cause (R182, R283): amber unless it is a cause of the slate lane. -/
def causeAmber (c : Nat) : Bool := !(c ∈ [0x0C, 0x0D, 0x0F, 0x21, 0x27, 0x28, 0x2A])

/-- The context index of an identifier (R49). -/
def ctxIndex (ctxid : Nat) : Nat := ctxid % 2 ^ 14
/-- The identifier of the launch on a tile, 0 when there is none. -/
def State.tileCtxid (s : State) (t : Nat) : Nat :=
  match (s.tile t).launch with
  | some l => (match s.launch l with | some L => L.ctxid.toNat | none => 0)
  | none => 0

/-- A record of a source on a tile. -/
def State.tileRec (s : State) (t : Nat) (amber : Bool) (source cause : Nat) (value : Word) (info : List Word) : Rec :=
  { amber := amber, source := source, voided := false, cause := cause, ctxid := s.tileCtxid t, die := dieOf t,
    cluster := clusterOf t % 40, tile := t % 4, page := (s.tile t).page, ctx := 0, slot := 0, port := 0, value := value,
    cycle := s.now - (s.die (dieOf t)).cycleBase, info := info, seq := 0 }

/-! ### The sequencer's registers (R134, R141) -/

/-- Read x[r]; x0 reads zero. -/
def Seq.get (q : Seq) (r : Reg) : Word := if r = 0 then 0 else q.x.get 0 r.toNat
/-- write(d, v) of R141. -/
def Seq.set (q : Seq) (d : Reg) (v : Word) : Seq := if d = 0 then q else { q with x := q.x.put d.toNat v }
/-- x[r] of the tile in focus. -/
def State.x (s : State) (r : Reg) : Word := (s.tile s.focus.tile).seq.get r
/-- Change the sequencer of a tile. -/
def State.modSeq (s : State) (t : Nat) (f : Seq → Seq) : State := s.modTile t (fun T => { T with seq := f T.seq })
/-- The private offset that pc holds. -/
def Seq.pcNat (q : Seq) : Nat := q.pc.toNat * 4
/-- pc as a 64-bit value. -/
def Seq.pcWord (q : Seq) : Word := BitVec.ofNat 64 q.pcNat
/-- The context that ctxsel names. -/
def Tile.selected (T : Tile) : Ctx := T.ctx T.seq.ctxsel

/-! ### Traps and return (R182 to R184) -/

/-- tcause of R182: the mode before the trap, the completed bit, the cause. -/
def trapCause (mode completed : Bool) (cause : Nat) : BitVec 32 :=
  BitVec.ofNat 32 (mode.toNat * 2 ^ 31 + completed.toNat * 2 ^ 30 + cause)

/-- TRAP ENTRY (R183), the one operation by which a sequencer takes a trap: tepc, tcause and tval are set; in program mode
with a handler the mode becomes system and pc the handler's; in program mode without one a record goes on the cause's lane
and the sequencer stops with the trap pending; in system mode an amber record of cause 0x0041 is written and it stops. -/
def takeTrap (s : State) (t cause : Nat) (tval xa : Word) (completed : Bool := false) : State :=
  let T := s.tile t
  let q := T.seq
  let tc := trapCause q.mode completed cause
  let q1 := { q with tepc := q.pc, tcause := tc, tval := tval }
  let info := [q.pcWord, tc.zeroExtend 64, q.lk, xa]
  if q.mode then
    (s.setTile t { T with seq := { q1 with phase := .stopped } }).record (s.tileRec t true 1 0x41 tval info)
  else if q.tvec = 0 then
    (s.setTile t { T with seq := { q1 with phase := .stopped } }).record (s.tileRec t (causeAmber cause) 1 cause tval info)
  else s.setTile t { T with seq := { q1 with mode := true, pc := q.tvec } }

/-- The register that the a field of a word names, or base (R140); x0 where its form has none. -/
def aField (w : BitVec 32) : Reg :=
  let major := (w.extractLsb' 26 6).toNat
  if major = 0x16 || major = 0x17 then 0
  else if 0x10 ≤ major && major ≤ 0x15 then w.extractLsb' 21 5
  else if major = 0x30 then w.extractLsb' 10 5
  else w.extractLsb' 16 5

/-- x[a] of the instruction whose word stands at a key (R282). -/
def Seq.operandA (q : Seq) (m : Memory) (key : Nat) : Word := q.get (aField (BitVec.ofNat 32 (m.nat key 4)))

/-- x[a] of the instruction at an offset of a tile's private memory, as its record gives it (R282). -/
def State.xaAt (s : State) (t pc : Nat) : Word := (s.tile t).seq.operandA s.mem (privKey t pc)

/-- pc := pc + 4 at the end of an instruction (R141); at 0xFFFC the fetch range trap after completion (R154). -/
def advance (s : State) (t : Nat) : State :=
  if (s.tile t).seq.pc = 0x3FFF then takeTrap s t 3 0x10000 (s.xaAt t 0xFFFC) true
  else s.modSeq t (fun q => { q with pc := q.pc + 1 })

/-- check(tgt) of R154: none, or the cause of the trap. -/
def checkTarget (tgt : Word) : Option Nat :=
  if tgt.toNat % 4 != 0 then some 4 else if tgt.toNat ≥ 0x10000 then some 3 else none

/-- Transfer control to tgt, with f applied to the sequencer when the check succeeds (R154, R155). -/
def transfer (s : State) (t : Nat) (tgt xa : Word) (f : Seq → Seq) : State :=
  match checkTarget tgt with
  | some c => takeTrap s t c tgt xa
  | none => s.modSeq t (fun q => { f q with pc := BitVec.ofNat 14 (tgt.toNat / 4) })

/-- RETURN FROM A TRAP (R184): to tepc, or past it when the trapping instruction's effects stand; the mode of tcause bit 31
comes back. -/
def trapReturn (s : State) (t : Nat) : State :=
  let q := (s.tile t).seq
  let tgt := BitVec.ofNat 64 (q.tepc.toNat * 4 + (if q.tcause.getLsbD 30 then 4 else 0))
  transfer s t tgt 0 (fun q => { q with mode := q.tcause.getLsbD 31 })

/-! ### Sequencer instructions -/

/-- Does a load that has not returned still have to write one of these registers (R160)? -/
def Seq.busy (q : Seq) (rs : List Reg) : Bool := q.loads.any (fun l => l.d != 0 && rs.contains l.d)

/-- A sequencer instruction that reads and writes the registers rs: it waits for loads to them (R160; the wait of a second
write to one register is DEDUCED, log entry 9), then does body. -/
def seqOp (s : State) (rs : List Reg) (body : Act) : Host.Outcome State Fault Refusal :=
  perform s (when (!(s.tile s.focus.tile).seq.busy rs) s body)

/-- write(d, v), pc := pc + 4 (R141). -/
def writeNext (s : State) (d : Reg) (v : Word) : State :=
  advance (s.modSeq s.focus.tile (fun q => q.set d v)) s.focus.tile

/-- A register result and nothing else. -/
def resultOp (s : State) (d : Reg) (rs : List Reg) (v : Word) : Host.Outcome State Fault Refusal :=
  seqOp s (d :: rs) (.go (writeNext s d v) [])

/-- pc := pc + 4 in the tile in focus. -/
def next (s : State) : State := advance s s.focus.tile

/-- The instruction in hand takes a trap. -/
def trapAct (s : State) (cause : Nat) (tval xa : Word) : Act := .go (takeTrap s s.focus.tile cause tval xa) []

/-! ### Vector clocks (R75) -/

/-- An entry of a clock. -/
def clockAt (c : List Nat) (d : Nat) : Nat := c.getD d 0
/-- The join of two clocks. -/
def clockJoin (a b : List Nat) : List Nat := (List.range dieCount).map (fun i => max (clockAt a i) (clockAt b i))
/-- Set an entry. -/
def clockSet (c : List Nat) (d n : Nat) : List Nat :=
  (List.range dieCount).map (fun i => if i = d then n else clockAt c i)
/-- Is a request a write to a duplicated page, which is write-pending until the home applies it (R61)? -/
def Req.pends (r : Req) : Bool := r.piece.dup != 0
/-- Has a home applied every write addressed to it that a clock covers (R75)? A write-pending one has not been performed, so that nothing
is ordered after it (R61). -/
def covered (s : State) (home : Nat) (clock : List Nat) : Bool :=
  s.pkg.reqs.all (fun r => r.home != home || r.pends || clockAt clock r.src < r.no)
/-- The clock of the writes that some bytes hold. -/
def stampOf (s : State) (key n : Nat) : List Nat :=
  (List.range n).foldl (fun c i => clockJoin c (s.pkg.stamps.get [] (key + i))) []
/-- Note the clock of a write at its bytes. -/
def stampAll (p : Pkg) (key n : Nat) (clock : List Nat) : Pkg :=
  { p with stamps := (List.range n).foldl (fun m i => m.put (key + i) clock) p.stamps }

/-! ### Telemetry (R406) -/

/-- The key of a counter: its group, its die, and two coordinates within them. -/
def tmKey (group die x y : Nat) : Nat := group * 2 ^ 32 + die * 2 ^ 16 + x * 2 ^ 8 + y
/-- A die counts n more. -/
def State.count (s : State) (key n : Nat) : State := s.modPkg (fun p => { p with counts := p.counts.put key (sat32 (p.counts.get 0 key + n)) })

/-! ### Barriers (R169) -/

/-- Arrivals at a barrier in a cycle: the count grows; where it reaches the target, the phase flips, once in a cycle. -/
def Bar.arrive (b : Bar) (now n : Nat) : Bar :=
  let c := b.count + n
  if b.target != 0 && c ≥ b.target && b.flipped != some now then { b with count := c - b.target, phase := !b.phase, flipped := some now }
  else { b with count := c }

/-- Arrivals from the fabric, a task or an engine (of bytes: n bytes of one granule): at a disabled barrier or one of the other kind each
arrival is dropped and counted. -/
def Tile.arrive (T : Tile) (now i n : Nat) (bytes : Bool) : Tile :=
  let b := T.bar i
  if b.target = 0 || b.bytes != bytes then { T with barDrops := sat32 (T.barDrops + (if bytes then 1 else n)) }
  else T.setBar i (b.arrive now n)

/-! ### Events and timelines (R170, R172, R180) -/

/-- Set or clear an event bit. -/
def Cluster.setEvent (K : Cluster) (i : Nat) (v : Bool) : Cluster := { K with events := K.events.put i v }
/-- OR a 256-bit mask into the events. -/
def Cluster.orEvents (K : Cluster) (mask : Nat) : Cluster :=
  { K with events := (List.range 256).foldl (fun e i => if mask.testBit i then e.put i true else e) K.events }
/-- Clear the events of a mask. -/
def Cluster.clearEvents (K : Cluster) (mask : Nat) : Cluster :=
  { K with events := (List.range 256).foldl (fun e i => if mask.testBit i then e.put i false else e) K.events }
/-- An engine's completion write of a timeline (R172): never backward. -/
def Cluster.completeTl (K : Cluster) (i n : Nat) : Cluster :=
  let v := (K.tl.get 0 i).toNat
  if serialLt 64 v (n % 2 ^ 64) then { K with tl := K.tl.put i (BitVec.ofNat 64 n) } else K

end Sys2Proof.Machine
end

