-- ==== Sys2Proof/Machine/Alu.lean ====
section
/-! DEFINITION. Integer, immediate and miscellaneous instructions of the sequencer (R146 to R152). -/

namespace Sys2Proof.Machine

/-! ### Results -/

/-- Division of R147 at width w on signed operands. -/
def divS (w : Nat) (s t : Int) : Int :=
  let top : Int := (2 : Int) ^ (w - 1)
  if t = 0 then (if s = 0 then 0 else if s > 0 then top - 1 else -top)
  else if s = -top ∧ t = -1 then top - 1 else s.tdiv t
/-- Remainder of R147 at width w on signed operands. -/
def remS (w : Nat) (s t : Int) : Int :=
  if t = 0 then s else if s = -(2 : Int) ^ (w - 1) ∧ t = -1 then -1 else s.tmod t
/-- Unsigned division of R147 at width w. -/
def divU (w s t : Nat) : Nat := if t = 0 then (if s = 0 then 0 else 2 ^ w - 1) else s / t
/-- Unsigned remainder of R147. -/
def remU (s t : Nat) : Nat := if t = 0 then s else s % t
/-- A truth value as a register value. -/
def flag (c : Bool) : Word := if c then 1 else 0

/-- An instruction of the ALU group on two registers (R146). -/
def aluOp (s : State) (d a b : Reg) (f : Word → Word → Word) : Host.Outcome State Fault Refusal :=
  resultOp s d [a, b] (f (s.x a) (s.x b))
/-- A unary instruction of the ALU group, or one with an immediate (R146, R148). -/
def aluOp1 (s : State) (d a : Reg) (f : Word → Word) : Host.Outcome State Fault Refusal :=
  resultOp s d [a] (f (s.x a))

/-! ### The ALU group -/

/-- add (R146). -/
def execAdd (d a b : Reg) (s : State) : Host.Outcome State Fault Refusal :=
  aluOp s d a b (fun u v => u + v)
/-- sub (R146). -/
def execSub (d a b : Reg) (s : State) : Host.Outcome State Fault Refusal :=
  aluOp s d a b (fun u v => u - v)
/-- and (R146). -/
def execAnd (d a b : Reg) (s : State) : Host.Outcome State Fault Refusal :=
  aluOp s d a b (fun u v => u &&& v)
/-- or (R146). -/
def execOr (d a b : Reg) (s : State) : Host.Outcome State Fault Refusal :=
  aluOp s d a b (fun u v => u ||| v)
/-- xor (R146). -/
def execXor (d a b : Reg) (s : State) : Host.Outcome State Fault Refusal :=
  aluOp s d a b (fun u v => u ^^^ v)
/-- sll (R146). -/
def execSll (d a b : Reg) (s : State) : Host.Outcome State Fault Refusal :=
  aluOp s d a b (fun u v => u <<< (v.toNat % 64))
/-- srl (R146). -/
def execSrl (d a b : Reg) (s : State) : Host.Outcome State Fault Refusal :=
  aluOp s d a b (fun u v => u >>> (v.toNat % 64))
/-- sra (R146). -/
def execSra (d a b : Reg) (s : State) : Host.Outcome State Fault Refusal :=
  aluOp s d a b (fun u v => u.sshiftRight (v.toNat % 64))
/-- slt (R146). -/
def execSlt (d a b : Reg) (s : State) : Host.Outcome State Fault Refusal :=
  aluOp s d a b (fun u v => flag (u.slt v))
/-- sltu (R146). -/
def execSltu (d a b : Reg) (s : State) : Host.Outcome State Fault Refusal :=
  aluOp s d a b (fun u v => flag (u.ult v))
/-- min (R146). -/
def execMin (d a b : Reg) (s : State) : Host.Outcome State Fault Refusal :=
  aluOp s d a b (fun u v => if u.sle v then u else v)
/-- max (R146). -/
def execMax (d a b : Reg) (s : State) : Host.Outcome State Fault Refusal :=
  aluOp s d a b (fun u v => if v.sle u then u else v)
/-- minu (R146). -/
def execMinu (d a b : Reg) (s : State) : Host.Outcome State Fault Refusal :=
  aluOp s d a b (fun u v => if u.ule v then u else v)
/-- maxu (R146). -/
def execMaxu (d a b : Reg) (s : State) : Host.Outcome State Fault Refusal :=
  aluOp s d a b (fun u v => if v.ule u then u else v)
/-- xadd2 (R146). -/
def execXadd2 (d a b : Reg) (s : State) : Host.Outcome State Fault Refusal :=
  aluOp s d a b (fun u v => u + 2 * v)
/-- xadd4 (R146). -/
def execXadd4 (d a b : Reg) (s : State) : Host.Outcome State Fault Refusal :=
  aluOp s d a b (fun u v => u + 4 * v)
/-- xadd8 (R146). -/
def execXadd8 (d a b : Reg) (s : State) : Host.Outcome State Fault Refusal :=
  aluOp s d a b (fun u v => u + 8 * v)
/-- sadd (R151). -/
def execSadd (d a b : Reg) (s : State) : Host.Outcome State Fault Refusal :=
  aluOp s d a b (fun u v => streamAdd u v)
/-- mul (R146). -/
def execMul (d a b : Reg) (s : State) : Host.Outcome State Fault Refusal :=
  aluOp s d a b (fun u v => u * v)
/-- mulh (R146). -/
def execMulh (d a b : Reg) (s : State) : Host.Outcome State Fault Refusal :=
  aluOp s d a b (fun u v => ofInt (u.toInt * v.toInt / 2 ^ 64))
/-- mulhu (R146). -/
def execMulhu (d a b : Reg) (s : State) : Host.Outcome State Fault Refusal :=
  aluOp s d a b (fun u v => BitVec.ofNat 64 (u.toNat * v.toNat / 2 ^ 64))
/-- div (R147). -/
def execDiv (d a b : Reg) (s : State) : Host.Outcome State Fault Refusal :=
  aluOp s d a b (fun u v => ofInt (divS 64 u.toInt v.toInt))
/-- divu (R147). -/
def execDivu (d a b : Reg) (s : State) : Host.Outcome State Fault Refusal :=
  aluOp s d a b (fun u v => BitVec.ofNat 64 (divU 64 u.toNat v.toNat))
/-- rem (R147). -/
def execRem (d a b : Reg) (s : State) : Host.Outcome State Fault Refusal :=
  aluOp s d a b (fun u v => ofInt (remS 64 u.toInt v.toInt))
/-- remu (R147). -/
def execRemu (d a b : Reg) (s : State) : Host.Outcome State Fault Refusal :=
  aluOp s d a b (fun u v => BitVec.ofNat 64 (remU u.toNat v.toNat))
/-- clz (R146). -/
def execClz (d a : Reg) (s : State) : Host.Outcome State Fault Refusal :=
  aluOp1 s d a (fun u => BitVec.ofNat 64 (clzNat 64 u.toNat))
/-- ctz (R146). -/
def execCtz (d a : Reg) (s : State) : Host.Outcome State Fault Refusal :=
  aluOp1 s d a (fun u => BitVec.ofNat 64 (ctzNat 64 u.toNat))
/-- popc (R146). -/
def execPopc (d a : Reg) (s : State) : Host.Outcome State Fault Refusal :=
  aluOp1 s d a (fun u => BitVec.ofNat 64 (popNat 64 u.toNat))

/-! ### Immediates -/

/-- addi (R148). -/
def execAddi (d a : Reg) (imm : BitVec 16) (s : State) : Host.Outcome State Fault Refusal :=
  aluOp1 s d a (fun u => u + sext imm)
/-- addi16 (R149). -/
def execAddi16 (d a : Reg) (imm : BitVec 16) (s : State) : Host.Outcome State Fault Refusal :=
  aluOp1 s d a (fun u => u + (sext imm <<< 16))
/-- addi32 (R149). -/
def execAddi32 (d a : Reg) (imm : BitVec 16) (s : State) : Host.Outcome State Fault Refusal :=
  aluOp1 s d a (fun u => u + (sext imm <<< 32))
/-- addi48 (R149). -/
def execAddi48 (d a : Reg) (imm : BitVec 16) (s : State) : Host.Outcome State Fault Refusal :=
  aluOp1 s d a (fun u => u + (sext imm <<< 48))
/-- andi (R148). -/
def execAndi (d a : Reg) (imm : BitVec 16) (s : State) : Host.Outcome State Fault Refusal :=
  aluOp1 s d a (fun u => u &&& zext imm)
/-- ori (R148). -/
def execOri (d a : Reg) (imm : BitVec 16) (s : State) : Host.Outcome State Fault Refusal :=
  aluOp1 s d a (fun u => u ||| zext imm)
/-- xori (R148). -/
def execXori (d a : Reg) (imm : BitVec 16) (s : State) : Host.Outcome State Fault Refusal :=
  aluOp1 s d a (fun u => u ^^^ zext imm)
/-- slti (R148). -/
def execSlti (d a : Reg) (imm : BitVec 16) (s : State) : Host.Outcome State Fault Refusal :=
  aluOp1 s d a (fun u => flag (u.slt (sext imm)))
/-- sltiu (R148). -/
def execSltiu (d a : Reg) (imm : BitVec 16) (s : State) : Host.Outcome State Fault Refusal :=
  aluOp1 s d a (fun u => flag (u.ult (sext imm)))
/-- slli (R148). -/
def execSlli (d a : Reg) (imm : BitVec 6) (s : State) : Host.Outcome State Fault Refusal :=
  aluOp1 s d a (fun u => u <<< imm.toNat)
/-- srli (R148). -/
def execSrli (d a : Reg) (imm : BitVec 6) (s : State) : Host.Outcome State Fault Refusal :=
  aluOp1 s d a (fun u => u >>> imm.toNat)
/-- srai (R148). -/
def execSrai (d a : Reg) (imm : BitVec 6) (s : State) : Host.Outcome State Fault Refusal :=
  aluOp1 s d a (fun u => u.sshiftRight imm.toNat)
/-- saddi (R151). -/
def execSaddi (d a : Reg) (imm : BitVec 16) (s : State) : Host.Outcome State Fault Refusal :=
  aluOp1 s d a (fun u => streamAdd u (sext imm))

/-! ### Miscellaneous group (R152) -/

/-- nop (R152). -/
def execNop (s : State) : Host.Outcome State Fault Refusal :=
  seqOp s [] (.go (next s) [])
/-- ret (R152, R155): to lk, after the check. -/
def execRet (s : State) : Host.Outcome State Fault Refusal :=
  seqOp s [] (.go (transfer s s.focus.tile (s.tile s.focus.tile).seq.lk 0 id) [])
/-- mflk (R152). -/
def execMflk (d : Reg) (s : State) : Host.Outcome State Fault Refusal :=
  resultOp s d [] (s.tile s.focus.tile).seq.lk
/-- mtlk (R152): any value is accepted. -/
def execMtlk (a : Reg) (s : State) : Host.Outcome State Fault Refusal :=
  seqOp s [a] (.go (next (s.modSeq s.focus.tile (fun q => { q with lk := s.x a }))) [])

end Sys2Proof.Machine
end

