-- ==== Sys2Proof/Machine/Branch.lean ====
section
/-! DEFINITION. Branches and jumps of the sequencer (R153 to R155). -/

namespace Sys2Proof.Machine

/-- A compare-and-branch (R153): the target is checked only when the branch is taken. -/
def branchOp (s : State) (a b : Reg) (imm : BitVec 16) (cond : Word → Word → Bool) : Host.Outcome State Fault Refusal :=
  let t := s.focus.tile
  seqOp s [a, b] (.go (if cond (s.x a) (s.x b) then
    transfer s t ((s.tile t).seq.pcWord + 4 * sext imm) (s.x a) id else next s) [])

/-- beq (R153). -/
def execBeq (a b : Reg) (imm : BitVec 16) (s : State) : Host.Outcome State Fault Refusal :=
  branchOp s a b imm (fun u v => u == v)
/-- bne (R153). -/
def execBne (a b : Reg) (imm : BitVec 16) (s : State) : Host.Outcome State Fault Refusal :=
  branchOp s a b imm (fun u v => u != v)
/-- blt (R153). -/
def execBlt (a b : Reg) (imm : BitVec 16) (s : State) : Host.Outcome State Fault Refusal :=
  branchOp s a b imm (fun u v => u.slt v)
/-- bge (R153). -/
def execBge (a b : Reg) (imm : BitVec 16) (s : State) : Host.Outcome State Fault Refusal :=
  branchOp s a b imm (fun u v => v.sle u)
/-- bltu (R153). -/
def execBltu (a b : Reg) (imm : BitVec 16) (s : State) : Host.Outcome State Fault Refusal :=
  branchOp s a b imm (fun u v => u.ult v)
/-- bgeu (R153). -/
def execBgeu (a b : Reg) (imm : BitVec 16) (s : State) : Host.Outcome State Fault Refusal :=
  branchOp s a b imm (fun u v => v.ule u)

/-- j (R155). -/
def execJ (imm : BitVec 26) (s : State) : Host.Outcome State Fault Refusal :=
  let t := s.focus.tile
  seqOp s [] (.go (transfer s t ((s.tile t).seq.pcWord + 4 * sext imm) 0 id) [])
/-- jal (R155): lk is written only when the check succeeds. -/
def execJal (imm : BitVec 26) (s : State) : Host.Outcome State Fault Refusal :=
  let t := s.focus.tile
  let pc := (s.tile t).seq.pcWord
  seqOp s [] (.go (transfer s t (pc + 4 * sext imm) 0 (fun q => { q with lk := pc + 4 })) [])
/-- jr (R155). -/
def execJr (a : Reg) (imm : BitVec 16) (s : State) : Host.Outcome State Fault Refusal :=
  seqOp s [a] (.go (transfer s s.focus.tile (s.x a + 4 * sext imm) (s.x a) id) [])
/-- jalr (R155): x[a] is read before lk is written. -/
def execJalr (a : Reg) (imm : BitVec 16) (s : State) : Host.Outcome State Fault Refusal :=
  let t := s.focus.tile
  let pc := (s.tile t).seq.pcWord
  seqOp s [a] (.go (transfer s t (s.x a + 4 * sext imm) (s.x a) (fun q => { q with lk := pc + 4 })) [])

end Sys2Proof.Machine
end

