-- ==== Sys2Proof/Machine/Operands.lean ====
section
/-! DEFINITION. From an address to bytes: the spaces (R39 to R42), pieces (R78, R159), translation (R44 to R48, R410),
forwarding and duplication at the home (R60, R61), and the accesses a home performs (R65, R75, R79). -/

namespace Sys2Proof.Machine

/-! ### Faults of an access (R51, R410) -/

/-- A fault of an access: its cause (R182, R283), the address, the page of a request the device sends (R62). -/
structure AccFault where
  cause : Nat
  addr : Word
  pri : Option Nat
deriving DecidableEq, Repr

/-! ### Pieces -/

/-- The largest naturally aligned piece at an address, of at most n bytes and at most 64 (R78). -/
def pieceAt (addr n : Nat) : Nat :=
  if n ≥ 64 && addr % 64 = 0 then 64 else if n ≥ 32 && addr % 32 = 0 then 32 else if n ≥ 16 && addr % 16 = 0 then 16
  else if n ≥ 8 && addr % 8 = 0 then 8 else if n ≥ 4 && addr % 4 = 0 then 4 else if n ≥ 2 && addr % 2 = 0 then 2 else 1

/-- Naturally aligned pieces of an access, ascending (R78, R159). -/
def splitFrom : Nat → Nat → Nat → List (Nat × Nat)
  | 0, _, _ => []
  | fuel + 1, addr, n => if n = 0 then [] else (addr, pieceAt addr n) :: splitFrom fuel (addr + pieceAt addr n) (n - pieceAt addr n)

/-- The pieces of n bytes at an address. -/
def split (addr n : Nat) : List (Nat × Nat) := splitFrom n addr n

/-- Do two byte ranges overlap? -/
def overlap (a n b m : Nat) : Bool := a < b + m && b < a + n

/-- Does a piece overlap another? -/
def Piece.meets (p q : Piece) : Bool := overlap p.key p.size q.key q.size

/-! ### The walk (R44 to R46) -/

/-- Lowest LV bit that a level's index covers. -/
def levelShift (level : Nat) : Nat := match level with | 0 => 14 | 1 => 22 | 2 => 30 | _ => 44
/-- Index width of a level. -/
def levelBits (level : Nat) : Nat := match level with | 0 => 8 | 1 => 8 | 2 => 14 | _ => 13

/-- log2 of the page size of a leaf at a level (R46), none where its size may not stand. -/
def leafSpan (level : Nat) (e : Word) : Option Nat :=
  match level, bits e 61 59 with
  | 0, 0 => some 14 | 0, 1 => some 18 | 1, 2 => some 22 | 1, 3 => some 26 | 2, 4 => some 30
  | 3, 7 => if bits e 58 57 = 3 then some 44 else none
  | _, _ => none

/-- May the frames of a leaf of a page size be named (R43, R408)? None of them may lie on a disabled channel. DESIGN CHOICE, log entry 38. -/
def frameOk (s : State) (e : Word) (span : Nat) : Bool :=
  let d := bits e 47 43
  match bits e 58 57 with
  | 0 => (s.cap 1).getLsbD d
  | 1 => (s.cap 1).getLsbD d && s.hasLpddr d && (bits (s.cap 0x1A) (2 * d + 1) (2 * d) = 3 ||
      (List.range (2 ^ (span - 14))).all (fun i => s.hasChannel d (bits e 42 14 + i)))
  | _ => true

/-- Walk from a level down (R44 to R46): the leaf and its span, or the cause of a fault. A table pointer beyond the die's stack SRAM
is walked and reads zeros, so that it gives no mapping. DESIGN CHOICE, log entry 83. -/
def walkFrom (s : State) (die lv : Nat) : Nat → Nat → Except Nat (Word × Nat)
  | level, base =>
    let e : Word := BitVec.ofNat 64 (s.mem.nat (sramKey die (base + 8 * (lv >>> levelShift level % 2 ^ levelBits level))) 8)
    if bit e 63 = false then .error 0x9
    else if bits e 52 48 != 0 || bits e 10 0 != 0 then .error 0xA
    else if bit e 62 then
      match leafSpan level e with
      | some span => if bits e 13 11 = 0 && (level = 3 || frameOk s e span) then .ok (e, span) else .error 0xA
      | none => .error 0xA
    else match level with
      | 0 => .error 0xA
      | l + 1 =>
        let p := bits e 47 11 * 2048
        if p % (8 * 2 ^ levelBits l) != 0 then .error 0xA else walkFrom s die lv l p
  termination_by structural level => level

/-- log2 of what one index covers at the level of a leaf of a page size (R44, R46): an access uses the entry that its own index
selects. -/
def spanReach (span : Nat) : Nat := if span < 22 then 14 else if span < 30 then 22 else 30
/-- The same of a cached translation. -/
def Xlat.reach (x : Xlat) : Nat := spanReach x.span
/-- First LV address that a cached translation serves. -/
def Xlat.lo (x : Xlat) : Nat := x.page <<< x.reach
/-- Did the host give it through ATS (R47)? -/
def Xlat.isAts (x : Xlat) : Bool := bits x.leaf 61 59 = 7

/-- Look a translation up (R48): entries are tagged with the full context identifier. -/
def tlbFind (tlb : List Xlat) (ctxid lv : Nat) : Option Xlat :=
  tlb.find? (fun x => x.ctxid = ctxid && lv >>> x.reach = x.page)

/-- Keep a translation; the oldest leaves when there is no room. DESIGN CHOICE, log entry 10. -/
def tlbAdd (cap : Nat) (tlb : List Xlat) (x : Xlat) : List Xlat :=
  if tlb.contains x then tlb else (tlb ++ [x]).drop ((tlb.length + 1) - cap)

/-- An entry with another frame (R45). -/
def withFrame (e : Word) (frame : Nat) : Word :=
  (e &&& ~~~(BitVec.ofNat 64 ((2 ^ 34 - 1) * 2 ^ 14))) ||| BitVec.ofNat 64 (frame % 2 ^ 34 * 2 ^ 14)

/-- What ATS answers for a resident page of a context (R47): the host's frame and permissions, for the context's PASID and the LV page,
until the host's next invalidation request. DESIGN CHOICE, log entries 41 and 84. -/
def atsXlat (s : State) (c : Ctx) (e : Word) (page : Nat) : Xlat :=
  let p := c.pasid.toNat
  { ctxid := c.ctxid.toNat, page := page, span := 14, leaf := withFrame e (Config.atsFrame p page s.pkg.atsNo).toNat,
    rd := (Config.atsPerm p page s.pkg.atsNo).1, wr := (Config.atsPerm p page s.pkg.atsNo).2 }

/-- Translate an LV address of a context in a cluster: a TLB, then the die's walker, then, under a host-delegated entry, the cluster TLB's
ATS results, then ATS (R44 to R48). -/
def xlate (s : State) (k : Nat) (c : Ctx) (tlb : List Xlat) (lv : Nat) : Except (Nat × Option Nat) Xlat :=
  match tlbFind tlb c.ctxid.toNat lv with
  | some x => .ok x
  | none =>
    match walkFrom s (dieOfCluster k) lv 3 (bits c.tbase 47 16 * 65536) with
    | .error e => .error (e, none)
    | .ok (e, span) =>
      if bit e 53 = false then .error (0xC, none)
      else if span = 44 then
        match tlbFind ((s.cluster k).tlb.filter (·.isAts)) c.ctxid.toNat lv with
        | some x => .ok x
        | none =>
          if s.pkg.resident.contains (c.ctxid.toNat, lv >>> 14) then .ok (atsXlat s c e (lv >>> 14))
          else .error (0xD, some (lv >>> 14))
      else .ok { ctxid := c.ctxid.toNat, page := lv >>> spanReach span, span := span, leaf := e, rd := bit e 56, wr := bit e 55 }

/-- The key that a translation gives an LV address (R45, R47). -/
def xlatKey (x : Xlat) (lv : Nat) : Nat :=
  let off := lv % 2 ^ x.span
  match bits x.leaf 58 57 with
    | 0 => sramKey (bits x.leaf 47 43) (bits x.leaf 42 14 * 16384 + off)
    | 1 => lpddrKey (bits x.leaf 47 43) (bits x.leaf 42 14 * 16384 + off)
    | 2 => remoteKey (bits x.leaf 47 38) (bit x.leaf 37) (bits x.leaf 36 14 * 16384 + off)
    | _ => hostKey (bits x.leaf 47 14 * 16384 + off)

/-! ### At the home (R60, R61, R65) -/

/-- Kind of region and index of a key. -/
def keyKind (k : Nat) : Nat := k / 2 ^ 48 % 8
/-- Index of a key's region. -/
def keyIndex (k : Nat) : Nat := k / 2 ^ 48 / 8
/-- Offset of a key in its region. -/
def keyOff (k : Nat) : Nat := k % 2 ^ 48

/-- The home of a byte (R65). -/
def keyHome (s : State) (k : Nat) : Home :=
  match keyKind k with
  | 2 | 3 => .die (keyIndex k)
  | 6 => .die (match s.launch (keyIndex k / 2 ^ 15) with | some L => L.home | none => 0)
  | 4 | 5 => .outside
  | _ => .near

/-- The duplicated page that a piece lies in (R61): under a leaf with dup = 1, the entry that system software marked, the die whose copy
it is, the offset in the page. -/
def dupOf (s : State) (p : Piece) : Option (Dup × Nat × Nat) :=
  if p.dup = 0 then none
  else s.pkg.dups.findSome? (fun d =>
    (d.copies.find? (fun c => c.2 ≤ p.key && p.key < c.2 + 2 ^ p.dup)).map (fun c => (d, c.1, p.key - c.2)))

/-- Where a read of a piece is served: a copy that has been dropped reads at the home copy (R61). -/
def readKey (s : State) (p : Piece) : Nat :=
  match dupOf s p with
  | some (d, die, off) => if d.dropped.contains die then d.homeKey + off else p.key
  | none => p.key

/-- The i-th byte that a read of a piece returns. -/
def State.pieceByte (s : State) (p : Piece) (i : Nat) : Byte := s.mem.read (readKey s p + i)
/-- The bytes of a piece. -/
def State.pieceBytes (s : State) (p : Piece) : List Byte := (List.range p.size).map (s.pieceByte p)

/-- Does the byte exist (R43, R60, R408)? 1 GiB of stack SRAM and 32 GiB of LPDDR on a die that is enabled, on its enabled channels. R60 says of
a remote access that a frame not mapped at its target gives no mapping; an access of the die's own memory beyond it is treated alike.
DESIGN CHOICE, log entry 83. -/
def keyExists (s : State) (k : Nat) : Bool :=
  match keyKind k with
  | 2 => keyOff k < 2 ^ 30 && (s.cap 1).getLsbD (keyIndex k)
  | 3 => keyOff k < 2 ^ 35 && (s.cap 1).getLsbD (keyIndex k) && s.hasChannel (keyIndex k) (keyOff k / 2 ^ 14)
  | _ => true

/-- The domain endpoint of a key of another package, and the address there (R45, R390). -/
def domainSpot (key : Nat) : Nat × Nat := (keyIndex key / 2, keyIndex key % 2 * 2 ^ 37 + keyOff key)

/-- A remote access at the home of a key, or to an endpoint that is not there, goes from forward entry to forward entry (R60), at most as often as there are entries. -/
def forwardFrom (s : State) : Nat → Nat → Bool → Except Nat (Nat × Bool)
  | 0, k, moved => .ok (k, moved)
  | n + 1, k, moved =>
    if !keyExists s k then .error 0x9
    else match keyHome s k with
      | .die h =>
        if keyKind k = 6 then .ok (k, moved)
        else match (s.die h).forwards.find (keyOff k / 16384 * 2 + keyKind k % 2) with
          | some .migrating => .error 0xF
          | some (.to b) => forwardFrom s n (b + keyOff k % 16384) true
          | none => .ok (k, moved)
      | _ => if keyKind k = 4 && !endpointThere s (domainSpot k).1 then .error 0x9 else .ok (k, moved)

/-- Follow the forward tables from the home die of a remote access (R60): the key, and whether an old home redirected the request, with its
new-home hint. -/
def forwardKey (s : State) (die k : Nat) : Except Nat (Nat × Bool) :=
  if keyHome s k = .die die then (if keyExists s k then .ok (k, false) else .error 0x9) else forwardFrom s (dieCount * 1024) k false

/-- Is an address outside LV space (R40, R41)? -/
def notLv (a : Word) : Bool := bits a 63 57 != 0

/-- A translation used by an access, and whether its reply carried a new-home hint (R60). -/
abbrev Used := Xlat × Bool

/-- One piece of an LV access is translated and judged (R410): an atomic that may write needs wr alone (R164). DEDUCED, log entry 90. -/
def lvPiece (s : State) (k : Nat) (c : Ctx) (tlb : List Xlat) (wr : Bool) (lv : Nat) : Except AccFault Xlat :=
  let a : Word := BitVec.ofNat 64 lv
  if notLv a then .error { cause := 5, addr := a, pri := none }
  else match xlate s k c tlb lv with
  | .error (e, p) => .error { cause := e, addr := a, pri := p }
  | .ok x => if (if wr then x.wr else x.rd) then .ok x else .error { cause := 0xB, addr := a, pri := none }

/-- The pieces of an LV access are translated, the lowest first (R159, R410). -/
def lvPieces (s : State) (k : Nat) (c : Ctx) (tlb : List Xlat) (wr : Bool) : List (Nat × Nat) → Except AccFault (List Xlat)
  | [] => .ok []
  | (a, _) :: r =>
    match lvPiece s k c tlb wr a with
    | .error f => .error f
    | .ok x => match lvPieces s k c tlb wr r with | .error f => .error f | .ok xs => .ok (x :: xs)

/-- A translated piece is found at its home, or at the new home that the old one names (R60). -/
def homePiece (s : State) (die lv n : Nat) (x : Xlat) : Except AccFault (Piece × Used) :=
  match forwardKey s die (xlatKey x lv) with
  | .error e => .error { cause := e, addr := BitVec.ofNat 64 lv, pri := none }
  | .ok (k, hint) => .ok ({ key := k, size := n, home := keyHome s k, dup := if bit x.leaf 54 then x.span else 0 }, (x, hint))

/-- The same of all pieces of an access. -/
def homePieces (s : State) (die : Nat) : List ((Nat × Nat) × Xlat) → Except AccFault (List Piece × List Used)
  | [] => .ok ([], [])
  | ((a, n), x) :: r =>
    match homePiece s die a n x with
    | .error f => .error f
    | .ok (p, u) => match homePieces s die r with | .error f => .error f | .ok (ps, us) => .ok (p :: ps, u :: us)

/-- An LV access of a context in a cluster: address check, translation of every piece, then the homes (R60, R159, R410). -/
def lvAccess (s : State) (k : Nat) (c : Ctx) (tlb : List Xlat) (a : Word) (n : Nat) (wr : Bool) :
    Except AccFault (List Piece × List Used) :=
  if notLv a then .error { cause := 5, addr := a, pri := none }
  else match lvPieces s k c tlb wr (split a.toNat n) with
    | .error f => .error f
    | .ok xs => homePieces s (dieOfCluster k) ((split a.toNat n).zip xs)

/-- Do two cached translations belong to one page? -/
def Xlat.samePage (x y : Xlat) : Bool := x.ctxid = y.ctxid && x.lo >>> x.span = y.lo >>> x.span

/-- Note a translation that an access used: it stays cached; on a new-home hint the requester drops what it has cached for the page (R60). -/
def tlbNote (cap : Nat) (tlb : List Xlat) (u : Used) : List Xlat :=
  if u.2 then tlb.filter (fun y => !u.1.samePage y) else tlbAdd cap tlb u.1

/-- Note translations in a cluster TLB of 2,048 entries (R48). -/
def State.noteCluster (s : State) (k : Nat) (us : List Used) : State :=
  s.modCluster k (fun K => { K with tlb := us.foldl (tlbNote 2048) K.tlb })

/-- Note translations of accesses through a tile TLB of 64 entries (R48); ATS results are held in the cluster TLB (R47). -/
def State.noteTile (s : State) (t : Nat) (us : List Used) : State :=
  let ats := us.filter (fun u => u.1.isAts)
  let s1 := s.modTile t (fun T => { T with tlb := (us.filter (fun u => !u.1.isAts)).foldl (tlbNote 64) T.tlb })
  if ats.isEmpty then s1 else s1.noteCluster (clusterOf t) ats

/-- The pieces of a scratchpad access (R42). -/
def spadAccess (cluster : Nat) (off n : Nat) : Except AccFault (List Piece) :=
  if off + n > 2 ^ 21 then .error { cause := 6, addr := BitVec.ofNat 64 off, pri := none }
  else .ok ((split off n).map (fun p => { key := spadKey cluster p.1, size := p.2, home := .near }))

/-- The device sends one PRI request per page and context while none is outstanding, from whichever die (R62). -/
def priRequest (s : State) (die ctxid : Nat) (pri : Option Nat) : State :=
  match pri with
  | none => s
  | some page =>
    if (List.range dieCount).any (fun d => (s.die d).pri.contains (ctxid, page)) then s
    else (s.modDie die (fun D => { D with pri := D.pri ++ [(ctxid, page)] })).send (.pri die ctxid page)

/-! ### Performing accesses -/

/-- Number that stands for a home in another package among the homes of requests. -/
def outHome : Nat := dieCount

/-- A link of a die. -/
def Die.link (D : Die) (l : Nat) : Link := D.links.get Link.reset l
/-- Put a link. -/
def Die.setLink (D : Die) (l : Nat) (x : Link) : Die := { D with links := D.links.put l x }

/-- The dies that a route visits one after another: first along the row, then along the column (R43, R198). DEDUCED, log entry 64. -/
def diePath : Nat → Nat → Nat → List (Nat × Nat)
  | 0, _, _ => []
  | n + 1, a, b =>
    if a = b then []
    else
      let c := if a % 6 < b % 6 then a + 1 else if b % 6 < a % 6 then a - 1 else if a < b then a + 6 else a - 6
      (a, c) :: diePath n c b

/-- The side of a die that a link leaves: left, right, up, down. -/
def linkSide (die link : Nat) : Fin 4 := Config.linkOrder die (Fin.ofNat 4 link)
/-- The die that a link leads to. -/
def linkPeer (die link : Nat) : Nat :=
  match (linkSide die link).val with
  | 0 => die - 1
  | 1 => die + 1
  | 2 => die - 6
  | _ => die + 6

/-- Is a die-to-die link the step from a die to the next, in either direction? -/
def isHop (h : Nat × Nat) (die link : Nat) : Bool := h = (die, linkPeer die link) || h = (linkPeer die link, die)
/-- Does it lie on the route between two dies? -/
def onRoute (a b die link : Nat) : Bool := (diePath 8 a b).any (fun h => isHop h die link)

/-- Do two dies stand beside each other on the 6 × 4 grid of R10? -/
def adjacentDies (a b : Nat) : Bool :=
  (a / 6 = b / 6 && (a % 6 = b % 6 + 1 || b % 6 = a % 6 + 1)) || (a % 6 = b % 6 && (a / 6 = b / 6 + 1 || b / 6 = a / 6 + 1))

/-- The side across from one. -/
def acrossSide (side : Fin 4) : Fin 4 := match side.val with | 0 => 1 | 1 => 0 | 2 => 3 | _ => 2
/-- The link of the die at the other end that leads back, where a die stands there. -/
def linkBack (die link : Nat) : Option Nat :=
  let peer := linkPeer die link
  if adjacentDies die peer && peer < dieCount then some ((Config.linkOrder peer).symm (acrossSide (linkSide die link))).val else none

/-- Does an end of the link of a step satisfy p? -/
def hopAny (s : State) (p : Link → Bool) (h : Nat × Nat) : Bool := s.dies.any (fun d => d.2.links.any (fun l => p l.2 && isHop h d.1 l.1))
/-- Does a link carry no packets now: dead, draining, not trained, or with injection paused (R389, R398)? -/
def Link.barred (l : Link) : Bool := l.dead || l.draining || l.paused || !l.up

/-- The dies that recomputed overrides reach from some, over links that carry packets (R398). -/
def detours (s : State) : Nat → List Nat → List Nat
  | 0, l => l
  | n + 1, l => detours s n (l ++ (List.range dieCount).filter (fun d =>
      !l.contains d && l.any (fun c => adjacentDies c d && !hopAny s Link.barred (c, d))))

/-- Can packets go from a die to another: no link of their route is being drained, or has the injection across it paused (R398)? Once overrides
avoid a link of that route, packets take a detour, whose links must carry packets in their turn. DEDUCED, log entry 64. -/
def routeOpen (s : State) (a b : Nat) : Bool :=
  let hops := diePath 8 a b
  if hops.any (hopAny s (·.avoided)) then (detours s dieCount [a]).contains b
  else !(hops.any (hopAny s (fun l => l.draining || l.paused)))

/-- The late reply of a load that a tile has reported as lost is dropped and counted (R399). -/
def lateReply (s : State) (t : Nat) : Act :=
  when ((s.tile t).lostLoads != 0) s
    (.go ((s.modTile t (fun T => { T with lostLoads := T.lostLoads - 1 })).modDie (dieOf t) (fun D => { D with staleReplies := sat32 (D.staleReplies + 1) })) [])

/-- Has a home applied the writes that the clock of a die covers (R75), and does a packet reach it (R398)? -/
def caughtUp (s : State) (die : Nat) (home : Home) : Bool :=
  match home with
  | .die h => covered s h (s.die die).clock && routeOpen s die h
  | .outside => covered s outHome (s.die die).clock
  | .near => true

/-- Can a home serve an access of a die now (R75)? One to a copy that has been dropped goes to the home copy (R61); to and from another package
the request and its response pass the port (R390, R391). -/
def servable (s : State) (die : Nat) (p : Piece) : Bool :=
  let key := readKey s p
  caughtUp s die (match dupOf s p with | some _ => keyHome s key | none => p.home) && (keyKind key != 4 || portOpen s (domainSpot key).1)

/-- A die merges a clock into its own (R75). -/
def mergeClock (s : State) (die : Nat) (c : List Nat) : State := s.modDie die (fun D => { D with clock := clockJoin D.clock c })

/-- A UPLI request goes to a domain endpoint and its response comes back (R390, R391). -/
def State.ask (s : State) (e : Nat) (m : Message) : State := (s.leave e m).heard e

/-- The pieces of a read that lie in other packages are asked for by UPLI read requests (R390). -/
def askReads (s : State) (ps : List Piece) : State :=
  (ps.filter (fun p => keyKind p.key = 4)).foldl (fun s p => s.ask (domainSpot p.key).1 (.upliRead (domainSpot p.key).1 (domainSpot p.key).2 p.size)) s

/-- After a read, the reader's die merges the clock of what it read (R75). -/
def mergeRead (s : State) (die : Nat) (ps : List Piece) : State :=
  askReads (s.modDie die (fun D => { D with clock := ps.foldl (fun c p => clockJoin c (stampOf s (readKey s p) p.size)) D.clock })) ps

/-- The dies whose copy of a duplicated page must still be dropped before a write of a die (R61). -/
def dupHolders (d : Dup) (die : Nat) : List Nat :=
  (d.copies.map (fun c => c.1)).filter (fun h => h != die && !d.dropped.contains h)

/-- The writer's own copy is invalidated when its write becomes pending (R61). -/
def dropCopy (p : Pkg) (d : Dup) (die : Nat) : Pkg :=
  { p with dups := p.dups.map (fun e =>
      if e.ctxid = d.ctxid && e.page = d.page && !e.dropped.contains die then { e with dropped := e.dropped ++ [die] } else e) }

/-- Does a write lie in a duplicated page? -/
def Dup.holds (d : Dup) (r : Req) : Bool := d.homeKey ≤ r.piece.key && r.piece.key < d.homeKey + 2 ^ r.piece.dup

/-- The UPLI request by which a write or an atomic of a piece goes to another package (R390). -/
def sendUpli (s : State) (p : Piece) (amo : Option Nat) (data : List Byte) : State :=
  if keyKind p.key != 4 then s
  else
    let x := domainSpot p.key
    s.leave x.1 (match amo with | some op => .upliAtomic x.1 x.2 op p.size (leNat data) 0 | none => .upliWrite x.1 x.2 data)

/-- Number a write of a die (R75): its clock's own entry rises by one. -/
def nextClock (s : State) (die : Nat) : List Nat × Nat :=
  let c := (s.die die).clock
  let n := clockAt c die + 1
  (clockSet c die n, n)

/-- A request leaves a die (R75, R61). -/
def sendReq (s : State) (t : Nat) (round : Option RoundWrite) (home : Nat) (p : Piece) (data : List Byte) (amo : Option Nat)
    (addr : Word) (holders : List Nat) : State :=
  let die := dieOf t
  let (c, n) := nextClock s die
  let r : Req :=
    { id := s.pkg.reqNo, src := die, home := home, clock := (s.die die).clock, no := n, tile := t, round := round,
      piece := p, data := data, amo := amo, cmd := none, addr := addr, since := s.now, retries := 0, holders := holders, dropped := [] }
  (s.modDie die (fun D => { D with clock := c })).modPkg (fun k => { k with reqs := k.reqs ++ [r], reqNo := k.reqNo + 1 })

/-- A store of one piece by a tile reaches its home (R65, R75): at once when the home is the tile's own die, its cluster,
its private memory or the host's or a pool's memory (its bytes then carry the clock of the writes before it); as a request to another die or
package; as a pending write to a duplicated page (R61). None: the home must wait for writes that the clock covers. -/
def performStore (s : State) (t : Nat) (round : Option RoundWrite) (p : Piece) (data : List Byte) (addr : Word) :
    Option (State × List (Nat × Byte)) :=
  let die := dieOf t
  match dupOf s p with
  | some (d, _, off) =>
    let h := match keyHome s d.homeKey with | .die h => h | _ => die
    some (sendReq { s with pkg := dropCopy s.pkg d die } t round h { p with key := d.homeKey + off, home := .die h } data none
      addr (dupHolders d die), [])
  | none =>
    match p.home with
    | .die h =>
      if h = die then
        if servable s die p then
          let (c, _) := nextClock s die
          some ((s.modDie die (fun D => { D with clock := c })).modPkg (fun k => stampAll k p.key p.size c), putBytes p.key data)
        else none
      else some (sendReq s t round h p data none addr [], [])
    | .outside =>
      if keyKind p.key = 4 then some (sendReq (sendUpli s p none data) t round outHome p data none addr [], [])
      else some (s.modPkg (fun k => stampAll k p.key p.size (s.die die).clock), putBytes p.key data)
    | .near => some (s, putBytes p.key data)

/-- Is a request a write of a tile's sequencer, of no round and no command? -/
def Req.ofSeq (r : Req) (t : Nat) : Bool := r.tile = t && r.round.isNone && r.cmd.isNone
/-- Has a tile a store of its sequencer that is write-pending on a duplicated page, and so not performed at any scope (R61)? -/
def writePending (s : State) (t : Nat) : Bool := s.pkg.reqs.any (fun r => r.ofSeq t && r.pends)
/-- Has it such a write of a committed round that satisfies p? -/
def roundPending (s : State) (t : Nat) (p : RoundWrite → Bool) : Bool := s.pkg.reqs.any (fun r => r.tile = t && r.pends && r.round.any p)
/-- Is such a write of its sequencer, or of a round, pending on bytes that pieces read (R66, R67, R68)? DEDUCED, log entry 98. -/
def pendingOn (s : State) (t : Nat) (round : Bool) (ps : List Piece) : Bool :=
  s.pkg.reqs.any (fun r => r.pends && (if round then r.tile = t && r.round.isSome else r.ofSeq t) &&
    ps.any (fun q => overlap r.piece.key r.data.length (readKey s q) q.size))

/-- Has a tile stores of its sequencer or its rounds that no home has applied yet, for scopes wider than the die (R69, R75)? -/
def inFlight (s : State) (t : Nat) : Bool := s.pkg.reqs.any (fun r => r.tile = t && r.cmd.isNone)
/-- Has it such stores of its rounds? -/
def roundsInFlight (s : State) (t : Nat) : Bool := s.pkg.reqs.any (fun r => r.tile = t && r.round.isSome)

/-- A scope wider than the die (R69). -/
def wideScope (scope : Nat) : Bool := scope ≥ 4

/-! ### Read-modify-write (R163, R237) -/

/-- The new value of an atomic at width w bits (R163): t the operand, c the compare value. -/
def amoNew (op w old t c : Nat) : Nat :=
  let o := signedOf w old
  let v := signedOf w t
  match op with
  | 0 => t
  | 1 => (old + t) % 2 ^ w
  | 2 => old &&& t
  | 3 => old ||| t
  | 4 => old ^^^ t
  | 5 => if o ≤ v then old else t
  | 6 => if o ≥ v then old else t
  | 7 => min old t
  | 8 => max old t
  | 9 => if old = c then t else old
  | 11 => t
  | _ => old

/-- An atomic of a tile performed at the home of a piece as one event (R79): the old value, the state, the write. None: the
home must wait (R75), or holders of a duplicated page must drop their copies first, or earlier writes of the die to the page are
pending (R61). -/
def performAmo (s : State) (t : Nat) (p : Piece) (op tv cv : Nat) : Option (Nat × State × List (Nat × Byte)) :=
  let die := dieOf t
  let key := readKey s p
  let stuck := match dupOf s p with
    | some (d, _, _) => !(d.copies.all (fun c => d.dropped.contains c.1)) || s.pkg.reqs.any (fun r => r.src = die && r.pends && d.holds r)
    | none => false
  if stuck || !servable s die p then none
  else
    let old := s.mem.nat key p.size
    let new := amoNew op (8 * p.size) old tv cv
    let (c, _) := nextClock s die
    let c1 := clockJoin c (stampOf s key p.size)
    match p.home with
    | .near => some (old, s, putBytes key (leBytes p.size new))
    | _ =>
      let s1 := if keyKind key = 4 then s.ask (domainSpot key).1 (.upliAtomic (domainSpot key).1 (domainSpot key).2 op p.size tv cv) else s
      some (old, (s1.modDie die (fun D => { D with clock := c1 })).modPkg (fun k => stampAll k key p.size c1),
        putBytes key (leBytes p.size new))

end Sys2Proof.Machine
end

