-- ==== Sys2Proof/Machine/SeqMem.lean ====
section
/-! DEFINITION. Sequencer loads, stores, atomics and fences (R159 to R166), and the return of loads and the draining of the
store queue (R160). -/

namespace Sys2Proof.Machine

/-! ### Shared operations -/

/-- The die of the tile in focus. -/
def focusDie (s : State) : Nat := dieOf s.focus.tile

/-- The pieces of an LV access by the sequencer in focus, through the tile TLB (R48, R159), and the state with the TLB
filled. -/
def seqLv (s : State) (a : Word) (n : Nat) (wr : Bool) : Except AccFault (List Piece × State) :=
  let T := s.tile s.focus.tile
  match lvAccess s (clusterOf s.focus.tile) T.selected T.tlb a n wr with
  | .error f => .error f
  | .ok (ps, us) => .ok (ps, s.noteTile s.focus.tile us)

/-- The trap of a faulting access (R51, R62, R159): tval is the address. -/
def accTrap (s : State) (f : AccFault) (xa : Word) : Act :=
  trapAct (priRequest s (focusDie s) (s.tile s.focus.tile).selected.ctxid.toNat f.pri) f.cause f.addr xa

/-- The value that bytes give a register (R159). -/
def extend (bs : List Byte) (sgn : Bool) : Word :=
  if sgn then ofInt (signedOf (8 * bs.length) (leNat bs)) else BitVec.ofNat 64 (leNat bs)

/-- A load joins the loads that have not returned (R160). -/
def addLoad (s : State) (d : Reg) (ps : List Piece) (sgn : Bool) (value : Option Word) (addr : Word) : State :=
  s.modSeq s.focus.tile (fun q =>
    { q with loads := q.loads ++ [{ no := q.no, d := d, pieces := ps, got := [], sgn := sgn, value := value, addr := addr, since := s.now, retries := 0 }],
             no := q.no + 1 })

/-- The entries of a store: one per piece (R159). -/
def storePieces (no : Nat) (addr : Word) (data : List Byte) : List Piece → Nat → List SeqStore
  | [], _ => []
  | p :: r, i =>
    { no := no, piece := p, data := (data.drop i).take p.size, addr := addr + BitVec.ofNat 64 i } ::
      storePieces no addr data r (i + p.size)

/-- A store enters the store queue, or waits while the queue is full (R160). -/
def queueStore (s0 s : State) (ps : List Piece) (addr : Word) (data : List Byte) : Act :=
  let q := (s.tile s.focus.tile).seq
  when (q.queue.length + ps.length ≤ 16) s0
    (.go (next (s.modSeq s.focus.tile (fun q =>
      { q with queue := q.queue ++ storePieces q.no addr data ps 0, no := q.no + 1 }))) [])

/-! ### LV loads and stores (R159) -/

/-- An LV load. -/
def loadOp (s : State) (d base : Reg) (imm : BitVec 16) (n : Nat) (sgn : Bool) : Host.Outcome State Fault Refusal :=
  let a := s.x base + sext imm
  seqOp s [d, base] (match seqLv s a n false with
    | .error f => accTrap s f (s.x base)
    | .ok (ps, s1) => .go (next (addLoad s1 d ps sgn none a)) [])

/-- An LV store: d is the data register. -/
def storeOp (s : State) (d base : Reg) (imm : BitVec 16) (n : Nat) : Host.Outcome State Fault Refusal :=
  let a := s.x base + sext imm
  seqOp s [d, base] (match seqLv s a n true with
    | .error f => accTrap s f (s.x base)
    | .ok (ps, s1) => queueStore s s1 ps a (leBytes n (s.x d).toNat))

/-- ld.i8 (R159). -/
def execLdI8 (d base : Reg) (imm : BitVec 16) (s : State) : Host.Outcome State Fault Refusal := loadOp s d base imm 1 true
/-- ld.i16 (R159). -/
def execLdI16 (d base : Reg) (imm : BitVec 16) (s : State) : Host.Outcome State Fault Refusal := loadOp s d base imm 2 true
/-- ld.i32 (R159). -/
def execLdI32 (d base : Reg) (imm : BitVec 16) (s : State) : Host.Outcome State Fault Refusal := loadOp s d base imm 4 true
/-- ld.64 (R159). -/
def execLd64 (d base : Reg) (imm : BitVec 16) (s : State) : Host.Outcome State Fault Refusal := loadOp s d base imm 8 false
/-- ld.n8 (R159). -/
def execLdN8 (d base : Reg) (imm : BitVec 16) (s : State) : Host.Outcome State Fault Refusal := loadOp s d base imm 1 false
/-- ld.n16 (R159). -/
def execLdN16 (d base : Reg) (imm : BitVec 16) (s : State) : Host.Outcome State Fault Refusal := loadOp s d base imm 2 false
/-- ld.n32 (R159). -/
def execLdN32 (d base : Reg) (imm : BitVec 16) (s : State) : Host.Outcome State Fault Refusal := loadOp s d base imm 4 false
/-- st.8 (R159). -/
def execSt8 (d base : Reg) (imm : BitVec 16) (s : State) : Host.Outcome State Fault Refusal := storeOp s d base imm 1
/-- st.16 (R159). -/
def execSt16 (d base : Reg) (imm : BitVec 16) (s : State) : Host.Outcome State Fault Refusal := storeOp s d base imm 2
/-- st.32 (R159). -/
def execSt32 (d base : Reg) (imm : BitVec 16) (s : State) : Host.Outcome State Fault Refusal := storeOp s d base imm 4
/-- st.64 (R159). -/
def execSt64 (d base : Reg) (imm : BitVec 16) (s : State) : Host.Outcome State Fault Refusal := storeOp s d base imm 8

/-! ### Scratchpad and private accesses (R162) -/

/-- Size in bytes of an access kind (R162). -/
def kindSize (k : BitVec 3) : Nat := match k.toNat with | 0 | 4 => 1 | 1 | 5 => 2 | 2 | 6 => 4 | _ => 8
/-- Sign-extending kinds (R162). -/
def kindSigned (k : BitVec 3) : Bool := k.toNat < 3
/-- x[a] + sext6(off) × size, modulo 2 to the width of the space (R162). -/
def spadAddr (s : State) (a : Reg) (off : BitVec 6) (kind : BitVec 3) (width : Nat) : Nat :=
  (s.x a + BitVec.ofNat 64 (kindSize kind) * sext off).toNat % 2 ^ width

/-- lds (R162): a pending load of the cluster's scratchpad. -/
def execLds (d a : Reg) (off : BitVec 6) (kind : BitVec 3) (s : State) : Host.Outcome State Fault Refusal :=
  let o := spadAddr s a off kind 21
  seqOp s [d, a] (match spadAccess (clusterOf s.focus.tile) o (kindSize kind) with
    | .error f => accTrap s f (s.x a)
    | .ok ps => .go (next (addLoad s d ps (kindSigned kind) none (BitVec.ofNat 64 o))) [])

/-- sts (R162): through the store queue. -/
def execSts (a b : Reg) (off : BitVec 6) (kind : BitVec 3) (s : State) : Host.Outcome State Fault Refusal :=
  let o := spadAddr s a off kind 21
  seqOp s [a, b] (match spadAccess (clusterOf s.focus.tile) o (kindSize kind) with
    | .error f => accTrap s f (s.x a)
    | .ok ps => queueStore s s ps (BitVec.ofNat 64 o) (leBytes (kindSize kind) (s.x b).toNat))

/-- ldp (R162): private memory answers at once. -/
def execLdp (d a : Reg) (off : BitVec 6) (kind : BitVec 3) (s : State) : Host.Outcome State Fault Refusal :=
  let o := spadAddr s a off kind 16
  let n := kindSize kind
  seqOp s [d, a] (if o + n > 0x10000 then trapAct s 7 (BitVec.ofNat 64 o) (s.x a)
    else .go (writeNext s d (extend (s.mem.bytes (privKey s.focus.tile o) n) (kindSigned kind))) [])

/-- stp (R162, R136): private memory changes at once, for every later fetch. DEDUCED, log entry 75. -/
def execStp (a b : Reg) (off : BitVec 6) (kind : BitVec 3) (s : State) : Host.Outcome State Fault Refusal :=
  let o := spadAddr s a off kind 16
  let n := kindSize kind
  seqOp s [a, b] (if o + n > 0x10000 then trapAct s 7 (BitVec.ofNat 64 o) (s.x a)
    else .go (next s) (putBytes (privKey s.focus.tile o) (leBytes n (s.x b).toNat)))

/-! ### Atomics and ordered accesses (R163, R164) -/

/-- Does a release fence still concern the access of a number: a store before the fence has not left the queue, or, of a scope wider than the
die, not been applied at its home (R68, R70)? -/
def fenced (s : State) (t no : Nat) : Bool :=
  let q := (s.tile t).seq
  q.fences.any (fun f => decide (f.1 ≤ no) && (q.queue.any (fun e => decide (e.no < f.1)) || writePending s t || (f.2 && inFlight s t)))

/-- Has a sequencer a load whose value is not bound? -/
def Seq.unbound (q : Seq) : Bool := q.loads.any (fun l => l.value.isNone)

/-- Is an earlier access of a sequencer to the bytes of a piece still to be performed (R68)? -/
def Seq.touches (q : Seq) (p : Piece) : Bool :=
  q.queue.any (fun e => e.piece.meets p) || q.loads.any (fun l => l.value.isNone && l.pieces.any (·.meets p))

/-- May an atomic or ordered access of the sequencer be performed now (R68)? Earlier accesses to its bytes have been
performed; a store-like access follows every earlier load and release fence; a release follows everything. -/
def amoReady (s : State) (t : Nat) (p : Piece) (stores rel wide : Bool) : Bool :=
  let q := (s.tile t).seq
  !q.touches p && (!stores || (!q.unbound && !fenced s t q.no)) &&
  (!rel || (q.queue.isEmpty && !q.unbound && !writePending s t && !(wide && inFlight s t)))

/-- Is everything before a release of the sequencer visible at its scope: its loads bound, its stores performed (R68, R72)? -/
def released (s : State) (t : Nat) (wide : Bool) : Bool :=
  let q := (s.tile t).seq
  q.queue.isEmpty && !q.unbound && !writePending s t && !(wide && inFlight s t)

/-- A duplicated page under an atomic: its other holders are told to drop their copies (R61). -/
def dropHolders (s : State) (t : Nat) (p : Piece) (addr : Word) : State :=
  match dupOf s p with
  | some (d, _, off) =>
    if dupHolders d (dieOf t) = [] then { s with pkg := dropCopy s.pkg d (dieOf t) }
    else if s.pkg.reqs.any (fun r => r.tile = t && r.data.isEmpty && r.piece.key = d.homeKey + off) then s
    else sendReq { s with pkg := dropCopy s.pkg d (dieOf t) } t none (dieOf t) { p with key := d.homeKey + off } [] none addr
      (dupHolders d (dieOf t))
  | none => s

/-- The piece of an atomic: alignment before translation, permission last (R164, R410). -/
def amoPiece (s : State) (a : Word) (n : Nat) (space : Bool) (wr : Bool) : Except AccFault (Piece × State) :=
  if space then
    let o := a.toNat % 2 ^ 21
    if o + n > 2 ^ 21 then .error { cause := 6, addr := BitVec.ofNat 64 o, pri := none }
    else if o % n != 0 then .error { cause := 8, addr := BitVec.ofNat 64 o, pri := none }
    else .ok ({ key := spadKey (clusterOf s.focus.tile) o, size := n, home := .near }, s)
  else if notLv a then .error { cause := 5, addr := a, pri := none }
  else if a.toNat % n != 0 then .error { cause := 8, addr := a, pri := none }
  else match seqLv s a n wr with
    | .error f => .error f
    | .ok ([p], s1) => .ok (p, s1)
    | .ok _ => .error { cause := 8, addr := a, pri := none }

/-- An atomic or ordered access: performed at the home as one event, its reply returns later (R160, R163, R164). -/
def atomicOp (s : State) (d : Option Reg) (a b : Reg) (c : Word) (scope ord wide op : Nat) (space : Bool) :
    Host.Outcome State Fault Refusal :=
  let t := s.focus.tile
  let n := if wide = 1 then 8 else 4
  let m := 2 ^ (8 * n)
  seqOp s ([a, b] ++ d.toList) (match amoPiece s (s.x a) n space (op != 10) with
    | .error f => accTrap s f (s.x a)
    | .ok (p, s1) =>
      when (amoReady s t p (op != 10) (2 ≤ ord) (wideScope scope)) s
        (match performAmo s1 t p op ((s.x b).toNat % m) (c.toNat % m) with
         | none => .go (dropHolders s t p (s.x a)) []
         | some (old, s2, ws) =>
           match d with
           | some r => .go (next (addLoad s2 r [p] false (some (BitVec.ofNat 64 old)) (s.x a))) (if op = 10 then [] else ws)
           | none => .go (next s2) ws))

/-- amo.op (R163): c is read from d before d is written. -/
def execAmo (d a b : Reg) (scope : BitVec 3) (ord : BitVec 2) (wide : BitVec 1) (op : BitVec 4) (s : State) :
    Host.Outcome State Fault Refusal := atomicOp s (some d) a b (s.x d) scope.toNat ord.toNat wide.toNat op.toNat false
/-- amos.op (R163): at the cluster's scratchpad. -/
def execAmos (d a b : Reg) (scope : BitVec 3) (ord : BitVec 2) (wide : BitVec 1) (op : BitVec 4) (s : State) :
    Host.Outcome State Fault Refusal := atomicOp s (some d) a b (s.x d) scope.toNat ord.toNat wide.toNat op.toNat true
/-- amo.ld and amos.ld (R163): an acquire load. -/
def execAmoLd (d a : Reg) (scope : BitVec 3) (wide space : BitVec 1) (s : State) : Host.Outcome State Fault Refusal :=
  atomicOp s (some d) a 0 0 scope.toNat 1 wide.toNat 10 (space = 1)
/-- amo.st and amos.st (R163): a release store. -/
def execAmoSt (a b : Reg) (scope : BitVec 3) (wide space : BitVec 1) (s : State) : Host.Outcome State Fault Refusal :=
  atomicOp s none a b 0 scope.toNat 2 wide.toNat 11 (space = 1)

/-! ### Fences (R165, R166) -/

/-- May a fence complete? Every earlier load is bound; a release follows the held stores of the committed rounds that this sequencer
started (R68, R166). DEDUCED, log entry 33. -/
def fenceReady (s : State) (t scope ord : Nat) : Bool :=
  let T := s.tile t
  !T.seq.unbound && (ord < 2 || (!(T.drain.any (·.bySeq)) && !roundPending s t (·.bySeq) && !(wideScope scope && roundsInFlight s t)))

/-- A release fence stays while earlier stores stand in the queue or on their way: later stores and atomics wait for them, later loads do
not (R68). -/
def addFence (s : State) (t : Nat) (wide : Bool) : State :=
  s.modSeq t (fun q => if q.queue.isEmpty && !writePending s t && !(wide && inFlight s t) then q else { q with fences := q.fences ++ [(q.no, wide)] })

/-- fence (R165, R166). -/
def execFence (scope : BitVec 3) (ord : BitVec 2) (s : State) : Host.Outcome State Fault Refusal :=
  let t := s.focus.tile
  seqOp s [] (when (fenceReady s t scope.toNat ord.toNat) s
    (.go (next (if ord.toNat < 2 then s else addFence s t (wideScope scope.toNat))) []))

/-! ### Returning loads and the store queue (R160) -/

/-- The byte of the youngest store of the queue, older than a load, that covers a key (R160). -/
def queueByte (q : List SeqStore) (no key : Nat) : Option Byte :=
  q.foldl (fun acc e =>
    if e.no < no && e.piece.key ≤ key && key < e.piece.key + e.piece.size then e.data[key - e.piece.key]? else acc) none

/-- The bytes of a piece of a load: forwarded from the queue, else from memory (R160). -/
def seqPieceBytes (s : State) (q : Seq) (no : Nat) (p : Piece) : List Byte :=
  (List.range p.size).map (fun i => match queueByte q.queue no (p.key + i) with | some b => b | none => s.pieceByte p i)

/-- May a piece of a load be read? Not before an earlier access to overlapping bytes (R68), nor before its home may serve it (R75). -/
def pieceReady (s : State) (t no : Nat) (p : Piece) : Bool :=
  servable s (dieOf t) p && !pendingOn s t false [p] &&
  !((s.tile t).seq.loads.any (fun m => decide (m.no < no) && m.value.isNone && m.pieces.any (·.meets p)))

/-- A load's value binds d. -/
def bindLoad (s : State) (t i : Nat) (l : SeqLoad) (v : Word) : State :=
  s.modSeq t (fun q => { q.set l.d v with loads := q.loads.eraseIdx i })

/-- A load's next piece is read; with the last its value returns and binds d (R78, R160). DESIGN CHOICE, log entry 32. -/
def execLoadValueReturn (tile load : Nat) (s : State) : Host.Outcome State Fault Refusal :=
  perform s (within (tile < tileCount) (
    let q := (s.tile tile).seq
    match q.loads[load]? with
    | none => lateReply s tile
    | some l =>
      match l.value, l.pieces with
      | some v, _ => .go (bindLoad s tile load l v) []
      | none, [] => .go (bindLoad s tile load l (extend l.got l.sgn)) []
      | none, p :: rest =>
        when (pieceReady s tile l.no p) s
          (let bs := l.got ++ seqPieceBytes s q l.no p
           .go (mergeRead (if rest.isEmpty then bindLoad s tile load l (extend bs l.sgn)
             else s.modSeq tile (fun q => { q with loads := q.loads.modify load (fun l => { l with pieces := rest, got := bs }) }))
             (dieOf tile) [p]) [])))

/-- May the i-th queued store leave? Not before an earlier store of overlapping bytes, an earlier piece of the same store, or a store that a
release fence orders before it, nor before the value of every earlier load is bound (R68, R76, R78, R160). -/
def drainReady (s : State) (t i : Nat) (e : SeqStore) : Bool :=
  let q := (s.tile t).seq
  !(q.loads.any (fun l => decide (l.no < e.no) && l.value.isNone)) && !fenced s t e.no &&
  !((q.queue.take i).any (fun f => f.piece.meets e.piece || decide (f.no = e.no)))

/-- Forget the release fences that concern nothing any more. -/
def dropFences (s : State) (t : Nat) : State :=
  s.modSeq t (fun q => { q with fences := q.fences.filter (fun f => q.queue.any (fun e => decide (e.no < f.1)) || writePending s t || (f.2 && inFlight s t)) })

/-- A queued store leaves for memory (R160). -/
def execStoreQueueDrain (tile entry : Nat) (s : State) : Host.Outcome State Fault Refusal :=
  perform s (within (tile < tileCount) (
    let q := (s.tile tile).seq
    match q.queue[entry]? with
    | none => idle s
    | some e =>
      when (drainReady s tile entry e) s
        (match performStore s tile none e.piece e.data e.addr with
         | none => idle s
         | some (s1, ws) => .go (dropFences (s1.modSeq tile (fun q => { q with queue := q.queue.eraseIdx entry })) tile) ws)))

end Sys2Proof.Machine
end

