-- ==== Sys2Proof/Decode.lean ====
section
/-! DEFINITION. The decoder and the encoder of sequencer words (R140 to R144), slot words (R189 to R194) and
configuration commands (R123, R124), written from the encoding tables. The decoder is total and rejects by name. -/

namespace Sys2Proof

open Sys2Proof.Machine

/-- Why a word is no instruction. The sequencer takes the illegal-instruction trap for each of the first nine (R144,
R299); a slot word or a configuration command so rejected rejects its stream (R126, R194). -/
inductive DecodeError
  | reservedMajor | unassignedFunction | reservedField | reservedScope | illegalOrder | reservedKind | reservedEngine
  | unassignedCommand | systemRegister
  | reservedCommand | short
  | slot (why : SlotError)
deriving DecidableEq, Repr

/-- Is a system-register number assigned (R138)? -/
def sysAssigned (n : Nat) : Bool :=
  n ∈ [0x000, 0x001, 0x002, 0x003, 0x010, 0x011, 0x020, 0x021, 0x022, 0x023, 0x024, 0x025, 0x030, 0x031, 0x032, 0x033, 0x034,
    0x035] || (0x800 ≤ n && n ≤ 0x8FF)

/-- Is a system register read-only in both modes (R138)? -/
def sysReadOnly (n : Nat) : Bool := n ≤ 0x003 || 0x800 ≤ n

/-- A guard of the decoder. -/
def need (c : Bool) (e : DecodeError) (i : Instr) : Except DecodeError Instr := if c then .ok i else .error e

/-- Scope codes 0 to 6 (R69). -/
def scopeOk (s : BitVec 3) : Bool := s != 7

/-- The order and scope fields of an atomic or ordered access (R163): with order 00 the scope field is reserved. -/
def amoOrderOk (o : BitVec 2) (s : BitVec 3) : Bool := if o = 0 then s == 0 else scopeOk s

/-- Load kinds of R162: 111 is reserved. -/
def loadKindOk (k : BitVec 3) : Bool := k != 7
/-- Store kinds of R162: 000 to 011. -/
def storeKindOk (k : BitVec 3) : Bool := k.toNat < 4

/-- The flags field of issue (R179): with both flag bits zero the scope bits are reserved, and scope 0b111 is illegal. -/
def issueFlagsOk (f : BitVec 5) : Bool :=
  if f.toNat % 4 = 0 then f == 0 else f.toNat / 4 != 7

/-- The ALU group (R146). -/
def decodeAlu (d a b : Reg) (fn : Nat) : Except DecodeError Instr :=
  match fn with
  | 0x0 => .ok (.add d a b)
  | 0x1 => .ok (.sub d a b)
  | 0x2 => .ok (.and d a b)
  | 0x3 => .ok (.or d a b)
  | 0x4 => .ok (.xor d a b)
  | 0x5 => .ok (.sll d a b)
  | 0x6 => .ok (.srl d a b)
  | 0x7 => .ok (.sra d a b)
  | 0x8 => .ok (.slt d a b)
  | 0x9 => .ok (.sltu d a b)
  | 0xA => .ok (.min d a b)
  | 0xB => .ok (.max d a b)
  | 0xC => .ok (.minu d a b)
  | 0xD => .ok (.maxu d a b)
  | 0xE => .ok (.xadd2 d a b)
  | 0xF => .ok (.xadd4 d a b)
  | 0x10 => .ok (.xadd8 d a b)
  | 0x11 => .ok (.sadd d a b)
  | 0x18 => .ok (.mul d a b)
  | 0x19 => .ok (.mulh d a b)
  | 0x1A => .ok (.mulhu d a b)
  | 0x1C => .ok (.div d a b)
  | 0x1D => .ok (.divu d a b)
  | 0x1E => .ok (.rem d a b)
  | 0x1F => .ok (.remu d a b)
  | 0x20 => need (b == 0) .reservedField (.clz d a)
  | 0x21 => need (b == 0) .reservedField (.ctz d a)
  | 0x22 => need (b == 0) .reservedField (.popc d a)
  | _ => .error .unassignedFunction

/-- The miscellaneous group (R152). -/
def decodeMisc (d a b : Reg) (fn : Nat) : Except DecodeError Instr :=
  match fn with
  | 0 => need (d == 0 && a == 0 && b == 0) .reservedField .nop
  | 1 => need (d == 0 && a == 0 && b == 0) .reservedField .ret
  | 2 => need (a == 0 && b == 0) .reservedField (.mflk d)
  | 3 => need (d == 0 && b == 0) .reservedField (.mtlk a)
  | _ => .error .unassignedFunction

/-- Scratchpad and private accesses (R162). -/
def decodeSpad (d a b : Reg) (fn : BitVec 11) : Except DecodeError Instr :=
  let off := fn.extractLsb' 5 6
  let kind := fn.extractLsb' 0 3
  match bit fn 4, bit fn 3 with
  | false, false => if loadKindOk kind then need (b == 0) .reservedField (.lds d a off kind) else .error .reservedKind
  | false, true => if storeKindOk kind then need (d == 0) .reservedField (.sts a b off kind) else .error .reservedKind
  | true, false => if loadKindOk kind then need (b == 0) .reservedField (.ldp d a off kind) else .error .reservedKind
  | true, true => if storeKindOk kind then need (d == 0) .reservedField (.stp a b off kind) else .error .reservedKind

/-- Atomics and ordered accesses (R163, R164). -/
def decodeAmo (d a b : Reg) (fn : BitVec 11) : Except DecodeError Instr :=
  let scope := fn.extractLsb' 8 3
  let ord := fn.extractLsb' 6 2
  let wide := fn.extractLsb' 5 1
  let space := fn.extractLsb' 4 1
  let op := fn.extractLsb' 0 4
  if op.toNat < 10 then
    if amoOrderOk ord scope then
      if space = 0 then .ok (.amo d a b scope ord wide op) else .ok (.amos d a b scope ord wide op)
    else .error .reservedScope
  else if op = 10 then
    if ord = 1 then
      if scopeOk scope then need (b == 0) .reservedField (.amoLd d a scope wide space) else .error .reservedScope
    else .error .illegalOrder
  else if op = 11 then
    if ord = 2 then
      if scopeOk scope then need (d == 0) .reservedField (.amoSt a b scope wide space) else .error .reservedScope
    else .error .illegalOrder
  else .error .unassignedFunction

/-- Fences (R165). -/
def decodeFence (d a b : Reg) (fn : BitVec 11) : Except DecodeError Instr :=
  let scope := fn.extractLsb' 8 3
  let ord := fn.extractLsb' 6 2
  if ord = 0 then .error .illegalOrder
  else if scope = 7 then .error .reservedScope
  else need (d == 0 && a == 0 && b == 0 && fn.extractLsb' 0 6 == 0) .reservedField (.fence scope ord)

/-- Synchronisation and tile control (R167). -/
def decodeSync (d a b : Reg) (fn : Nat) : Except DecodeError Instr :=
  match fn with
  | 0x0 => need (d == 0 && b == 0) .reservedField (.ctxSel a)
  | 0x1 => need (d == 0 && b == 0) .reservedField (.run a)
  | 0x2 => need (d == 0 && a == 0 && b == 0) .reservedField (.drain)
  | 0x3 => need (d == 0) .reservedField (.cfgs a b)
  | 0x10 => need (d == 0) .reservedField (.barInit a b)
  | 0x11 => need (d == 0) .reservedField (.barInitb a b)
  | 0x12 => need (b == 0) .reservedField (.barArr d a)
  | 0x13 => need (d == 0) .reservedField (.barWait a b)
  | 0x14 => need (b == 0) .reservedField (.barRd d a)
  | 0x20 => need (d == 0 && b == 0) .reservedField (.evSet a)
  | 0x21 => need (d == 0 && b == 0) .reservedField (.evClr a)
  | 0x22 => need (d == 0 && b == 0) .reservedField (.evWait a)
  | 0x23 => need (d == 0 && b == 0) .reservedField (.evTake a)
  | 0x28 => need (b == 0) .reservedField (.tlRd d a)
  | 0x29 => need (d == 0) .reservedField (.tlAdv a b)
  | 0x2A => need (d == 0) .reservedField (.tlWait a b)
  | 0x30 => need (b == 0) .reservedField (.evq d a)
  | 0x31 => need (b == 0) .reservedField (.evqW d a)
  | 0x38 => need (b == 0) .reservedField (.tlook d a)
  | 0x39 => need (d == 0) .reservedField (.tset a b)
  | 0x3A => need (d == 0 && b == 0) .reservedField (.tclr a)
  | _ => .error .unassignedFunction

/-- Port commands (R299): the sequencer decodes cmd itself, and flags are reserved. -/
def decodePort (cmd : Nat) (a b : Reg) : Except DecodeError Instr :=
  match cmd with
  | 1 => .ok (.spCfg a b)
  | 2 => .ok (.spHwm a b)
  | 3 => .ok (.spResv a b)
  | 4 => .ok (.spPub a b)
  | 5 => .ok (.spRel a b)
  | 6 => .ok (.spRew a b)
  | 7 => .ok (.spRdm a b)
  | 8 => .ok (.spQbind a b)
  | _ => .error .unassignedCommand

/-- issue (R179, R299). -/
def decodeIssue (eng : BitVec 3) (cmd : BitVec 8) (a b : Reg) (flags : BitVec 5) : Except DecodeError Instr :=
  if eng = 0 then (if flags = 0 then decodePort cmd.toNat a b else .error .reservedField)
  else if eng.toNat > 4 then .error .reservedEngine
  else if issueFlagsOk flags then .ok (.issue eng cmd a b flags)
  else .error .reservedScope

/-- Traps, return and end (R181). -/
def decodeTrap (d a b : Reg) (fn : Nat) : Except DecodeError Instr :=
  match fn with
  | 0 => need (d == 0 && b == 0) .reservedField (.trap a)
  | 1 => need (d == 0 && a == 0 && b == 0) .reservedField .eret
  | 2 => need (d == 0 && a == 0 && b == 0) .reservedField .seqEnd
  | _ => .error .unassignedFunction

/-- The sequencer's decoder (R140, R143, R144). -/
def decodeSeq (w : BitVec 32) : Except DecodeError Instr :=
  let d : Reg := w.extractLsb' 21 5
  let a : Reg := w.extractLsb' 16 5
  let b : Reg := w.extractLsb' 11 5
  let fn : BitVec 11 := w.extractLsb' 0 11
  let imm : BitVec 16 := w.extractLsb' 0 16
  let off : BitVec 26 := w.extractLsb' 0 26
  match (w.extractLsb' 26 6).toNat with
  | 0x01 => decodeAlu d a b fn.toNat
  | 0x02 => decodeMisc d a b fn.toNat
  | 0x3 => .ok (.addi d a imm)
  | 0x4 => .ok (.addi16 d a imm)
  | 0x5 => .ok (.addi32 d a imm)
  | 0x6 => .ok (.addi48 d a imm)
  | 0x7 => .ok (.andi d a imm)
  | 0x8 => .ok (.ori d a imm)
  | 0x9 => .ok (.xori d a imm)
  | 0xA => .ok (.slti d a imm)
  | 0xB => .ok (.sltiu d a imm)
  | 0xC => need (imm.extractLsb' 6 10 == 0) .reservedField (.slli d a (imm.extractLsb' 0 6))
  | 0xD => need (imm.extractLsb' 6 10 == 0) .reservedField (.srli d a (imm.extractLsb' 0 6))
  | 0xE => need (imm.extractLsb' 6 10 == 0) .reservedField (.srai d a (imm.extractLsb' 0 6))
  | 0xF => .ok (.saddi d a imm)
  | 0x10 => .ok (.beq d a imm)
  | 0x11 => .ok (.bne d a imm)
  | 0x12 => .ok (.blt d a imm)
  | 0x13 => .ok (.bge d a imm)
  | 0x14 => .ok (.bltu d a imm)
  | 0x15 => .ok (.bgeu d a imm)
  | 0x16 => .ok (.j off)
  | 0x17 => .ok (.jal off)
  | 0x18 => need (d == 0) .reservedField (.jr a imm)
  | 0x19 => need (d == 0) .reservedField (.jalr a imm)
  | 0x1A =>
    if a == 0 && imm.extractLsb' 12 4 == 0 then
      need (sysAssigned (imm.extractLsb' 0 12).toNat) .systemRegister (.mfs d (imm.extractLsb' 0 12))
    else .error .reservedField
  | 0x1B =>
    if d == 0 && imm.extractLsb' 12 4 == 0 then
      need (sysAssigned (imm.extractLsb' 0 12).toNat && !sysReadOnly (imm.extractLsb' 0 12).toNat) .systemRegister
        (.mts a (imm.extractLsb' 0 12))
    else .error .reservedField
  | 0x20 => .ok (.ldI8 d a imm)
  | 0x21 => .ok (.ldI16 d a imm)
  | 0x22 => .ok (.ldI32 d a imm)
  | 0x23 => .ok (.ld64 d a imm)
  | 0x24 => .ok (.ldN8 d a imm)
  | 0x25 => .ok (.ldN16 d a imm)
  | 0x26 => .ok (.ldN32 d a imm)
  | 0x28 => .ok (.st8 d a imm)
  | 0x29 => .ok (.st16 d a imm)
  | 0x2A => .ok (.st32 d a imm)
  | 0x2B => .ok (.st64 d a imm)
  | 0x2C => decodeSpad d a b fn
  | 0x2D => decodeAmo d a b fn
  | 0x2E => decodeFence d a b fn
  | 0x2F => decodeSync d a b fn.toNat
  | 0x30 => decodeIssue (w.extractLsb' 23 3) (w.extractLsb' 15 8) (w.extractLsb' 10 5) (w.extractLsb' 5 5) (w.extractLsb' 0 5)
  | 0x31 => decodeTrap d a b fn.toNat
  | _ => .error .reservedMajor

/-- The fabric row of an opcode (R193). -/
def fabInstr (op : Nat) (f : FabWord) : Option Instr :=
  match op with
  | 0x1 => some (.fabMov f)
  | 0x2 => some (.fabConst f)
  | 0x3 => some (.fabGrd f)
  | 0x4 => some (.fabVrd f)
  | 0x5 => some (.fabSel f)
  | 0x6 => some (.fabVsel f)
  | 0x7 => some (.fabVmov f)
  | 0x10 => some (.fabAdd f)
  | 0x11 => some (.fabSub f)
  | 0x12 => some (.fabAddi f)
  | 0x13 => some (.fabMul f)
  | 0x14 => some (.fabMulh f)
  | 0x15 => some (.fabDiv f)
  | 0x16 => some (.fabRem f)
  | 0x17 => some (.fabAnd f)
  | 0x18 => some (.fabOr f)
  | 0x19 => some (.fabXor f)
  | 0x1A => some (.fabShl f)
  | 0x1B => some (.fabShr f)
  | 0x1C => some (.fabMin f)
  | 0x1D => some (.fabMax f)
  | 0x1E => some (.fabAbs f)
  | 0x1F => some (.fabNeg f)
  | 0x20 => some (.fabClz f)
  | 0x21 => some (.fabCtz f)
  | 0x22 => some (.fabPopc f)
  | 0x23 => some (.fabAdds f)
  | 0x24 => some (.fabSubs f)
  | 0x25 => some (.fabSadd f)
  | 0x28 => some (.fabCeq f)
  | 0x29 => some (.fabCne f)
  | 0x2A => some (.fabClt f)
  | 0x2B => some (.fabCle f)
  | 0x2C => some (.fabPand f)
  | 0x2D => some (.fabPor f)
  | 0x2E => some (.fabPnot f)
  | 0x2F => some (.fabPxor f)
  | 0x30 => some (.fabFadd f)
  | 0x31 => some (.fabFsub f)
  | 0x32 => some (.fabFmul f)
  | 0x33 => some (.fabFma f)
  | 0x34 => some (.fabFnma f)
  | 0x35 => some (.fabFdiv f)
  | 0x36 => some (.fabFsqrt f)
  | 0x37 => some (.fabFrcp f)
  | 0x38 => some (.fabFmin f)
  | 0x39 => some (.fabFmax f)
  | 0x3A => some (.fabFabs f)
  | 0x3B => some (.fabFneg f)
  | 0x3C => some (.fabFexp2 f)
  | 0x3D => some (.fabFlog2 f)
  | 0x40 => some (.fabVadd f)
  | 0x41 => some (.fabVsub f)
  | 0x42 => some (.fabVmul f)
  | 0x43 => some (.fabVfma f)
  | 0x44 => some (.fabVmin f)
  | 0x45 => some (.fabVmax f)
  | 0x46 => some (.fabVabs f)
  | 0x47 => some (.fabVneg f)
  | 0x48 => some (.fabVhsum f)
  | 0x49 => some (.fabVhmax f)
  | 0x4A => some (.fabVbcast f)
  | 0x4B => some (.fabVext f)
  | 0x4C => some (.fabVins f)
  | 0x4D => some (.fabVceq f)
  | 0x4E => some (.fabVclt f)
  | 0x4F => some (.fabVand f)
  | 0x50 => some (.fabVor f)
  | 0x51 => some (.fabVxor f)
  | 0x52 => some (.fabVshl f)
  | 0x53 => some (.fabVshr f)
  | 0x54 => some (.fabVexp2 f)
  | 0x55 => some (.fabVrcp f)
  | 0x60 => some (.fabCvt f)
  | 0x61 => some (.fabVcvt f)
  | 0x62 => some (.fabScacc f)
  | 0x63 => some (.fabVscacc f)
  | 0x68 => some (.fabStop f)
  | 0x69 => some (.fabSlvl f)
  | 0x6A => some (.fabSgate f)
  | 0x6B => some (.fabScount f)
  | 0x6C => some (.fabOrdt f)
  | 0x70 => some (.fabLd f)
  | 0x71 => some (.fabSt f)
  | 0x72 => some (.fabVld f)
  | 0x73 => some (.fabVst f)
  | 0x74 => some (.fabLdx f)
  | 0x75 => some (.fabStx f)
  | 0x76 => some (.fabVldx f)
  | 0x77 => some (.fabVstx f)
  | 0x78 => some (.fabLds f)
  | 0x79 => some (.fabSts f)
  | 0x7A => some (.fabVlds f)
  | 0x7B => some (.fabVsts f)
  | 0x7C => some (.fabWsplit f)
  | 0x7D => some (.fabWjoin f)
  | 0x7E => some (.fabAmo f)
  | 0x7F => some (.fabAmos f)
  | 0x88 => some (.fabRpt f)
  | 0x89 => some (.fabMma f)
  | 0x8A => some (.fabAccrd f)
  | 0x8B => some (.fabBld f)
  | 0x8C => some (.fabBst f)
  | 0x90 => some (.fabExit f)
  | 0x91 => some (.fabNull f)
  | 0x92 => some (.fabBar f)
  | _ => none

/-- The fields of a slot word (R189). -/
def slotFields (w : BitVec 64) : FabWord :=
  { pm := w.extractLsb' 54 2, mod := w.extractLsb' 50 4, t0 := w.extractLsb' 40 10, t1 := w.extractLsb' 30 10,
    imm := w.extractLsb' 0 30 }

/-- The opcode of a slot word (R189). -/
def slotOp (w : BitVec 64) : Nat := (w.extractLsb' 56 8).toNat

/-- The decoder of slot words: the checks of R194 that one word can fail by itself. -/
def decodeSlot (w : BitVec 64) : Except DecodeError Instr :=
  match slotError (slotOp w) (slotFields w) with
  | some e => .error (.slot e)
  | none =>
    match fabInstr (slotOp w) (slotFields w) with
    | some i => .ok i
    | none => .error (.slot .opcode)

/-- The decoder of configuration commands (R123, R124). -/
def decodeCfg (w : BitVec 32) : Except DecodeError Instr :=
  if bit w 31 = false then
    .ok (.cfgWrite (w.extractLsb' 27 4) (w.extractLsb' 21 6) (w.extractLsb' 16 5) (w.extractLsb' 0 16))
  else match (w.extractLsb' 28 3).toNat with
    | 0 => .ok (.cfgSelectContext (w.extractLsb' 3 25) (w.extractLsb' 0 3))
    | 1 => .ok (.cfgPageHeader (w.extractLsb' 24 4) (w.extractLsb' 16 8) (w.extractLsb' 0 16))
    | 2 => .ok (.cfgBlockHeader (w.extractLsb' 24 4) (w.extractLsb' 16 8) (w.extractLsb' 0 16))
    | 3 => .ok (.configurationComplete (w.extractLsb' 0 28))
    | 4 => .ok (.cfgChecksum (w.extractLsb' 0 28))
    | _ => .error .reservedCommand

/-- The decoder on the bytes of a sequencer word, in little-endian order (R6, R136). -/
def decodeBytes (bs : List Byte) : Except DecodeError Instr :=
  match bs with
  | [b0, b1, b2, b3] => decodeSeq (b3 ++ b2 ++ b1 ++ b0)
  | _ => .error .short

/-- The decoder on an instruction given as a number: 64 bits are a slot word, up to 32 bits a sequencer word. -/
def decodeTableWord (nbits w : Nat) : Option Instr :=
  if nbits > 32 then (decodeSlot (BitVec.ofNat 64 (w % 2 ^ nbits))).toOption
  else (decodeBytes (leBytes 4 (w % 2 ^ nbits))).toOption

/-! ### The encoder -/

/-- The word of a step: a sequencer word, a slot word, a configuration command, or none. -/
inductive Encoded
  | seq (w : BitVec 32)
  | slot (w : BitVec 64)
  | cfg (w : BitVec 32)
  | step
deriving DecidableEq, Repr

/-- A form (R140). -/
def formA (major : BitVec 6) (d a b : Reg) (fn : BitVec 11) : Encoded := .seq (major ++ d ++ a ++ b ++ fn)
/-- I, M and B forms (R140). -/
def formI (major : BitVec 6) (d a : Reg) (imm : BitVec 16) : Encoded := .seq (major ++ d ++ a ++ imm)
/-- J form (R140). -/
def formJ (major : BitVec 6) (imm : BitVec 26) : Encoded := .seq (major ++ imm)
/-- E form (R140). -/
def formE (eng : BitVec 3) (cmd : BitVec 8) (a b : Reg) (flags : BitVec 5) : Encoded :=
  .seq (0x30#6 ++ eng ++ cmd ++ a ++ b ++ flags)
/-- A slot word (R189). -/
def formSlot (op : BitVec 8) (f : FabWord) : Encoded := .slot (op ++ f.pm ++ f.mod ++ f.t0 ++ f.t1 ++ f.imm)

/-- The opcode and fields of a fabric row, none for any other row (R193). -/
def fabCode (i : Instr) : Option (BitVec 8 × FabWord) :=
  match i with
  | .fabMov f => some (0x1#8, f)
  | .fabConst f => some (0x2#8, f)
  | .fabGrd f => some (0x3#8, f)
  | .fabVrd f => some (0x4#8, f)
  | .fabSel f => some (0x5#8, f)
  | .fabVsel f => some (0x6#8, f)
  | .fabVmov f => some (0x7#8, f)
  | .fabAdd f => some (0x10#8, f)
  | .fabSub f => some (0x11#8, f)
  | .fabAddi f => some (0x12#8, f)
  | .fabMul f => some (0x13#8, f)
  | .fabMulh f => some (0x14#8, f)
  | .fabDiv f => some (0x15#8, f)
  | .fabRem f => some (0x16#8, f)
  | .fabAnd f => some (0x17#8, f)
  | .fabOr f => some (0x18#8, f)
  | .fabXor f => some (0x19#8, f)
  | .fabShl f => some (0x1A#8, f)
  | .fabShr f => some (0x1B#8, f)
  | .fabMin f => some (0x1C#8, f)
  | .fabMax f => some (0x1D#8, f)
  | .fabAbs f => some (0x1E#8, f)
  | .fabNeg f => some (0x1F#8, f)
  | .fabClz f => some (0x20#8, f)
  | .fabCtz f => some (0x21#8, f)
  | .fabPopc f => some (0x22#8, f)
  | .fabAdds f => some (0x23#8, f)
  | .fabSubs f => some (0x24#8, f)
  | .fabSadd f => some (0x25#8, f)
  | .fabCeq f => some (0x28#8, f)
  | .fabCne f => some (0x29#8, f)
  | .fabClt f => some (0x2A#8, f)
  | .fabCle f => some (0x2B#8, f)
  | .fabPand f => some (0x2C#8, f)
  | .fabPor f => some (0x2D#8, f)
  | .fabPnot f => some (0x2E#8, f)
  | .fabPxor f => some (0x2F#8, f)
  | .fabFadd f => some (0x30#8, f)
  | .fabFsub f => some (0x31#8, f)
  | .fabFmul f => some (0x32#8, f)
  | .fabFma f => some (0x33#8, f)
  | .fabFnma f => some (0x34#8, f)
  | .fabFdiv f => some (0x35#8, f)
  | .fabFsqrt f => some (0x36#8, f)
  | .fabFrcp f => some (0x37#8, f)
  | .fabFmin f => some (0x38#8, f)
  | .fabFmax f => some (0x39#8, f)
  | .fabFabs f => some (0x3A#8, f)
  | .fabFneg f => some (0x3B#8, f)
  | .fabFexp2 f => some (0x3C#8, f)
  | .fabFlog2 f => some (0x3D#8, f)
  | .fabVadd f => some (0x40#8, f)
  | .fabVsub f => some (0x41#8, f)
  | .fabVmul f => some (0x42#8, f)
  | .fabVfma f => some (0x43#8, f)
  | .fabVmin f => some (0x44#8, f)
  | .fabVmax f => some (0x45#8, f)
  | .fabVabs f => some (0x46#8, f)
  | .fabVneg f => some (0x47#8, f)
  | .fabVhsum f => some (0x48#8, f)
  | .fabVhmax f => some (0x49#8, f)
  | .fabVbcast f => some (0x4A#8, f)
  | .fabVext f => some (0x4B#8, f)
  | .fabVins f => some (0x4C#8, f)
  | .fabVceq f => some (0x4D#8, f)
  | .fabVclt f => some (0x4E#8, f)
  | .fabVand f => some (0x4F#8, f)
  | .fabVor f => some (0x50#8, f)
  | .fabVxor f => some (0x51#8, f)
  | .fabVshl f => some (0x52#8, f)
  | .fabVshr f => some (0x53#8, f)
  | .fabVexp2 f => some (0x54#8, f)
  | .fabVrcp f => some (0x55#8, f)
  | .fabCvt f => some (0x60#8, f)
  | .fabVcvt f => some (0x61#8, f)
  | .fabScacc f => some (0x62#8, f)
  | .fabVscacc f => some (0x63#8, f)
  | .fabStop f => some (0x68#8, f)
  | .fabSlvl f => some (0x69#8, f)
  | .fabSgate f => some (0x6A#8, f)
  | .fabScount f => some (0x6B#8, f)
  | .fabOrdt f => some (0x6C#8, f)
  | .fabLd f => some (0x70#8, f)
  | .fabSt f => some (0x71#8, f)
  | .fabVld f => some (0x72#8, f)
  | .fabVst f => some (0x73#8, f)
  | .fabLdx f => some (0x74#8, f)
  | .fabStx f => some (0x75#8, f)
  | .fabVldx f => some (0x76#8, f)
  | .fabVstx f => some (0x77#8, f)
  | .fabLds f => some (0x78#8, f)
  | .fabSts f => some (0x79#8, f)
  | .fabVlds f => some (0x7A#8, f)
  | .fabVsts f => some (0x7B#8, f)
  | .fabWsplit f => some (0x7C#8, f)
  | .fabWjoin f => some (0x7D#8, f)
  | .fabAmo f => some (0x7E#8, f)
  | .fabAmos f => some (0x7F#8, f)
  | .fabRpt f => some (0x88#8, f)
  | .fabMma f => some (0x89#8, f)
  | .fabAccrd f => some (0x8A#8, f)
  | .fabBld f => some (0x8B#8, f)
  | .fabBst f => some (0x8C#8, f)
  | .fabExit f => some (0x90#8, f)
  | .fabNull f => some (0x91#8, f)
  | .fabBar f => some (0x92#8, f)
  | _ => none

/-- The encoder (R123, R124, R140, R189). -/
def encode (i : Instr) : Encoded :=
  match i with
  | .add d a b => formA 0x1 d a b 0x0
  | .sub d a b => formA 0x1 d a b 0x1
  | .and d a b => formA 0x1 d a b 0x2
  | .or d a b => formA 0x1 d a b 0x3
  | .xor d a b => formA 0x1 d a b 0x4
  | .sll d a b => formA 0x1 d a b 0x5
  | .srl d a b => formA 0x1 d a b 0x6
  | .sra d a b => formA 0x1 d a b 0x7
  | .slt d a b => formA 0x1 d a b 0x8
  | .sltu d a b => formA 0x1 d a b 0x9
  | .min d a b => formA 0x1 d a b 0xA
  | .max d a b => formA 0x1 d a b 0xB
  | .minu d a b => formA 0x1 d a b 0xC
  | .maxu d a b => formA 0x1 d a b 0xD
  | .xadd2 d a b => formA 0x1 d a b 0xE
  | .xadd4 d a b => formA 0x1 d a b 0xF
  | .xadd8 d a b => formA 0x1 d a b 0x10
  | .sadd d a b => formA 0x1 d a b 0x11
  | .mul d a b => formA 0x1 d a b 0x18
  | .mulh d a b => formA 0x1 d a b 0x19
  | .mulhu d a b => formA 0x1 d a b 0x1A
  | .div d a b => formA 0x1 d a b 0x1C
  | .divu d a b => formA 0x1 d a b 0x1D
  | .rem d a b => formA 0x1 d a b 0x1E
  | .remu d a b => formA 0x1 d a b 0x1F
  | .clz d a => formA 0x1 d a 0 0x20
  | .ctz d a => formA 0x1 d a 0 0x21
  | .popc d a => formA 0x1 d a 0 0x22
  | .nop => formA 0x2 0 0 0 0x0
  | .ret => formA 0x2 0 0 0 0x1
  | .mflk d => formA 0x2 d 0 0 0x2
  | .mtlk a => formA 0x2 0 a 0 0x3
  | .addi d a imm => formI 0x3 d a imm
  | .addi16 d a imm => formI 0x4 d a imm
  | .addi32 d a imm => formI 0x5 d a imm
  | .addi48 d a imm => formI 0x6 d a imm
  | .andi d a imm => formI 0x7 d a imm
  | .ori d a imm => formI 0x8 d a imm
  | .xori d a imm => formI 0x9 d a imm
  | .slti d a imm => formI 0xA d a imm
  | .sltiu d a imm => formI 0xB d a imm
  | .slli d a imm => formI 0xC d a (0#10 ++ imm)
  | .srli d a imm => formI 0xD d a (0#10 ++ imm)
  | .srai d a imm => formI 0xE d a (0#10 ++ imm)
  | .saddi d a imm => formI 0xF d a imm
  | .beq a b imm => formI 0x10 a b imm
  | .bne a b imm => formI 0x11 a b imm
  | .blt a b imm => formI 0x12 a b imm
  | .bge a b imm => formI 0x13 a b imm
  | .bltu a b imm => formI 0x14 a b imm
  | .bgeu a b imm => formI 0x15 a b imm
  | .j imm => formJ 0x16 imm
  | .jal imm => formJ 0x17 imm
  | .jr a imm => formI 0x18 0 a imm
  | .jalr a imm => formI 0x19 0 a imm
  | .mfs d sys => formI 0x1A d 0 (0#4 ++ sys)
  | .mts a sys => formI 0x1B 0 a (0#4 ++ sys)
  | .ldI8 d base imm => formI 0x20 d base imm
  | .ldI16 d base imm => formI 0x21 d base imm
  | .ldI32 d base imm => formI 0x22 d base imm
  | .ld64 d base imm => formI 0x23 d base imm
  | .ldN8 d base imm => formI 0x24 d base imm
  | .ldN16 d base imm => formI 0x25 d base imm
  | .ldN32 d base imm => formI 0x26 d base imm
  | .st8 d base imm => formI 0x28 d base imm
  | .st16 d base imm => formI 0x29 d base imm
  | .st32 d base imm => formI 0x2A d base imm
  | .st64 d base imm => formI 0x2B d base imm
  | .lds d a off kind => formA 0x2C d a 0 (off ++ 0#1 ++ 0#1 ++ kind)
  | .sts a b off kind => formA 0x2C 0 a b (off ++ 0#1 ++ 1#1 ++ kind)
  | .ldp d a off kind => formA 0x2C d a 0 (off ++ 1#1 ++ 0#1 ++ kind)
  | .stp a b off kind => formA 0x2C 0 a b (off ++ 1#1 ++ 1#1 ++ kind)
  | .amo d a b scope ord wide op => formA 0x2D d a b (scope ++ ord ++ wide ++ 0#1 ++ op)
  | .amos d a b scope ord wide op => formA 0x2D d a b (scope ++ ord ++ wide ++ 1#1 ++ op)
  | .amoLd d a scope wide space => formA 0x2D d a 0 (scope ++ 1#2 ++ wide ++ space ++ 10#4)
  | .amoSt a b scope wide space => formA 0x2D 0 a b (scope ++ 2#2 ++ wide ++ space ++ 11#4)
  | .fence scope ord => formA 0x2E 0 0 0 (scope ++ ord ++ 0#6)
  | .ctxSel a => formA 0x2F 0 a 0 0x0
  | .run a => formA 0x2F 0 a 0 0x1
  | .drain => formA 0x2F 0 0 0 0x2
  | .cfgs a b => formA 0x2F 0 a b 0x3
  | .barInit a b => formA 0x2F 0 a b 0x10
  | .barInitb a b => formA 0x2F 0 a b 0x11
  | .barArr d a => formA 0x2F d a 0 0x12
  | .barWait a b => formA 0x2F 0 a b 0x13
  | .barRd d a => formA 0x2F d a 0 0x14
  | .evSet a => formA 0x2F 0 a 0 0x20
  | .evClr a => formA 0x2F 0 a 0 0x21
  | .evWait a => formA 0x2F 0 a 0 0x22
  | .evTake a => formA 0x2F 0 a 0 0x23
  | .tlRd d a => formA 0x2F d a 0 0x28
  | .tlAdv a b => formA 0x2F 0 a b 0x29
  | .tlWait a b => formA 0x2F 0 a b 0x2A
  | .evq d a => formA 0x2F d a 0 0x30
  | .evqW d a => formA 0x2F d a 0 0x31
  | .tlook d a => formA 0x2F d a 0 0x38
  | .tset a b => formA 0x2F 0 a b 0x39
  | .tclr a => formA 0x2F 0 a 0 0x3A
  | .issue eng cmd a b flags => formE eng cmd a b flags
  | .spCfg a b => formE 0 1 a b 0
  | .spHwm a b => formE 0 2 a b 0
  | .spResv a b => formE 0 3 a b 0
  | .spPub a b => formE 0 4 a b 0
  | .spRel a b => formE 0 5 a b 0
  | .spRew a b => formE 0 6 a b 0
  | .spRdm a b => formE 0 7 a b 0
  | .spQbind a b => formE 0 8 a b 0
  | .trap a => formA 0x31 0 a 0 0x0
  | .eret => formA 0x31 0 0 0 0x1
  | .seqEnd => formA 0x31 0 0 0 0x2
  | .fabMov f => formSlot 0x1 f
  | .fabConst f => formSlot 0x2 f
  | .fabGrd f => formSlot 0x3 f
  | .fabVrd f => formSlot 0x4 f
  | .fabSel f => formSlot 0x5 f
  | .fabVsel f => formSlot 0x6 f
  | .fabVmov f => formSlot 0x7 f
  | .fabAdd f => formSlot 0x10 f
  | .fabSub f => formSlot 0x11 f
  | .fabAddi f => formSlot 0x12 f
  | .fabMul f => formSlot 0x13 f
  | .fabMulh f => formSlot 0x14 f
  | .fabDiv f => formSlot 0x15 f
  | .fabRem f => formSlot 0x16 f
  | .fabAnd f => formSlot 0x17 f
  | .fabOr f => formSlot 0x18 f
  | .fabXor f => formSlot 0x19 f
  | .fabShl f => formSlot 0x1A f
  | .fabShr f => formSlot 0x1B f
  | .fabMin f => formSlot 0x1C f
  | .fabMax f => formSlot 0x1D f
  | .fabAbs f => formSlot 0x1E f
  | .fabNeg f => formSlot 0x1F f
  | .fabClz f => formSlot 0x20 f
  | .fabCtz f => formSlot 0x21 f
  | .fabPopc f => formSlot 0x22 f
  | .fabAdds f => formSlot 0x23 f
  | .fabSubs f => formSlot 0x24 f
  | .fabSadd f => formSlot 0x25 f
  | .fabCeq f => formSlot 0x28 f
  | .fabCne f => formSlot 0x29 f
  | .fabClt f => formSlot 0x2A f
  | .fabCle f => formSlot 0x2B f
  | .fabPand f => formSlot 0x2C f
  | .fabPor f => formSlot 0x2D f
  | .fabPnot f => formSlot 0x2E f
  | .fabPxor f => formSlot 0x2F f
  | .fabFadd f => formSlot 0x30 f
  | .fabFsub f => formSlot 0x31 f
  | .fabFmul f => formSlot 0x32 f
  | .fabFma f => formSlot 0x33 f
  | .fabFnma f => formSlot 0x34 f
  | .fabFdiv f => formSlot 0x35 f
  | .fabFsqrt f => formSlot 0x36 f
  | .fabFrcp f => formSlot 0x37 f
  | .fabFmin f => formSlot 0x38 f
  | .fabFmax f => formSlot 0x39 f
  | .fabFabs f => formSlot 0x3A f
  | .fabFneg f => formSlot 0x3B f
  | .fabFexp2 f => formSlot 0x3C f
  | .fabFlog2 f => formSlot 0x3D f
  | .fabVadd f => formSlot 0x40 f
  | .fabVsub f => formSlot 0x41 f
  | .fabVmul f => formSlot 0x42 f
  | .fabVfma f => formSlot 0x43 f
  | .fabVmin f => formSlot 0x44 f
  | .fabVmax f => formSlot 0x45 f
  | .fabVabs f => formSlot 0x46 f
  | .fabVneg f => formSlot 0x47 f
  | .fabVhsum f => formSlot 0x48 f
  | .fabVhmax f => formSlot 0x49 f
  | .fabVbcast f => formSlot 0x4A f
  | .fabVext f => formSlot 0x4B f
  | .fabVins f => formSlot 0x4C f
  | .fabVceq f => formSlot 0x4D f
  | .fabVclt f => formSlot 0x4E f
  | .fabVand f => formSlot 0x4F f
  | .fabVor f => formSlot 0x50 f
  | .fabVxor f => formSlot 0x51 f
  | .fabVshl f => formSlot 0x52 f
  | .fabVshr f => formSlot 0x53 f
  | .fabVexp2 f => formSlot 0x54 f
  | .fabVrcp f => formSlot 0x55 f
  | .fabCvt f => formSlot 0x60 f
  | .fabVcvt f => formSlot 0x61 f
  | .fabScacc f => formSlot 0x62 f
  | .fabVscacc f => formSlot 0x63 f
  | .fabStop f => formSlot 0x68 f
  | .fabSlvl f => formSlot 0x69 f
  | .fabSgate f => formSlot 0x6A f
  | .fabScount f => formSlot 0x6B f
  | .fabOrdt f => formSlot 0x6C f
  | .fabLd f => formSlot 0x70 f
  | .fabSt f => formSlot 0x71 f
  | .fabVld f => formSlot 0x72 f
  | .fabVst f => formSlot 0x73 f
  | .fabLdx f => formSlot 0x74 f
  | .fabStx f => formSlot 0x75 f
  | .fabVldx f => formSlot 0x76 f
  | .fabVstx f => formSlot 0x77 f
  | .fabLds f => formSlot 0x78 f
  | .fabSts f => formSlot 0x79 f
  | .fabVlds f => formSlot 0x7A f
  | .fabVsts f => formSlot 0x7B f
  | .fabWsplit f => formSlot 0x7C f
  | .fabWjoin f => formSlot 0x7D f
  | .fabAmo f => formSlot 0x7E f
  | .fabAmos f => formSlot 0x7F f
  | .fabRpt f => formSlot 0x88 f
  | .fabMma f => formSlot 0x89 f
  | .fabAccrd f => formSlot 0x8A f
  | .fabBld f => formSlot 0x8B f
  | .fabBst f => formSlot 0x8C f
  | .fabExit f => formSlot 0x90 f
  | .fabNull f => formSlot 0x91 f
  | .fabBar f => formSlot 0x92 f
  | .cfgWrite page element field value => .cfg (0#1 ++ page ++ element ++ field ++ value)
  | .cfgSelectContext rsv ctx => .cfg (8#4 ++ rsv ++ ctx)
  | .cfgPageHeader page rsv count => .cfg (9#4 ++ page ++ rsv ++ count)
  | .cfgBlockHeader part rsv value => .cfg (10#4 ++ part ++ rsv ++ value)
  | .configurationComplete rsv => .cfg (11#4 ++ rsv)
  | .cfgChecksum sum => .cfg (12#4 ++ sum)
  | .memoryNodeResponse _ _ _ => .step
  | .roundStart _ _ => .step
  | .roundCommit _ => .step
  | .storeBufferDrain _ => .step
  | .portReadResponse _ _ _ => .step
  | .portWritePerform _ _ => .step
  | .hotnessFlush _ _ => .step
  | .streamReadUnblock _ _ => .step
  | .streamWriteUnblock _ _ => .step
  | .spill _ _ => .step
  | .streamDeadlock _ => .step
  | .apertureBind _ _ => .step
  | .apertureHwm _ _ => .step
  | .apertureRel _ _ => .step
  | .apertureErr _ => .step
  | .apertureDataRead _ _ _ => .step
  | .apertureDataWrite _ _ _ => .step
  | .seedInject _ => .step
  | .launchPacket _ _ _ => .step
  | .launchQueue => .step
  | .place _ => .step
  | .retire _ => .step
  | .quiescent _ => .step
  | .moveCluster _ _ _ => .step
  | .taskDispatch _ _ => .step
  | .taskCompletion _ _ => .step
  | .graphCond _ _ => .step
  | .graphWhile _ _ => .step
  | .graphJoin _ _ => .step
  | .taskDef _ _ => .step
  | .taskDis _ _ => .step
  | .taskEvset _ _ => .step
  | .taskTlset _ _ => .step
  | .taskLaunch _ _ => .step
  | .cpBulk _ _ => .step
  | .cpMcast _ _ => .step
  | .cpGrp _ _ => .step
  | .cpAmo _ _ => .step
  | .cpEnq _ _ => .step
  | .grpMessage _ => .step
  | .grpAck _ _ _ _ => .step
  | .grpNoResponse _ _ _ => .step
  | .amoRequest _ => .step
  | .amoReply _ _ _ => .step
  | .retransmission _ _ => .step
  | .retryInterval _ _ => .step
  | .enqRequest _ => .step
  | .redFab _ _ => .step
  | .reductionStart _ _ => .step
  | .redEst _ _ => .step
  | .redRd _ _ => .step
  | .claim _ _ => .step
  | .merge _ _ => .step
  | .stopNotice _ _ => .step
  | .level2Stop _ _ => .step
  | .kstepAccept _ => .step
  | .kstep _ => .step
  | .mxMode _ _ => .step
  | .mxSlot _ _ => .step
  | .mxFree _ _ => .step
  | .mxRd _ _ => .step
  | .invalidate _ _ _ _ _ => .step
  | .invalidationComplete _ => .step
  | .priAnswer _ _ _ _ => .step
  | .atsInvalidation _ _ _ _ => .step
  | .remoteRequest _ => .step
  | .dupInvalidation _ _ => .step
  | .dupAck _ _ => .step
  | .preempt _ _ => .step
  | .readoutComplete _ => .step
  | .restore _ _ => .step
  | .resume _ _ => .step
  | .kill _ _ => .step
  | .recordCopy _ => .step
  | .flit _ _ _ _ _ => .step
  | .linkDead _ _ => .step
  | .laneLockLoss _ _ => .step
  | .portDown _ => .step
  | .keyExhaustion _ _ => .step
  | .seckey _ _ _ => .step
  | .ingressMessage _ _ _ => .step
  | .ingressRetry _ _ => .step
  | .requestTimeout _ => .step
  | .routerPowerDown _ => .step
  | .routerWake _ => .step
  | .bootgo => .step
  | .imageVerified => .step
  | .packageReset => .step
  | .lifeCycleTransition _ => .step
  | .getCertificate => .step
  | .challenge _ => .step
  | .getMeasurements _ => .step
  | .scrub _ _ _ _ => .step
  | .uncorrectableError _ _ _ => .step
  | .telemetryFlush => .step
  | .orderlyShutdown => .step
  | .tmsel _ => .step
  | .throttle _ => .step
  | .thermalShutdown => .step
  | .registerWrite _ _ => .step
  | .illegalInstruction _ => .step
  | .loadValueReturn _ _ => .step
  | .storeQueueDrain _ _ => .step
  | .lwrRead _ _ => .step
  | .powerFailure => .step
  | .linkTraining _ _ _ => .step
  | .cxlMemAccess _ _ _ _ => .step
  | .tagHoldExpiry _ _ => .step
  | .slotEntryBoundary _ => .step
  | .wipeComplete => .step

end Sys2Proof
end

