-- ==== Sys2Proof/Machine/SysReg.lean ====
section
/-! DEFINITION. System registers (R138, R139, R156, R407). -/

namespace Sys2Proof.Machine

/-- The word of a sequencer instruction, as tval holds it (R182). -/
def instrWord (i : Instr) : Word :=
  match encode i with | .seq w => w.zeroExtend 64 | _ => 0

/-- tileid (R138). -/
def tileId (s : State) (t : Nat) : Word :=
  BitVec.ofNat 64 (t % 4 + clusterOf t % 40 * 4 + dieOf t * 256 + (s.die (dieOf t)).endpoint % 1024 * 65536)

/-- The value of a system register of a tile (R138): an unassigned number has none. -/
def readSys (s : State) (t n : Nat) : Option Word :=
  let T := s.tile t
  let q := T.seq
  let c := T.selected
  match n with
  | 0x000 => some (s.cycle (dieOf t))
  | 0x001 => some (tileId s t)
  | 0x002 => some (BitVec.ofNat 64 q.ctxsel)
  | 0x003 => some (c.ctxid.zeroExtend 64)
  | 0x010 => some (c.fstat.zeroExtend 64)
  | 0x011 => some T.rseed
  | 0x020 => some c.tbase
  | 0x021 => some (c.pasid.zeroExtend 64)
  | 0x022 => some c.hotbase
  | 0x023 => some (c.hotlen.zeroExtend 64)
  | 0x024 => some (c.hotnext.zeroExtend 64)
  | 0x025 => some (c.hotovr.zeroExtend 64)
  | 0x030 => some (flagWord q.mode)
  | 0x031 => some (BitVec.ofNat 64 (q.tvec.toNat * 4))
  | 0x032 => some (BitVec.ofNat 64 (q.tepc.toNat * 4))
  | 0x033 => some (q.tcause.zeroExtend 64)
  | 0x034 => some q.tval
  | 0x035 => some q.tscratch
  | _ => if 0x800 ≤ n && n ≤ 0x8FF then some (s.cap (n - 0x800)) else none
where
  /-- status holds the mode in bit 0. -/
  flagWord (m : Bool) : Word := if m then 1 else 0

/-- Change the selected context of a tile. -/
def Tile.modSelected (T : Tile) (f : Ctx → Ctx) : Tile := T.modCtx T.seq.ctxsel f

/-- Write a system register (R138, R139): bits outside those used are ignored. A write of rseed restarts the stochastic
state of every element of every context (R139). -/
def writeSys (T : Tile) (n : Nat) (v : Word) : Tile :=
  match n with
  | 0x010 => T.modSelected (fun c => { c with fstat := v.truncate 6 })
  | 0x011 => { T with rseed := v, ctxs := (List.range 8).foldl (fun m i => m.put i { m.get Ctx.reset i with fresh := true }) T.ctxs }
  | 0x020 => T.modSelected (fun c => { c with tbase := v &&& 0x0000FFFFFFFF0000 })
  | 0x021 => T.modSelected (fun c => { c with pasid := v.truncate 20 })
  | 0x022 => T.modSelected (fun c => { c with hotbase := v &&& 0x01FFFFFFFFFFFFF0 })
  | 0x023 => T.modSelected (fun c => { c with hotlen := v.truncate 32 })
  | 0x024 => T.modSelected (fun c => { c with hotnext := v.truncate 32 })
  | 0x025 => T.modSelected (fun c => { c with hotovr := v.truncate 32 })
  | 0x030 => { T with seq := { T.seq with mode := v.getLsbD 0 } }
  | 0x031 => { T with seq := { T.seq with tvec := v.extractLsb' 2 14 } }
  | 0x032 => { T with seq := { T.seq with tepc := v.extractLsb' 2 14 } }
  | 0x033 => { T with seq := { T.seq with tcause := v.truncate 32 &&& 0xC000FFFF } }
  | 0x034 => { T with seq := { T.seq with tval := v } }
  | 0x035 => { T with seq := { T.seq with tscratch := v } }
  | _ => T

/-- Registers that program mode may not read (R138). -/
def sysSystemOnly (n : Nat) : Bool := (0x020 ≤ n && n ≤ 0x025) || (0x031 ≤ n && n ≤ 0x035)
/-- Registers that program mode may not write although system mode may (R138, R156). -/
def sysWriteSystem (n : Nat) : Bool := sysSystemOnly n || n = 0x030

/-- mfs (R156): privilege first after legality (R145). -/
def execMfs (d : Reg) (sys : BitVec 12) (s : State) : Host.Outcome State Fault Refusal :=
  let t := s.focus.tile
  let w := instrWord (.mfs d sys)
  match readSys s t sys.toNat with
  | none => seqOp s [d] (trapAct s 1 w 0)
  | some v =>
    if sysSystemOnly sys.toNat && !(s.tile t).seq.mode then seqOp s [d] (trapAct s 2 w 0) else resultOp s d [] v

/-- mts (R156, R139). -/
def execMts (a : Reg) (sys : BitVec 12) (s : State) : Host.Outcome State Fault Refusal :=
  let t := s.focus.tile
  let w := instrWord (.mts a sys)
  if sysReadOnly sys.toNat || !sysAssigned sys.toNat then seqOp s [a] (trapAct s 1 w (s.x a))
  else if sysWriteSystem sys.toNat && !(s.tile t).seq.mode then seqOp s [a] (trapAct s 2 w (s.x a))
  else seqOp s [a] (.go (next (s.modTile t (fun T => writeSys T sys.toNat (s.x a)))) [])

end Sys2Proof.Machine
end

