-- ==== Sys2Proof/Machine/Sync.lean ====
section
/-! DEFINITION. Barriers, events, timelines, the event queue, the tag table, context selection, run and drain (R167 to R176,
R178), and appending to a command chain (R179, R180). -/

namespace Sys2Proof.Machine

/-- The operand-range trap (R168): tval holds the value. -/
def rangeTrap (s : State) (v xa : Word) : Act := trapAct s 0x11 v xa

/-- Do a register's value and a limit agree (R168)? -/
def below (v : Word) (n : Nat) : Bool := v.toNat < n

/-- The cluster of the tile in focus. -/
def focusCluster (s : State) : Nat := clusterOf s.focus.tile

/-! ### Named barriers (R169) -/

/-- bar.init and bar.initb: kind, target, count := 0; the phase stays (R169, R367). Where both operands are out of range tval holds x[a], the
first of the two, here as in tl.adv and cfgs (R168). DESIGN CHOICE, log entry 89. -/
def barInitOp (s : State) (a b : Reg) (bytes : Bool) : Host.Outcome State Fault Refusal :=
  seqOp s [a, b] (
    if !below (s.x a) 1024 then rangeTrap s (s.x a) (s.x a)
    else if s.x b = 0 || !below (s.x b) (2 ^ 30) then rangeTrap s (s.x b) (s.x a)
    else .go (next (s.modTile s.focus.tile (fun T => T.setBar (s.x a).toNat
      { T.bar (s.x a).toNat with bytes := bytes, count := 0, target := (s.x b).toNat }))) [])

/-- bar.init (R169). -/
def execBarInit (a b : Reg) (s : State) : Host.Outcome State Fault Refusal := barInitOp s a b false
/-- bar.initb (R169). -/
def execBarInitb (a b : Reg) (s : State) : Host.Outcome State Fault Refusal := barInitOp s a b true

/-- The phase of a barrier as the cycle in hand began: it flips after all arrivals of a cycle (R169). -/
def Bar.phaseAt (b : Bar) (now : Nat) : Bool := if b.flipped = some now then !b.phase else b.phase

/-- bar.arr (R169): d receives the phase before the flip of its cycle, and the arrival counts; a release at tile scope (R72). -/
def execBarArr (d a : Reg) (s : State) : Host.Outcome State Fault Refusal :=
  let i := (s.x a).toNat
  let b := (s.tile s.focus.tile).bar i
  seqOp s [d, a] (
    if !below (s.x a) 1024 || b.target = 0 || b.bytes then rangeTrap s (s.x a) (s.x a)
    else when (released s s.focus.tile false) s
      (.go (writeNext (s.modTile s.focus.tile (fun T => T.setBar i (b.arrive s.now 1))) d (flagBit (b.phaseAt s.now))) []))
where
  /-- A phase as a register value. -/
  flagBit (p : Bool) : Word := if p then 1 else 0

/-- bar.wait (R169): completes when the phase differs from x[b] bit 0; it sees a flip made in a cycle from the next one on. -/
def execBarWait (a b : Reg) (s : State) : Host.Outcome State Fault Refusal :=
  seqOp s [a, b] (
    if !below (s.x a) 1024 then rangeTrap s (s.x a) (s.x a)
    else when (((s.tile s.focus.tile).bar (s.x a).toNat).phaseAt s.now != (s.x b).getLsbD 0) s (.go (next s) []))

/-- The word of bar.rd and of a save frame (R169, R277). -/
def Bar.word (b : Bar) : Word :=
  BitVec.ofNat 64 (b.phase.toNat * 2 ^ 63 + b.bytes.toNat * 2 ^ 62 + b.count * 2 ^ 30 + b.target)

/-- A barrier as an instruction reads it in a cycle: a flip of that cycle is not seen yet (R169). -/
def Bar.seen (b : Bar) (now : Nat) : Bar := { b with phase := b.phaseAt now }

/-- bar.rd (R169). -/
def execBarRd (d a : Reg) (s : State) : Host.Outcome State Fault Refusal :=
  seqOp s [d, a] (
    if !below (s.x a) 1024 then rangeTrap s (s.x a) (s.x a)
    else .go (writeNext s d (((s.tile s.focus.tile).bar (s.x a).toNat).seen s.now).word) [])

/-! ### Events (R170, R171) -/

/-- An instruction on an event bit of the cluster. -/
def eventOp (s : State) (a : Reg) (body : Cluster → Nat → Act) : Host.Outcome State Fault Refusal :=
  seqOp s [a] (if !below (s.x a) 256 then rangeTrap s (s.x a) (s.x a) else body (s.cluster (focusCluster s)) (s.x a).toNat)

/-- ev.set (R171): a release at cluster scope (R68). -/
def execEvSet (a : Reg) (s : State) : Host.Outcome State Fault Refusal :=
  eventOp s a (fun K i => when (released s s.focus.tile false) s (.go (next (s.setCluster (focusCluster s) (K.setEvent i true))) []))
/-- ev.clr (R171). -/
def execEvClr (a : Reg) (s : State) : Host.Outcome State Fault Refusal :=
  eventOp s a (fun K i => .go (next (s.setCluster (focusCluster s) (K.setEvent i false))) [])
/-- ev.wait (R171): the bit stays. -/
def execEvWait (a : Reg) (s : State) : Host.Outcome State Fault Refusal :=
  eventOp s a (fun K i => when (K.events.get false i) s (.go (next s) []))
/-- ev.take (R171): the bit is consumed. -/
def execEvTake (a : Reg) (s : State) : Host.Outcome State Fault Refusal :=
  eventOp s a (fun K i => when (K.events.get false i) s
    (.go (next (s.setCluster (focusCluster s) (K.setEvent i false))) []))

/-! ### Timelines (R172) -/

/-- tl.rd (R172). -/
def execTlRd (d a : Reg) (s : State) : Host.Outcome State Fault Refusal :=
  seqOp s [d, a] (
    if !below (s.x a) 64 then rangeTrap s (s.x a) (s.x a)
    else .go (writeNext s d ((s.cluster (focusCluster s)).tl.get 0 (s.x a).toNat)) [])

/-- tl.adv (R172), a release at cluster scope (R68): the chain timelines tl48 to tl63 are privileged (R247). -/
def execTlAdv (a b : Reg) (s : State) : Host.Outcome State Fault Refusal :=
  let i := (s.x a).toNat
  seqOp s [a, b] (
    if 48 ≤ i && i < 64 && !(s.tile s.focus.tile).seq.mode then trapAct s 2 (instrWord (.tlAdv a b)) (s.x a)
    else if !below (s.x a) 64 then rangeTrap s (s.x a) (s.x a)
    else if !below (s.x b) (2 ^ 63) then rangeTrap s (s.x b) (s.x a)
    else when (released s s.focus.tile false) s
      (.go (next (s.modCluster (focusCluster s) (fun K => { K with tl := K.tl.put i (K.tl.get 0 i + s.x b) }))) []))

/-- tl.wait (R172). -/
def execTlWait (a b : Reg) (s : State) : Host.Outcome State Fault Refusal :=
  seqOp s [a, b] (
    if !below (s.x a) 64 then rangeTrap s (s.x a) (s.x a)
    else when (serialLe 64 (s.x b).toNat ((s.cluster (focusCluster s)).tl.get 0 (s.x a).toNat).toNat) s (.go (next s) []))

/-! ### The event queue (R173) -/

/-- Take the oldest record of this tile: to the scratchpad at x[a], its first 8 bytes to d (R173). Earlier accesses of this
sequencer to those bytes are performed first (R68). -/
def evqOp (s : State) (d a : Reg) (wait : Bool) : Host.Outcome State Fault Refusal :=
  let t := s.focus.tile
  let k := focusCluster s
  let o := (s.x a).toNat % 2 ^ 21
  let here : Piece := { key := spadKey k o, size := 64, home := .near }
  seqOp s [d, a] (
    if (s.x a).toNat % 64 != 0 then rangeTrap s (s.x a) (s.x a)
    else match (s.cluster k).evq.get [] (t % 4) with
      | [] => when (!wait) s (.go (writeNext s d 0) [])
      | r :: rest =>
        when (!((s.tile t).seq.touches here)) s
          (.go (writeNext (s.modCluster k (fun K => { K with evq := K.evq.put (t % 4) rest })) d (BitVec.ofNat 64 (leAt r 0 8)))
            (putBytes (spadKey k o) r)))

/-- evq (R173). -/
def execEvq (d a : Reg) (s : State) : Host.Outcome State Fault Refusal := evqOp s d a false
/-- evq.w (R173). -/
def execEvqW (d a : Reg) (s : State) : Host.Outcome State Fault Refusal := evqOp s d a true

/-! ### The tag table (R54, R55, R178) -/

/-- The lookup of R55. -/
def tagLookup (tags : Tbl Word) (idx line : Nat) : Nat :=
  match firstIdx 1024 (fun l => let e := tags.get 0 l; bit e 63 && bits e 59 46 = idx && bits e 45 0 = line) with
  | some l => l
  | none => 0xFFFF

/-- tlook (R178): LV bits [56:11]. -/
def execTlook (d a : Reg) (s : State) : Host.Outcome State Fault Refusal :=
  let idx := ctxIndex (s.tile s.focus.tile).selected.ctxid.toNat
  resultOp s d [a] (BitVec.ofNat 64 (tagLookup (s.cluster (focusCluster s)).tags idx (bits (s.x a) 56 11)))

/-- tset (R178). -/
def execTset (a b : Reg) (s : State) : Host.Outcome State Fault Refusal :=
  let idx := ctxIndex (s.tile s.focus.tile).selected.ctxid.toNat
  let e : Word := BitVec.ofNat 64 (2 ^ 63 + idx * 2 ^ 46 + bits (s.x b) 56 11)
  seqOp s [a, b] (
    if !below (s.x a) 1024 then rangeTrap s (s.x a) (s.x a)
    else .go (next (s.modCluster (focusCluster s) (fun K => { K with tags := K.tags.put (s.x a).toNat e }))) [])

/-- tclr (R178). -/
def execTclr (a : Reg) (s : State) : Host.Outcome State Fault Refusal :=
  seqOp s [a] (
    if !below (s.x a) 1024 then rangeTrap s (s.x a) (s.x a)
    else .go (next (s.modCluster (focusCluster s) (fun K =>
      { K with tags := K.tags.upd 0 (s.x a).toNat (fun e => e &&& 0x7FFFFFFFFFFFFFFF) }))) [])

/-! ### Contexts and runs (R174, R175) -/

/-- ctx.sel (R174): in program mode only a context of the sequencer's launch. -/
def execCtxSel (a : Reg) (s : State) : Host.Outcome State Fault Refusal :=
  let t := s.focus.tile
  let T := s.tile t
  seqOp s [a] (
    if !below (s.x a) 8 then rangeTrap s (s.x a) (s.x a)
    else if !T.seq.mode && (T.ctx (s.x a).toNat).ctxid.toNat != s.tileCtxid t then trapAct s 2 (instrWord (.ctxSel a)) (s.x a)
    else .go (next (s.modSeq t (fun q => { q with ctxsel := (s.x a).toNat }))) [])

/-- Does a context hold a block (R187)? -/
def Block.loaded (b : Block) : Bool := b.slots.any (fun p => p.2 != 0)

/-- Start a run of a context (R175, R253): every node's width returns to its af (R336). -/
def startRun (c : Ctx) (n : Nat) (by_ : Starter) (below : Nat) : Ctx :=
  { c with run := some { asked := n, done := 0, by_ := by_, below := below }, steps := [], unchecked := [] }

/-- The number below which a sequencer's stores stand before a release fence that has been executed (R235). -/
def Seq.fencedBelow (q : Seq) : Nat := q.fences.foldl (fun n f => max n f.1) 0

/-- Was the run of a context started by the sequencer (R22, R176)? -/
def Ctx.bySeq (c : Ctx) : Bool := match c.run with | some r => r.by_ == .sequencer | none => false

/-- run (R175): returns at once (R22); waits while a run of the context is active. -/
def execRun (a : Reg) (s : State) : Host.Outcome State Fault Refusal :=
  let t := s.focus.tile
  let T := s.tile t
  seqOp s [a] (
    if !below (s.x a) (2 ^ 32) then rangeTrap s (s.x a) (s.x a)
    else if !T.selected.block.loaded then trapAct s 0x13 (BitVec.ofNat 64 T.seq.ctxsel) (s.x a)
    else when T.selected.run.isNone s
      (.go (next (s.modTile t (fun T => T.modSelected (fun c => startRun c (s.x a).toNat .sequencer T.seq.fencedBelow)))) []))

/-- Has a port performed every iteration, delivered its last token and made its last HWM advance (R302, R303)? -/
def Port.ended (p : Port) : Bool :=
  match p.prog with
  | none => true
  | some g => p.c ≥ g.n.foldl (· * ·) 1 && p.toks.isEmpty && p.buf.isEmpty && p.committed.isEmpty && p.pubDue.isEmpty

/-- Has a tile still to perform a write of a round before one (R67)? -/
def Tile.olderWrites (T : Tile) (no : Nat) : Bool :=
  T.drain.any (fun h => h.no < no) || (List.range 4).any (fun p => (T.port p).committed.any (fun w => w.no < no))

/-- Is a write of a round before one still to be performed: held, or write-pending on a duplicated page (R61, R67)? -/
def State.olderWrites (s : State) (t no : Nat) : Bool := (s.tile t).olderWrites no || roundPending s t (fun w => decide (w.no < no))

/-- What drain waits for (R22, R176): the runs this sequencer started, the held stores of their rounds, the port programs it
loaded, the k-steps of its rounds. A port program is waited for while its context has an active run, and else for the
writes that committed rounds handed to it. DEDUCED, log entry 11. -/
def drained (s : State) (t : Nat) : Bool :=
  let T := s.tile t
  (List.range 8).all (fun c => match (T.ctx c).run with | some r => r.by_ != .sequencer | none => true) &&
  !(T.drain.any (·.bySeq)) && !roundPending s t (·.bySeq) &&
  (List.range 4).all (fun p =>
    let P := T.port p
    !P.bySeq || P.ended ||
      (P.committed.isEmpty && P.pubDue.isEmpty && (match P.prog with | some g => (T.ctx g.ctx).run.isNone | none => true))) &&
  !((s.cluster (clusterOf t)).mx.queue.any (fun k => k.node.tile = t % 4 && k.bySeq))

/-- drain (R176). -/
def execDrain (s : State) : Host.Outcome State Fault Refusal :=
  seqOp s [] (when (drained s s.focus.tile) s (.go (next s) []))

/-! ### Engine issue (R179, R180) -/

/-- Scratchpad offset of a ring entry of the chain of an engine and a tile (R247). -/
def ringOff (eng tile i : Nat) : Nat := (1008 + (eng - 1) * 4 + tile) * 0x800 + i * 32

/-- The 32 bytes of a chain entry (R180). -/
def chainEntry (cmd eng flags tile : Nat) (mode : Bool) (seq : Nat) (a b : Word) : List Byte :=
  leBytes 8 (cmd * 2 ^ 56 + eng * 2 ^ 53 + flags * 2 ^ 48 + tile * 2 ^ 46 + mode.toNat * 2 ^ 45 + seq % 2 ^ 32) ++
    leBytes 8 a.toNat ++ leBytes 8 b.toNat ++ leBytes 8 0

/-- Has a chain a free entry (R179)? -/
def Chain.free (c : Chain) : Bool := c.next - c.first < 64

/-- Append an entry to a chain (R179, R180): the cluster and the bytes of the entry. -/
def appendCmd (K : Cluster) (k eng tile cmd flags : Nat) (mode : Bool) (a b : Word) (before : Nat) (task : Option Nat) :
    Cluster × List (Nat × Byte) :=
  let c := K.chain eng tile
  (K.setChain eng tile { c with tail := (c.tail + 1) % 64, next := c.next + 1, notes := c.notes.put c.tail (before, task) },
   putBytes (spadKey k (ringOff eng tile c.tail)) (chainEntry cmd eng flags tile mode c.next a b))

/-- issue to a cluster engine (R179): waits for a free entry. -/
def execIssue (eng : BitVec 3) (cmd : BitVec 8) (a b : Reg) (flags : BitVec 5) (s : State) :
    Host.Outcome State Fault Refusal :=
  let t := s.focus.tile
  let k := focusCluster s
  let q := (s.tile t).seq
  let r := appendCmd (s.cluster k) k eng.toNat (t % 4) cmd.toNat flags.toNat q.mode (s.x a) (s.x b) q.no none
  seqOp s [a, b] (
    if eng.toNat < 1 || eng.toNat > 4 then trapAct s 1 (instrWord (.issue eng cmd a b flags)) (s.x a)
    else when ((s.cluster k).chain eng.toNat (t % 4)).free s (.go (next (s.setCluster k r.1)) r.2))

/-! ### Traps and return (R181) -/

/-- trap (R181): its effects stand, so a return goes past it. -/
def execTrap (a : Reg) (s : State) : Host.Outcome State Fault Refusal :=
  seqOp s [a] (.go (takeTrap s s.focus.tile 0x10 (s.x a) (s.x a) true) [])

/-- eret (R181, R184): privileged. -/
def execEret (s : State) : Host.Outcome State Fault Refusal :=
  seqOp s [] (
    if !(s.tile s.focus.tile).seq.mode then trapAct s 2 (instrWord .eret) 0
    else .go (trapReturn s s.focus.tile) [])

/-- A word that is no instruction (R144): the illegal-instruction trap with the word in tval; its record has 0 for x[a], since no field of the word
is defined. DESIGN CHOICE, log entry 101. -/
def execIllegalInstruction (word : BitVec 32) (s : State) : Host.Outcome State Fault Refusal :=
  seqOp s [] (trapAct s 1 (word.zeroExtend 64) 0)

end Sys2Proof.Machine
end

