-- ==== Sys2Proof/Machine/Streams.lean ====
section
/-! DEFINITION. Streams: marks (R288, R289), the decisions of reads and writes (R290, R292), frames (R293 to R295), mark
changes (R296 to R298), port programs (R300, R301), and the port commands of the sequencer (R299, R304, R308, R309). -/

namespace Sys2Proof.Machine

/-! ### Marks and decisions -/

/-- Offsets are counted modulo 2^48 (R41). -/
def M48 : Nat := 2 ^ 48
/-- The distance from b up to a, modulo 2^48. -/
def gap (a b : Nat) : Nat := (a + M48 - b % M48) % M48

/-- The released tail T (R289): the serially least release mark of the live readers, HWM when none is live. -/
def Stream.tail (st : Stream) : Nat :=
  match (st.readers.filter (fun r => r.2.live)).map (fun r => r.2.release) with
  | [] => st.hwm
  | a :: r => r.foldl (fun m x => if serialLt 48 x m then x else m) a

/-- The frame size F. -/
def Stream.frame (st : Stream) : Nat := 2 ^ st.lfr
/-- The start of the frame that holds T (R292). -/
def Stream.tf (st : Stream) : Nat := st.tail - st.tail % st.frame

/-- How a home decides an access. -/
inductive Decision | pass | block | fault (cause : Nat)
deriving DecidableEq, Repr

/-- A read of n bytes at offset o (R290). -/
def Stream.decideRead (st : Stream) (o n : Nat) : Decision :=
  if serialLt 48 o st.tail then .fault 0x21
  else if serialLe 48 ((o + n) % M48) st.hwm then .pass else .block

/-- Does a write of n bytes at offset o fit the window (R292)? -/
def Stream.fits (st : Stream) (o n : Nat) : Bool := gap (o + n) st.tf ≤ st.extent

/-- A write of n bytes at offset o (R292). -/
def Stream.decideWrite (st : Stream) (o n : Nat) : Decision :=
  if serialLt 48 o st.tail then .fault 0x21 else if st.fits o n then .pass else .block

/-- The handle of a stream address (R41). -/
def streamHandle (a : Word) : Nat := bits a 62 48
/-- The offset of a stream address (R41). -/
def streamOff (a : Word) : Nat := bits a 47 0
/-- A stream address. -/
def streamAddr (h o : Nat) : Word := BitVec.ofNat 64 (2 ^ 63 + h * 2 ^ 48 + o % M48)

/-! ### Frames (R293 to R295) -/

/-- The frame index that backs a frame number; a number met for the first time takes the lowest free index (R293; which
one is a DESIGN CHOICE, log entry 12). None when every frame is taken. -/
def Stream.back (st : Stream) (f : Nat) (spillRoom : Bool) : Option (Stream × Nat) :=
  match st.backing.find f with
  | some i => some (st, i)
  | none =>
    let cap := if st.extent > st.frames * st.frame && spillRoom then st.limit else st.frames
    match firstIdx cap (fun i => !(st.backing.any (fun b => b.2 = i))) with
    | some i => some ({ st with backing := st.backing.put f i }, i)
    | none => none

/-- Recycle the frames that T has passed (R294), and fall back to W × F when nothing needs the spill pool (R295). -/
def Stream.settle (st : Stream) : Stream :=
  let kept := st.backing.filter (fun b => serialLt 48 st.tail ((b.1 + 1) * st.frame % M48))
  let wide := kept.any (fun b => b.2 ≥ st.frames)
  let st1 := { st with backing := kept }
  if !wide && (serialLe 48 st.furthest st1.tf || gap st.furthest st1.tf ≤ st.frames * st.frame) then { st1 with extent := st.frames * st.frame } else st1

/-- Spill frames that a stream holds (R294). -/
def Stream.spilled (st : Stream) : Nat := (st.backing.filter (fun b => b.2 ≥ st.frames)).length

/-! ### Mark changes (R296, R297) -/

/-- sp.hwm and the implicit advance: refused while a reservation is outstanding, backward, or beyond the window. -/
def Stream.advanceHwm (st : Stream) (h : Nat) : Option Stream :=
  if st.rsv = st.hwm && serialLe 48 st.hwm h && gap h st.tf ≤ st.extent then
    some ({ st with hwm := h % M48, rsv := h % M48 }).settle
  else none

/-- Take [RSV, RSV + n) (R296). -/
def Stream.reserve (st : Stream) (n : Nat) : Stream × Nat :=
  ({ st with rsv := (st.rsv + n) % M48, resvs := st.resvs ++ [{ start := st.rsv, size := n, published := false }] }, st.rsv)

/-- Advance HWM over the published prefix, in reservation order (R296). -/
def publishPrefix : List Resv → Nat → List Resv × Nat
  | [], h => ([], h)
  | r :: rest, h => if r.published && r.start = h then publishPrefix rest ((h + r.size) % M48) else (r :: rest, h)

/-- Publish an extent that equals an outstanding reservation (R296, R299). -/
def Stream.publish (st : Stream) (start n : Nat) : Option Stream :=
  if st.resvs.any (fun r => r.start = start && r.size = n && !r.published) then
    let rs := st.resvs.map (fun r => if r.start = start && r.size = n then { r with published := true } else r)
    let (rs1, h) := publishPrefix rs st.hwm
    some ({ st with resvs := rs1, hwm := h }).settle
  else none

/-- A release mark's fate (R297). -/
inductive Rel | ok (st : Stream) | behind | ahead
deriving DecidableEq, Repr

/-- Advance release k to m; a closed reader takes no further part in T (R297, R299). -/
def Stream.releaseTo (st : Stream) (k m : Nat) (close : Bool) : Rel :=
  match st.readers.find k with
  | none => .behind
  | some r =>
    if !r.live || serialLt 48 m r.release then .behind
    else if !serialLe 48 m st.hwm then .ahead
    else
      let r1 : Reader :=
        { live := r.live && !close, release := m % M48, cursor := if serialLt 48 r.cursor m then m % M48 else r.cursor }
      .ok ({ st with readers := st.readers.put k r1 }).settle

/-! ### The launch of a tile and its streams -/

/-- The stream of a launch with a handle. -/
def State.stream (s : State) (l h : Nat) : Option Stream :=
  match s.launch l with | some L => L.streams.find h | none => none
/-- Put a stream. -/
def State.putStream (s : State) (l h : Nat) (st : Stream) : State :=
  s.modLaunch l (fun L => { L with streams := L.streams.put h st })
/-- A mark of a launch changed, a round committed or a command completed (R306). -/
def State.progress (s : State) (l : Nat) : State := s.modLaunch l (fun L => { L with progress := s.now })
/-- The clock of a die, or of a party that has none. -/
def clockOf (s : State) (die : Option Nat) : List Nat := match die with | some d => (s.die d).clock | none => []

/-- The marks of a stream (R288). -/
def Stream.marks (st : Stream) : Nat × Nat × Nat × Tbl Reader := (st.hwm, st.rsv, st.extent, st.readers)

/-- Put a stream: a change of its marks is progress, and rearms the detector (R306). -/
def State.moveStream (s : State) (l h : Nat) (st : Stream) : State :=
  let moved := (s.stream l h).any (fun old => old.marks != st.marks)
  (s.putStream l h st).modLaunch l (fun L => if moved then { L with progress := s.now, fired := false } else L)

/-- Put a stream whose marks a party on a die, or outside, sets: the marks carry its clock (R73). -/
def State.markStream (s : State) (die : Option Nat) (l h : Nat) (st : Stream) : State :=
  s.moveStream l h { st with clock := clockJoin st.clock (clockOf s die) }

/-- Has the spill pool of a launch's home die, in bytes, room for a frame (R295)? -/
def spillRoom (s : State) (l frame : Nat) : Bool :=
  match s.launch l with
  | none => false
  | some L => ((s.launches.filter (fun q => q.2.home = L.home)).map (fun q =>
      (q.2.streams.map (fun x => x.2.spilled * x.2.frame)).foldl (· + ·) 0)).foldl (· + ·) 0 + frame ≤ (s.die L.home).spillSize

/-- The key of the i-th frame of some ranges of frames. -/
def rangeKey (frame : Nat) : List (Nat × Nat) → Nat → Option Nat
  | [], _ => none
  | b :: r, i => if i < b.2 then some (b.1 + i * frame) else rangeKey frame r (i - b.2)

/-- The first key of a physical frame of a stream: a primary frame in its pool, or a frame of the home die, whose place the manual does not
give (R293; log entry 37). -/
def Stream.frameAt (st : Stream) (l h i : Nat) : Nat :=
  ((if i < st.frames then rangeKey st.frame st.base i else none)).getD (frameKey l h (i * st.frame))

/-- The key of a byte of a stream, its frame backed if it was not (R293). DESIGN CHOICE, log entry 37. -/
def streamKey (s : State) (l h o : Nat) : Option (State × Nat) :=
  match s.stream l h with
  | none => none
  | some st =>
    match st.back (o / st.frame) (spillRoom s l st.frame) with
    | none => none
    | some (st1, i) => some (s.putStream l h st1, st.frameAt l h i + o % st.frame)

/-- Note the furthest byte written (R293, R295). -/
def Stream.wrote (st : Stream) (o n : Nat) : Stream :=
  if serialLt 48 st.furthest ((o + n) % M48) then { st with furthest := (o + n) % M48 } else st

/-- The keys of n bytes of a stream from an offset on, frame by frame (R293): an access may straddle two frames. -/
def streamKeys : Nat → State → Nat → Nat → Nat → Option (State × List Nat)
  | 0, s, _, _, _ => some (s, [])
  | n + 1, s, l, h, o =>
    match streamKey s l h (o % M48) with
    | none => none
    | some (s1, k) =>
      match streamKeys n s1 l h (o + 1) with
      | none => none
      | some (s2, ks) => some (s2, k :: ks)

/-- The party of a die that has found the marks of a stream and the bytes of some keys merges their clocks (R73, R75). -/
def streamMerge (s : State) (die : Option Nat) (st : Stream) (ks : List Nat) : State :=
  match die with
  | some d => mergeClock s d (ks.foldl (fun c k => clockJoin c (s.pkg.stamps.get [] k)) st.clock)
  | none => s

/-- Do packets go between a party on a die, or outside, and the home of a launch's streams (R398)? -/
def streamReached (s : State) (die : Option Nat) (l : Nat) : Bool :=
  match die, s.launch l with | some d, some L => routeOpen s d L.home | _, _ => true

/-- A write of a stream by a party on a die, or outside, performed at its home: frames and bytes (R292, R293), which carry its clock (R75).
None when no frame is free (R295), or no packet reaches the home. -/
def streamWrite (s : State) (die : Option Nat) (l h o : Nat) (data : List Byte) : Option (State × List (Nat × Byte)) :=
  match (if streamReached s die l then s.stream l h else none) with
  | none => none
  | some st =>
    match streamKeys data.length (s.putStream l h (st.wrote o data.length)) l h o with
    | none => none
    | some (s1, ks) =>
      let s2 := streamMerge s1 die st []
      some (s2.modPkg (fun p => ks.foldl (fun p k => stampAll p k 1 (clockOf s2 die)) p), ks.zip data)

/-- A read of a stream performed at its home (R290): the reader merges what it has read (R75). -/
def streamRead (s : State) (die : Option Nat) (l h o n : Nat) : Option (State × List Byte) :=
  match (if streamReached s die l then s.stream l h else none), streamKeys n s l h o with
  | some st, some (s1, ks) => some (streamMerge s1 die st ks, ks.map s1.mem.read)
  | _, _ => none

/-! ### Port programs (R300, R301) -/

/-- Bytes of an element. -/
def eszBytes (e : Nat) : Nat := match e with | 0 => 1 | 1 => 2 | 2 => 4 | 3 => 8 | _ => 64

/-- The fields of a 64-byte image (R300). -/
def parsePort (img : List Byte) : PortProg :=
  let w : Word := BitVec.ofNat 64 (leAt img 8 8)
  { base := BitVec.ofNat 64 (leAt img 0 8), spad := bits w 63 62 = 1, write := bit w 61, ctx := bits w 60 58, slot := bits w 57 51,
    pos := bits w 50 49, esz := bits w 48 46, psz := bits w 45 43, nlev := bits w 42 41, stops := bit w 40, rdr := bits w 39 37,
    rel := bit w 36, pub := bit w 35, rlv := bits w 34 32, n := (List.range 4).map (fun i => leAt img (16 + 4 * i) 4),
    s := (List.range 4).map (fun i => BitVec.ofNat 64 (leAt img (32 + 8 * i) 8)) }

/-- Is the program's base a stream address? -/
def PortProg.isStream (p : PortProg) : Bool := !p.spad && bit p.base 63

/-- The checks of R300 on an image. -/
def portOk (s : State) (l : Nat) (img : List Byte) : Bool :=
  let p := parsePort img
  let w : Word := BitVec.ofNat 64 (leAt img 8 8)
  let size := eszBytes p.esz
  bits w 63 62 ≤ 1 && bits w 31 0 = 0 && p.esz ≤ 4 && p.psz ≤ 4 &&
  (if p.write then p.pos = 0 else p.pos != 0) &&
  (List.range 4).all (fun j => let n := p.n.getD j 0; 1 ≤ n && (j ≤ p.nlev || n = 1) &&
    (n = 1 || (p.s.getD j 0).toNat % size = 0)) &&
  p.base.toNat % size = 0 &&
  (if p.write || !p.stops then p.rlv = 0 else p.rlv ≤ p.nlev + 1) &&
  (p.write || !p.isStream ||
    (match s.stream l (streamHandle p.base) with | some st => (st.readers.find p.rdr).isSome | none => false))

/-- Iterations of a program. -/
def PortProg.total (p : PortProg) : Nat := p.n.foldl (· * ·) 1
/-- Iterations of one pass of levels 0 to j. -/
def PortProg.passLen (p : PortProg) (j : Nat) : Nat := (p.n.take (j + 1)).foldl (· * ·) 1

/-- addr(c) of R301. -/
def PortProg.addr (p : PortProg) (c : Nat) : Word :=
  let off := (List.range 4).foldl (fun (acc : Word) j =>
    acc + BitVec.ofNat 64 (c / (p.n.take j).foldl (· * ·) 1 % p.n.getD j 1) * p.s.getD j 0) 0
  if p.spad then BitVec.ofNat 64 ((p.base + off).toNat % 2 ^ 21)
  else if p.isStream then streamAdd p.base off else p.base + off

/-- Level of the stop token after iteration c, 0 for none (R301). -/
def PortProg.stopLevel (p : PortProg) (c : Nat) : Nat :=
  if !p.stops then 0
  else match (List.range (p.nlev + 1)).reverse.find? (fun j => (c + 1) % p.passLen j = 0) with
    | some j => j + 1 | none => 0

/-- A port with a program loaded (R300, R301): counters cleared; seed tokens that wait for a program stay (R27). -/
def loadPort (P : Port) (g : PortProg) (bySeq : Bool) : Port :=
  { Port.reset with prog := some g, bySeq := bySeq, tlb := P.tlb, toks := if P.prog.isNone then P.toks else [],
                    cursor := BitVec.ofNat 64 (streamOff g.base) }

/-! ### Port commands (R299) -/

/-- The launch of the tile in focus; an index that no launch has when there is none. -/
def focusLaunch (s : State) : Nat := ((s.tile s.focus.tile).launch).getD (2 ^ 14)

/-- Is a round of a context in progress on a tile? -/
def roundOf (T : Tile) (ctx : Nat) : Bool := match T.round with | some r => r.ctx = ctx | none => false

/-- A command on the stream that x[a] names: bit 63 set, x[b] in its limits, the handle declared (R145, R168, R299); it waits while no packet reaches the home (R398). -/
def streamCmd (s : State) (a b : Reg) (bad : Bool) (body : Nat → Nat → Stream → Act) : Host.Outcome State Fault Refusal :=
  let l := focusLaunch s
  seqOp s [a, b] (
    if !bit (s.x a) 63 then rangeTrap s (s.x a) (s.x a)
    else if bad then rangeTrap s (s.x b) (s.x a)
    else match s.stream l (streamHandle (s.x a)) with
      | none => trapAct s 9 (s.x a) (s.x a)
      | some st => if streamReached s (some (focusDie s)) l then body l (streamHandle (s.x a)) st else idle s)

/-- sp.cfg (R299, R300, R309). -/
def execSpCfg (a b : Reg) (s : State) : Host.Outcome State Fault Refusal :=
  let t := s.focus.tile
  let T := s.tile t
  let o := (s.x a).toNat
  let p := (s.x b).toNat
  let img := s.mem.bytes (spadKey (clusterOf t) o) 64
  let g := parsePort img
  let P := T.port p
  seqOp s [a, b] (
    if o % 64 != 0 || o + 64 > 2 ^ 21 then rangeTrap s (s.x a) (s.x a)
    else if p ≥ 4 then rangeTrap s (s.x b) (s.x a)
    else when (T.seq.queue.isEmpty && !writePending s t) s (
      if !portOk s (focusLaunch s) img then rangeTrap s (s.x a) (s.x a)
      else when (P.ended && P.delivered = 0 && P.starved = 0 && !P.loan && !roundOf T g.ctx && (match P.prog with | some h => !roundOf T h.ctx | none => true)) s
        (.go (next (s.setTile t (T.setPort p (loadPort P g true)))) [])))

/-- sp.hwm (R296, R299): a release at the stream's scope (R73). -/
def execSpHwm (a b : Reg) (s : State) : Host.Outcome State Fault Refusal :=
  streamCmd s a b (s.x b != 0) (fun l h st =>
    match st.advanceHwm (streamOff (s.x a)) with
      | none => rangeTrap s (s.x a) (s.x a)
      | some st1 => when (released s s.focus.tile (wideScope st.scope)) s (.go (next (s.markStream (some (focusDie s)) l h st1)) []))

/-- The n bytes of a cluster's scratchpad that a port command writes: earlier accesses of its sequencer there are performed first (R68). -/
def nearPiece (k o n : Nat) : Piece := { key := spadKey k o, size := n, home := .near }

/-- Reservations that are outstanding: not published yet (R296). DEDUCED, log entry 72. -/
def Stream.outstanding (st : Stream) : Nat := (st.resvs.filter (fun r => !r.published)).length

/-- sp.resv (R296, R299): a 65th outstanding reservation waits. -/
def execSpResv (a b : Reg) (s : State) : Host.Outcome State Fault Refusal :=
  let n := bits (s.x b) 31 0
  let o := bits (s.x b) 52 32
  streamCmd s a b (bits (s.x b) 63 53 != 0 || n = 0 || o % 8 != 0) (fun l h st =>
    if n > st.extent then rangeTrap s (s.x b) (s.x a)
    else when (st.outstanding < 64 && !((s.tile s.focus.tile).seq.touches (nearPiece (focusCluster s) o 8))) s
      (let (st1, start) := st.reserve n
       .go (next (s.markStream (some (focusDie s)) l h st1)) (putBytes (spadKey (focusCluster s) o) (leBytes 8 (streamAddr h start).toNat))))

/-- sp.pub (R296, R299): a release at the stream's scope (R73). -/
def execSpPub (a b : Reg) (s : State) : Host.Outcome State Fault Refusal :=
  streamCmd s a b false (fun l h st =>
    match st.publish (streamOff (s.x a)) (s.x b).toNat with
    | none => rangeTrap s (s.x a) (s.x a)
    | some st1 => when (released s s.focus.tile (wideScope st.scope)) s (.go (next (s.markStream (some (focusDie s)) l h st1)) []))

/-- sp.rel (R297, R299). -/
def execSpRel (a b : Reg) (s : State) : Host.Outcome State Fault Refusal :=
  streamCmd s a b (bits (s.x b) 63 4 != 0) (fun l h st =>
    match st.releaseTo (bits (s.x b) 2 0) (streamOff (s.x a)) (bit (s.x b) 3) with
      | .behind => rangeTrap s (s.x a) (s.x a)
      | .ahead => trapAct s 0x29 (s.x a) (s.x a)
      | .ok st1 => .go (next (s.markStream (some (focusDie s)) l h st1)) [])

/-- A port after step 1 of R308, and the cursor that step leaves. -/
def rewindPort (P : Port) (g : PortProg) : Port × Nat :=
  ({ P with issued := P.c, toks := [], hwmBlocked := none, fault := none, since := none },
   if P.c = 0 then streamOff (g.addr 0) else (streamOff (g.addr (P.c - 1)) + eszBytes g.esz) % M48)

/-- sp.rew (R291, R299, R308): refused when the cursor would precede release k. -/
def execSpRew (a b : Reg) (s : State) : Host.Outcome State Fault Refusal :=
  let t := s.focus.tile
  let T := s.tile t
  let l := focusLaunch s
  let p := (s.x a).toNat
  let back := (s.x b).toNat
  let P := T.port p
  seqOp s [a, b] (
    if p ≥ 4 then rangeTrap s (s.x a) (s.x a)
    else if back > 2 ^ 40 then rangeTrap s (s.x b) (s.x a)
    else match P.prog with
      | none => rangeTrap s (s.x a) (s.x a)
      | some g =>
        if g.write || !g.isStream then rangeTrap s (s.x a) (s.x a)
        else when (!roundOf T g.ctx && streamReached s (some (focusDie s)) l) s
          (match s.stream l (streamHandle g.base) with
           | none => trapAct s 9 g.base (s.x a)
           | some st =>
             match st.readers.find g.rdr with
             | none => rangeTrap s (s.x a) (s.x a)
             | some r =>
               let (P1, cur) := rewindPort P g
               let c1 := gap cur back
               if serialLt 48 c1 r.release then rangeTrap s (s.x b) (s.x a)
               else
                 let st1 := { st with readers := st.readers.put g.rdr { r with cursor := c1 } }
                 let g1 := { g with base := streamAdd g.base (0 - BitVec.ofNat 64 back) }
                 .go (next ((s.setTile t (T.setPort p { P1 with prog := some g1, read := P1.read.map (fun _ => c1) })).markStream (some (focusDie s)) l (streamHandle g.base) st1)) []))

/-- The global handle of a queue (R304). -/
def queueHandle (s : State) (die i : Nat) : Nat :=
  ((s.die die).queues.get Queue.reset i).gen * 2 ^ 22 + (s.die die).endpoint % 1024 * 2 ^ 12 + i

/-- sp.rdm (R299). -/
def execSpRdm (a b : Reg) (s : State) : Host.Outcome State Fault Refusal :=
  let o := (s.x b).toNat
  streamCmd s a b (o % 32 != 0 || o + 40 > 2 ^ 21) (fun l _ st =>
    let home := match s.launch l with | some L => L.home | none => 0
    let q := match st.queue with | some i => queueHandle s home i | none => 0
    when (!((s.tile s.focus.tile).seq.touches (nearPiece (focusCluster s) o 40))) s (.go (next s) (putBytes (spadKey (focusCluster s) o)
      (leBytes 8 st.hwm ++ leBytes 8 st.rsv ++ leBytes 8 st.tail ++ leBytes 8 st.extent ++ leBytes 8 q))))

/-- Advance the generation of a queue index as it is unbound; at the last generation it is retired (R304). DEDUCED, log entry 67. -/
def Queue.unbind (q : Queue) : Queue :=
  if q.gen = 1023 then { q with bound := none, retired := true } else { q with bound := none, gen := q.gen + 1 }

/-- An index that a stream is bound to. -/
def boundIndex (D : Die) (l h : Nat) : Option Nat := (D.queues.find? (fun q => q.2.bound = some (l, h))).map (·.1)

/-- sp.qbind (R304). -/
def execSpQbind (a b : Reg) (s : State) : Host.Outcome State Fault Refusal :=
  let l := focusLaunch s
  let home := match s.launch l with | some L => L.home | none => 0
  let i := (s.x a).toNat
  let Q := (s.die home).queues.get Queue.reset i
  let put (s : State) (q : Queue) : State := s.modDie home (fun D => { D with queues := D.queues.put i q })
  seqOp s [a, b] (
    if i ≥ 4096 then rangeTrap s (s.x a) (s.x a)
    else if !streamReached s (some (focusDie s)) l then idle s
    else if Q.retired then rangeTrap s (s.x a) (s.x a)
    else if s.x b = 0 then
      (match Q.bound with
       | some (l1, h1) =>
         let s1 := put s Q.unbind
         .go (next (match s1.stream l1 h1 with
           | some st => s1.putStream l1 h1 { st with queue := if st.queue = some i then boundIndex (s1.die home) l1 h1 else st.queue }
           | none => s1)) []
       | none => .go (next s) [])
    else if !bit (s.x b) 63 then rangeTrap s (s.x b) (s.x a)
    else match s.stream l (streamHandle (s.x b)) with
      | none => trapAct s 9 (s.x b) (s.x a)
      | some st =>
        let h := streamHandle (s.x b)
        if st.readers.isEmpty || (Q.bound.isSome && Q.bound != some (l, h)) then rangeTrap s (s.x a) (s.x a)
        else .go (next ((put s { Q with bound := some (l, h) }).putStream l h { st with queue := some i })) [])

end Sys2Proof.Machine
end

