-- ==== Sys2Proof/Machine/TaskTable.lean ====
section
/-! DEFINITION. Task table entries (R248, R249), readiness and choice (R250 to R252), dispatch and completion (R253 to R255). -/

namespace Sys2Proof.Machine

/-! ### Fields of an entry (R248) -/

/-- Bytes off to off + n - 1 of an entry image. -/
def entryAt (e : BitVec 1024) (off n : Nat) : Nat := bits e (8 * (off + n) - 1) (8 * off)
/-- The control word. -/
def entryCtl (e : BitVec 1024) : Word := BitVec.ofNat 64 (entryAt e 64 8)
/-- Wait mask. -/
def entryWait (e : BitVec 1024) : Nat := entryAt e 0 32
/-- Set mask. -/
def entrySet (e : BitVec 1024) : Nat := entryAt e 32 32
/-- Body. -/
def entryBody (e : BitVec 1024) : Nat := entryAt e 72 8
/-- First argument. -/
def entryArg0 (e : BitVec 1024) : Nat := entryAt e 80 8
/-- Second argument. -/
def entryArg1 (e : BitVec 1024) : Nat := entryAt e 88 8
/-- Is the entry valid? -/
def entryValid (e : BitVec 1024) : Bool := bit (entryCtl e) 63
/-- Kind: 0 block, 1 seq, 2 cmd, 3 cond, 4 while, 5 join. -/
def entryKind (e : BitVec 1024) : Nat := bits (entryCtl e) 62 60
/-- Wait bits are not consumed. -/
def entrySticky (e : BitVec 1024) : Bool := bit (entryCtl e) 59
/-- Completion ends the launch. -/
def entryFinal (e : BitVec 1024) : Bool := bit (entryCtl e) 58
/-- The thresholds in use, as (timeline, value). -/
def entryTh (e : BitVec 1024) : List (Nat × Nat) :=
  (if bit (entryCtl e) 57 then [(bits (entryCtl e) 55 50, entryAt e 96 8)] else []) ++
  (if bit (entryCtl e) 56 then [(bits (entryCtl e) 49 44, entryAt e 104 8)] else [])
/-- Page of the task. -/
def entryPage (e : BitVec 1024) : Nat := bits (entryCtl e) 43 40
/-- Context of a block task. -/
def entryCtx (e : BitVec 1024) : Nat := bits (entryCtl e) 39 37
/-- The barrier that an arrival goes to. -/
def entryBar (e : BitVec 1024) : Option Nat := if bit (entryCtl e) 36 then some (bits (entryCtl e) 35 26) else none
/-- Base priority. -/
def entryPrio (e : BitVec 1024) : Nat := bits (entryCtl e) 25 24
/-- Without a wait bit and without a threshold an entry is one-shot (R250). -/
def entryOneShot (e : BitVec 1024) : Bool := entryWait e == 0 && (entryTh e).isEmpty

/-- Condition word offset of a graph node: eight aligned bytes of the scratchpad (R255, R42). -/
def condOffOk (body : Nat) : Bool := body % 2 ^ 21 % 8 == 0
/-- The limits of body and arguments by kind (R253, R255). A cmd entry with scope 0b111 is taken, and its command ends with bad scope; a block entry
may have any arguments. DESIGN CHOICE, log entry 101. -/
def entryBodyOk (e : BitVec 1024) : Bool :=
  let b := entryBody e
  match entryKind e with
  | 0 => b < 2 ^ 32
  | 1 => b < 2 ^ 16 && b % 4 == 0
  | 2 => b < 2 ^ 16 && 1 ≤ b % 8 && b % 8 ≤ 4 && (b / 2 ^ 11 % 4 != 0 || b / 2 ^ 13 == 0)
  | 3 => b < 2 ^ 21 && condOffOk b && entryArg0 e == 0 && entryArg1 e < 2 ^ 36
  | 4 => b / 2 ^ 21 % 2 ^ 11 == 0 && condOffOk b && entryArg0 e == 0 && entryArg1 e < 2 ^ 36
  | 5 => 1 ≤ b && b < 2 ^ 16 && entryArg0 e == 0 && entryArg1 e == 0
  | _ => false

/-- A bad entry (R249): here says whether its page lies on the cluster. -/
def badEntry (e : BitVec 1024) (here : Bool) : Bool :=
  !(entryAt e 112 16 == 0 && bits (entryCtl e) 23 0 == 0 && (entryKind e == 0 || entryCtx e == 0) && here && entryBodyOk e)

/-- An entry as it is written: its state fields are zero (R248). -/
def Task.fresh (e : BitVec 1024) : Task := { image := e, running := false, count := 0, age := 0, done := false, lost := false }

/-! ### Units of a launch -/

/-- The launch of a cluster; an index that no launch has when it serves none. -/
def Cluster.launchNo (K : Cluster) : Nat := K.launch.getD (2 ^ 14)
/-- The tile of the page of an entry of a cluster; the cluster's first tile when there is none. -/
def entryTile (s : State) (k : Nat) (e : BitVec 1024) : Nat := (pageTile s (s.cluster k).launchNo (entryPage e)).getD (k * 4)

/-! ### Readiness (R250) and choice (R251, R252) -/

/-- The resource that an entry competes for (R253): block by tile, seq by tile, cmd, graph. The key under which the cluster
keeps the cycle of the last dispatch to it. -/
def entryResource (s : State) (k : Nat) (e : BitVec 1024) : Nat :=
  match entryKind e with
  | 0 => 16 + entryTile s k e % 4
  | 1 => 20 + entryTile s k e % 4
  | 2 => 8
  | _ => 9

/-- Is the resource of an entry free (R251, R253)? -/
def resourceFree (s : State) (k : Nat) (e : BitVec 1024) : Bool :=
  let t := entryTile s k e
  match entryKind e with
  | 0 => ((s.tile t).ctx (entryCtx e)).run.isNone
  | 1 => (s.tile t).seq.phase = .idle
  | 2 => ((s.cluster k).chain (entryBody e % 8) (t % 4)).free
  | _ => true

/-- Does a tile dispatch: neither gated (R273) nor stopped by a hardware error (R284)? -/
def tileRuns (s : State) (t : Nat) : Bool := !(s.tile t).gated && !(s.tile t).dead

/-- Does the graph of a cluster's launch dispatch: live after step 5 of R26, before a final task (R256)? -/
def graphLive (s : State) (k : Nat) : Bool :=
  !(s.cluster k).final && (match s.launch (s.cluster k).launchNo with | some L => L.phase = .running && !L.dead | none => false)

/-- Is an entry ready (R250)? -/
def entryReady (s : State) (k : Nat) (x : Task) : Bool :=
  let e := x.image
  let K := s.cluster k
  entryValid e && !x.running && !x.done &&
  (List.range 256).all (fun i => !(entryWait e).testBit i || K.events.get false i) &&
  (entryTh e).all (fun p => serialLe 64 p.2 (K.tl.get 0 p.1).toNat) && resourceFree s k e

/-- Can an entry be dispatched in this cycle: it is ready, its resource has had no dispatch in it (R251), and its tile runs? -/
def canDispatch (s : State) (k : Nat) (x : Task) : Bool :=
  (s.cluster k).turn.get 0 (entryResource s k x.image) != s.now + 1 && entryReady s k x && tileRuns s (entryTile s k x.image)

/-- Level of an entry (R251). -/
def Task.level (x : Task) : Nat := min 3 (entryPrio x.image + x.age / 256)
/-- Is (i, x) chosen before (j, y) (R251)? -/
def before (i : Nat) (x : Task) (j : Nat) (y : Task) : Bool :=
  x.level > y.level ||
  (x.level == y.level && (if x.level = 3 then x.age > y.age || (x.age == y.age && i < j) else i < j))

/-- Do two entries compete: for one resource, or, neither of them sticky, for a common wait bit (R252)? -/
def compete (s : State) (k : Nat) (x y : Task) : Bool :=
  entryResource s k x.image == entryResource s k y.image ||
  (!entrySticky x.image && !entrySticky y.image && entryWait x.image &&& entryWait y.image != 0)

/-- Does the engine dispatch entry i now (R251, R252)? -/
def chosen (s : State) (k i : Nat) : Bool :=
  let x := (s.cluster k).task i
  graphLive s k && canDispatch s k x &&
  (s.cluster k).tasks.all (fun p => p.1 = i || !(canDispatch s k p.2 && compete s k x p.2 && before p.1 p.2 i x))

/-! ### Completion (R253) -/

/-- A final task has completed: nothing of the launch dispatches on any cluster of its consist, and retirement begins (R256). -/
def endGraph (s : State) (l : Nat) : State :=
  match s.launch l with
  | some L =>
    (L.consist.foldl (fun s c => s.modCluster c (fun K => { K with final := true })) s).modLaunch l
      (fun L => { L with phase := if L.phase = .running then .ending else L.phase })
  | none => s

/-- Completion of a task: running := 0; the mask is ORed into the events; one barrier arrival; after a final task nothing of
the launch dispatches (R253, R256). -/
def completeTask (s : State) (k i mask : Nat) (arrive : Bool) : State :=
  let x := (s.cluster k).task i
  let e := x.image
  let s1 := s.modCluster k (fun K =>
    { K with tasks := K.tasks.put i { x with running := false, done := x.done || entryOneShot e } }.orEvents mask)
  let s2 := match (if arrive then entryBar e else none) with
    | some b => s1.modTile (entryTile s k e) (fun T => T.arrive s.now b 1 false)
    | none => s1
  if entryFinal e then endGraph s2 (s2.cluster k).launchNo else s2

/-- A task that runs completes with its own set mask. -/
def completeRunning (s : State) (k i : Nat) : State :=
  let x := (s.cluster k).task i
  if x.running then completeTask s k i (entrySet x.image) true else s

end Sys2Proof.Machine
end

