-- ==== Sys2Proof/Machine/Engine.lean ====
section
/-! DEFINITION. What the four cluster engines share: taking the head of a chain, starting a command, the checks of R180, its
completion with its record, timeline and task, faults that stop the chain (R14, R52, R71, R173, R180, R350 to R352). -/

namespace Sys2Proof.Machine

/-! ### Chain entries (R180) -/

/-- The command at a ring index: the fields of the 32 bytes that stand there. -/
def entryOf (s : State) (k eng tile i : Nat) : List Byte := s.mem.bytes (spadKey k (ringOff eng tile i)) 32
/-- Its first word. -/
def entryWord (img : List Byte) : Word := BitVec.ofNat 64 (leAt img 0 8)

/-- A command as it starts. -/
def cmdOf (s : State) (k eng tile : Nat) (c : Chain) : Cmd :=
  let img := entryOf s k eng tile c.head
  let w := entryWord img
  let n := c.notes.get (0, none) c.head
  { seq := c.first, eng := eng, cmd := bits w 63 56, flags := bits w 52 48, mode := bit w 45, a := BitVec.ofNat 64 (leAt img 8 8),
    b := BitVec.ofNat 64 (leAt img 16 8), before := n.1, task := n.2, stage := .begun 0, at_ := s.now, blocked := [], retryAt := 0, banks := 0, accFlags := 0,
    desc := none, groups := if eng = 1 && bits w 63 56 = 3 then s.pkg.groups else [], clock := (s.die (dieOfCluster k)).clock, src := [], fin := [],
    since := s.now, ends := false }

/-- Scope of a command's flags (R179). -/
def Cmd.scope (x : Cmd) : Nat := x.flags / 4
/-- Release flag. -/
def Cmd.release (x : Cmd) : Bool := x.flags / 2 % 2 == 1
/-- Acquire flag. -/
def Cmd.acquire (x : Cmd) : Bool := x.flags % 2 == 1

/-- Has a chain commands to start? -/
def Chain.waiting (c : Chain) : Bool := c.first < c.next
/-- Has the head left the ring: head and sequence number move on. -/
def Chain.pop (c : Chain) : Chain := { c with head := (c.head + 1) % 64, first := c.first + 1, notes := c.notes.del c.head }
/-- Change a started command. -/
def Chain.setCmd (c : Chain) (x : Cmd) : Chain := { c with started := c.started.map (fun y => if y.seq = x.seq then x else y) }
/-- Change a chain. -/
def Cluster.modChain (K : Cluster) (eng tile : Nat) (f : Chain → Chain) : Cluster := K.setChain eng tile (f (K.chain eng tile))
/-- Change a chain of the machine. -/
def State.modChain (s : State) (k eng tile : Nat) (f : Chain → Chain) : State := s.modCluster k (fun K => K.modChain eng tile f)
/-- Put the stage of a started command. -/
def State.stage (s : State) (k tile : Nat) (x : Cmd) (st : Stage) : State :=
  s.modChain k x.eng tile (fun c => c.setCmd { x with stage := st })

/-- Commands that an engine has started and not completed (R258, R350). -/
def startedCount (K : Cluster) (eng : Nat) : Nat :=
  (List.range 4).foldl (fun n j => n + ((K.chain eng j).started.filter (fun x => match x.stage with | .ended _ _ => false | _ => true)).length) 0

/-! ### Records and completion (R173, R180) -/

/-- A completion record: its first word and 56 bytes. -/
def engineRecord (eng tile cmd status seq : Nat) (rest : List Byte) : List Byte :=
  leBytes 8 (2 ^ 63 + eng * 2 ^ 60 + tile * 2 ^ 58 + cmd * 2 ^ 48 + status % 2 ^ 16 * 2 ^ 32 + seq % 2 ^ 32) ++
    (rest ++ List.replicate 56 0).take 56

/-- Is a record written (R253, R350): always for an issued command, for a cmd task only when the status is not ok? -/
def Cmd.records (x : Cmd) (status : Nat) : Bool := x.task.isNone || status != 0

/-- The highest sequence number up to which all are finished. -/
def raise : Nat → List Nat → Nat → Nat
  | 0, _, n => n
  | f + 1, done, n => if done.contains (n + 1) then raise f done (n + 1) else n

/-- A completed command leaves its chain. -/
def Chain.finish (c : Chain) (seq : Nat) : Chain :=
  let done := seq :: c.finished
  let n := raise done.length done c.upTo
  { c with started := c.started.filter (fun x => x.seq != seq), finished := done.filter (fun x => x > n), upTo := n }

/-- Has a command of the copy engine a write that is not visible at a scope: on its way, where that is wider than the die, or write-pending on
a duplicated page (R61, R69)? -/
def cmdPending (s : State) (k tile : Nat) (x : Cmd) : Bool :=
  x.eng = 1 && s.pkg.reqs.any (fun r => r.tile = k * 4 + tile && r.cmd = some x.seq && (wideScope x.scope || r.pends))

/-- May a command complete: are its writes visible when it carries the release flag (R71)? -/
def canComplete (s : State) (k tile : Nat) (x : Cmd) : Bool := !x.release || !cmdPending s k tile x

/-- Has a tile's event queue room for a record (R173)? -/
def Cluster.evqRoom (K : Cluster) (tile : Nat) : Bool := (K.evq.get [] tile).length < 64

/-- A record joins its tile's event queue; where that is full, or earlier records of the chain wait, its engine holds it (R173). -/
def Cluster.queueRecord (K : Cluster) (eng tile : Nat) (record : List Byte) : Cluster :=
  if K.evqRoom tile && (K.chain eng tile).held.isEmpty then { K with evq := K.evq.put tile (K.evq.get [] tile ++ [record]) }
  else K.modChain eng tile (fun c => { c with held := c.held ++ [record] })

/-- The oldest record that a chain holds joins the queue. -/
def Cluster.pushHeld (K : Cluster) (eng tile : Nat) : Cluster :=
  match (K.chain eng tile).held with
  | [] => K
  | r :: rest => { K.modChain eng tile (fun c => { c with held := rest }) with evq := K.evq.put tile (K.evq.get [] tile ++ [r]) }

/-- A command completes: its record, its timeline, its task; and it is progress (R306). -/
def completeCmd (s : State) (k tile : Nat) (x : Cmd) (status : Nat) (record : List Byte) : State :=
  let s1 := s.modCluster k (fun K =>
    let K1 := K.modChain x.eng tile (fun c => c.finish x.seq)
    let K2 := if x.records status then K1.queueRecord x.eng tile (engineRecord x.eng tile x.cmd status x.seq record) else K1
    K2.completeTl (48 + (x.eng - 1) * 4 + tile) (K2.chain x.eng tile).upTo)
  let s2 := match x.task with | some i => completeRunning s1 k i | none => s1
  let s3 := if x.ends then endGraph s2 (s.cluster k).launchNo else s2
  s3.progress (s.cluster k).launchNo

/-- A command ends with a status and record bytes 8 to 63: it completes now, or waits until it may. -/
def endCmd (s : State) (k tile : Nat) (x : Cmd) (status : Nat) (record : List Byte) : State :=
  if canComplete s k tile x then completeCmd s k tile x status record
  else s.stage k tile { x with blocked := [], banks := 0 } (.ended status record)

/-! ### Faults (R352) -/

/-- The record of a command's fault (R352). -/
def cmdFaultRec (s : State) (k tile : Nat) (x : Cmd) (source cause : Nat) (a : Word) (bytes : Nat) : Rec :=
  s.tileRec (k * 4 + tile) (causeAmber cause) source cause a
    [BitVec.ofNat 64 x.seq, x.a, BitVec.ofNat 64 bytes, 0]

/-- A command ends with status 0x0004: a record on the cause's lane; the chain starts nothing until a resume (R52, R352).
After a slate cause the command is stopped and not completed. One that is told "migrating" waits for the interval of rint and tries
again (R60, R353). -/
def faultCmd (s : State) (k tile : Nat) (x : Cmd) (source : Nat) (f : AccFault) (bytes : Nat) (record : List Byte) : State :=
  if f.cause = 0xF then s.stage k tile { x with blocked := [], retryAt := s.now + max 1 (s.cluster k).rint } (.begun bytes) else
  let s1 := ((s.record (cmdFaultRec s k tile x source f.cause f.addr bytes)).modChain k x.eng tile (fun c => { c with stopped := true }))
  let s2 := priRequest s1 (dieOfCluster k) (((s.tile (k * 4 + tile)).selected).ctxid.toNat) f.pri
  if causeAmber f.cause then endCmd s2 k tile x 4 record
  else s2.stage k tile { x with blocked := [] } (.faulted f.cause f.addr bytes)

/-! ### A step of an engine -/

/-- Were the issuing sequencer's stores before the issue performed at cluster scope (R71, R349)? -/
def issuerDone (s : State) (k tile : Nat) (x : Cmd) : Bool :=
  !((s.tile (k * 4 + tile)).seq.queue.any (fun e => e.no < x.before)) && !writePending s (k * 4 + tile)

/-- Has every home applied the writes that came before a command's start, as the clock of its die then covers them (R71, R75)? -/
def startVisible (s : State) (x : Cmd) : Bool := (List.range (dieCount + 1)).all (fun h => covered s h x.clock)

/-- May a started command make its first access: descriptor reads (R349) and the acquire flag (R71) wait for the issuer's
stores, wide scopes also for every write ordered before that is still on its way; and for release writes of earlier commands of the chain,
whose completion comes after they are visible. -/
def cmdReady (s : State) (k tile : Nat) (desc : Bool) (x : Cmd) : Bool :=
  (!(desc || x.acquire) || issuerDone s k tile x) &&
  (!x.acquire || !wideScope x.scope || (!(inFlight s (k * 4 + tile)) && startVisible s x)) &&
  (!x.acquire || ((s.cluster k).chain x.eng tile).started.all (fun y => y.seq ≥ x.seq || !y.release))

/-- The command codes of an engine (R258, R349, R327, R370). -/
def assigned (eng cmd : Nat) : Bool :=
  match eng with
  | 1 => 1 ≤ cmd && cmd ≤ 5
  | 2 => 1 ≤ cmd && cmd ≤ 3
  | 3 => 1 ≤ cmd && cmd ≤ 5
  | _ => 1 ≤ cmd && cmd ≤ 4

/-- Commands started at most at once: 8 of the copy engine (R350), 4 of the reduction and task engines (R258, R371), one of the
matrix engine (R327). -/
def startLimit (eng : Nat) : Nat := match eng with | 1 => 8 | 4 => 1 | _ => 4

/-- The first started command of a chain that satisfies p, among those of a code and, with the events of every code of the engine, those of a code
that is not assigned. -/
def carriesOn (c : Chain) (cmd : Nat) (p : Cmd → Bool) : Option Cmd := c.started.find? (fun x => (x.cmd = cmd || !assigned x.eng x.cmd) && p x)

/-- Key in Cluster.turn of the cycle after an engine's last start. -/
def startKey (eng : Nat) : Nat := 2 ^ 30 + eng

/-- May the head of a chain start: not while its engine holds a record of the chain (R173), and one command a cycle for the copy, task and
matrix engines (R258, R327, R350)? -/
def canStart (s : State) (k eng tile : Nat) : Bool :=
  let c := (s.cluster k).chain eng tile
  ((s.cluster k).turn.get 0 (startKey eng) != s.now + 1 || eng = 2) && c.waiting && !c.stopped && c.held.isEmpty && startedCount (s.cluster k) eng < startLimit eng

/-- The chain of the tiles whose turn it is: from the engine's turn on, the first that can start (R258, R350). -/
def turnTile (s : State) (k eng : Nat) : Option Nat :=
  ((List.range 4).map (fun i => ((s.cluster k).turn.get 0 eng + i) % 4)).find? (canStart s k eng)

/-- Start the head of a chain (R14, R180): it leaves the ring and joins the started commands. -/
def startCmd (s : State) (k eng tile : Nat) : State :=
  let c := (s.cluster k).chain eng tile
  let x := cmdOf s k eng tile c
  s.modCluster k (fun K =>
    { K with turn := (K.turn.put eng ((tile + 1) % 4)).put (startKey eng) (s.now + 1) }.setChain eng tile { c.pop with started := c.started ++ [x] })

/-- The checks of R180 that come before the engine's own: bad command, privilege, bad scope. -/
def precheck (x : Cmd) (privileged : Bool) : Option Nat :=
  if !assigned x.eng x.cmd then some 1
  else if privileged && !x.mode then some 5
  else if x.scope = 7 then some 2
  else none

/-- Record bytes 8 to 63 of a command that those checks end: what it named, of the engines whose records name it (R258, R327). -/
def precheckRec (x : Cmd) : List Byte :=
  match x.eng with
  | 3 => leBytes 8 (if x.cmd = 1 || x.cmd = 3 then x.b else x.a).toNat
  | 4 => leBytes 8 x.a.toNat
  | _ => []

/-- n bytes of an engine's scratchpad. -/
def spadBytes (s : State) (k off n : Nat) : List Byte := s.mem.bytes (spadKey k off) n

/-- A command with its descriptor, which it reads once, from the scratchpad (R349, R370). -/
def Cmd.read (x : Cmd) (s : State) (k : Nat) (desc : Bool) : Cmd :=
  if desc && x.desc.isNone then { x with desc := some (spadBytes s k (x.a.toNat % 2 ^ 21) 64) } else x

/-- Can a started command of a code be carried on now? -/
def goesOn (s : State) (k tile cmd : Nat) (desc : Bool) (x : Cmd) : Bool :=
  match x.stage with
  | .begun _ => x.cmd = cmd && decide (x.retryAt ≤ s.now) && cmdReady s k tile desc x
  | _ => false

/-- A command of an engine and a code: a held record joins its queue; else the engine completes what waits to complete, carries on the command that
stands at a place among the started ones of the chain, or, with a place beyond them, starts the head of the chain. Started commands proceed
concurrently (R350): which goes on is the place's choice. desc: the command reads a descriptor from the scratchpad. body performs it, from
its start or from where it stood. DESIGN CHOICE, log entry 39. -/
def engineAt (eng cmd : Nat) (privileged desc : Bool) (cluster tile pick : Nat) (s : State)
    (body : State → Cmd → State × List (Nat × Byte)) : Host.Outcome State Fault Refusal :=
  perform s (within (cluster < clusterCount && tile < 4) (
    let go (s : State) (x : Cmd) : Act :=
      match precheck x privileged with
      | some st => .go (endCmd s cluster tile x st (precheckRec x)) []
      | none => if cmdReady s cluster tile desc x then let r := body s (x.read s cluster desc); .go r.1 r.2 else .go s []
    let c := (s.cluster cluster).chain eng tile
    if !c.held.isEmpty && (s.cluster cluster).evqRoom tile then .go (s.modCluster cluster (fun K => K.pushHeld eng tile)) []
    else match carriesOn c cmd (fun x => match x.stage with | .ended _ _ => canComplete s cluster tile x | _ => false) with
    | some x =>
      (match x.stage with
       | .ended st r => .go (completeCmd s cluster tile x st r) []
       | _ => idle s)
    | none =>
      match c.started[pick]? with
      | some x => when (goesOn s cluster tile cmd desc x) s (go s x)
      | none =>
        let h := cmdOf s cluster eng tile c
        when (canStart s cluster eng tile && turnTile s cluster eng = some tile && tileRuns s (cluster * 4 + tile) &&
            (h.cmd = cmd || !assigned eng h.cmd)) s
          (go (startCmd s cluster eng tile) h)))

/-- The place of the first command of a code that can be carried on; one beyond the started commands where there is none. -/
def firstBegun (s : State) (eng k tile cmd : Nat) (desc : Bool) : Nat :=
  let l := ((s.cluster k).chain eng tile).started
  (l.findIdx? (goesOn s k tile cmd desc)).getD l.length

/-- The same of an engine whose commands go on in the order of the chain. -/
def engineOp (eng cmd : Nat) (privileged desc : Bool) (cluster tile : Nat) (s : State)
    (body : State → Cmd → State × List (Nat × Byte)) : Host.Outcome State Fault Refusal :=
  engineAt eng cmd privileged desc cluster tile (firstBegun s eng cluster tile cmd desc) s body

/-- The launch of an engine's cluster. -/
def engineLaunch (s : State) (k : Nat) : Option (Nat × Launch) :=
  (s.cluster k).launch.bind (fun l => (s.launch l).map (fun L => (l, L)))

/-- Eight bytes of a number in a record, after those before it. -/
def rec8 (v : Nat) : List Byte := leBytes 8 v

end Sys2Proof.Machine
end

