-- ==== Sys2Proof/Machine/FabCore.lean ====
section
/-! DEFINITION. How a slot of the round in hand fires (R191 to R199): operands, the table of R196, space at targets, what an
output sends and where, counted slots (R199, R208), voiding (R209, R267 to R271, R318) and the fabric fault. -/

namespace Sys2Proof.Machine

/-- A slot at work: the machine, its tile and round as they will stand, the context, the slot and its word. -/
structure Fab where
  s : State
  t : Nat
  T : Tile
  r : Round
  c : Ctx
  slot : Nat
  op : Nat
  f : FabWord

/-- What comes of a slot's turn: it cannot fire, it raises a fabric fault (R215), or it has acted. -/
inductive Fate
  | wait
  | fault (cause : Nat) (value : Word) (pri : Option Nat)
  /-- A fault of the gather unit, a record of source 6 (R320). -/
  | gather (cause : Nat) (value : Word) (pri : Option Nat)
  /-- A fault of a write port's access as it takes a token (R50, R303). -/
  | port (p cause : Nat) (value : Word) (pri : Option Nat)
  | ok (e : Fab)

/-- Go on when the slot has acted. -/
def Fate.andThen (x : Fate) (k : Fab → Fate) : Fate := match x with | .ok e => k e | x => x

/-- The place of a fault among those that one firing of a slot raises: amber before slate, the slot before the ports, these in their order (R270). -/
def Fate.rank : Fate → Nat
  | .fault c _ _ | .gather c _ _ => if causeAmber c then 0 else 8
  | .port p c _ _ => (if causeAmber c then 0 else 8) + 1 + p % 4
  | _ => 16

/-- The second output after the first; where the first raises a fault, the record names the first of the faults of both (R270). -/
def Fate.both (x : Fate) (e : Fab) (k : Fab → Fate) : Fate :=
  match x with
  | .ok e1 => k e1
  | .wait => .wait
  | f => if (k e).rank < f.rank then k e else f

/-! ### Latches and slots -/

/-- The word of a slot of a block. -/
def Block.word (b : Block) (slot : Nat) : Word := b.slots.get 0 slot
/-- Opcode of a slot of the context. -/
def Ctx.op (c : Ctx) (slot : Nat) : Nat := slotOp (c.block.word slot)
/-- Fields of a slot of the context. -/
def Ctx.fields (c : Ctx) (slot : Nat) : FabWord := slotFields (c.block.word slot)
/-- The token in a latch (R187). -/
def Round.at_ (r : Round) (slot pos : Nat) : Option Tok := r.latch.find (slot * 4 + pos)
/-- Slot state. -/
def Round.st (r : Round) (slot : Nat) : SlotSt := r.slotSt.get SlotSt.reset slot
/-- Put slot state. -/
def Round.setSt (r : Round) (slot : Nat) (x : SlotSt) : Round := { r with slotSt := r.slotSt.put slot x }
/-- The state of this slot. -/
def Fab.st (e : Fab) : SlotSt := e.r.st e.slot
/-- Put the state of this slot. -/
def Fab.setSt (e : Fab) (x : SlotSt) : Fab := { e with r := e.r.setSt e.slot x }

/-- The kind that a position of a slot word takes (R191). -/
def posKind (op : Nat) (f : FabWord) (pos : Nat) : Option Kind :=
  match pos with | 1 => kindL op f.imm.toNat | 2 => kindR op f.imm.toNat | _ => some .bit

/-- Positions of the value operands of a slot. -/
def valuePos (op : Nat) (f : FabWord) : List Nat := [1, 2].filter (fun p => (posKind op f p).isSome)
/-- sel and vsel take their selector at .p (R216). -/
def selector (op : Nat) : Bool := op == 5 || op == 6
/-- Order tokens that a slot awaits (R192). -/
def orderNeed (op : Nat) (f : FabWord) : Nat :=
  match opInfo op with | some o => orderCount o f.imm.toNat | none => 0
/-- Is the slot order-gated? -/
def orderGated (f : FabWord) : Bool := f.pm == 3

/-- Is the pm condition met, tokens being present (R196)? -/
def predPresent (r : Round) (op : Nat) (f : FabWord) (slot : Nat) : Bool :=
  if f.pm = 3 then r.order.get 0 slot = orderNeed op f
  else if f.pm = 0 && !selector op then true
  else (r.at_ slot 3).isSome

/-! ### Targets -/

/-- Where an output goes. -/
inductive Dest
  | none
  | slot (index pos : Nat)
  | g (k : Nat)
  | v (k : Nat)
  | away (page index pos : Nat)
  | ports (ps : List Nat)
deriving DecidableEq, Repr

/-- The export word of an output of a slot (R201, R205): the page, if its valid bit is set. -/
def exportOf (b : Block) (slot out : Nat) : Option Nat :=
  let w := b.fields.get 0 (slot % 64 * 4 + slot / 64)
  if out = 0 then (if bit w 4 then some (bits w 3 0) else Option.none)
  else (if bit w 9 then some (bits w 8 5) else Option.none)

/-- Write ports that a slot feeds (R301, R385). -/
def feedPorts (T : Tile) (ctx slot : Nat) : List Nat :=
  (List.range 4).filter (fun p => match (T.port p).prog with | some g => g.write && g.ctx = ctx && g.slot = slot | none => false)

/-- Where output out of a slot word goes (R191, R201, R301). -/
def destOf (T : Tile) (b : Block) (ctx slot out : Nat) (f : FabWord) : Dest :=
  let tg := if out = 0 then f.t0.toNat else f.t1.toNat
  let i := tg % 256
  let pos := tg / 256
  if pos = 0 then (if out = 0 && feedPorts T ctx slot != [] then .ports (feedPorts T ctx slot) else .none)
  else match exportOf b slot out with
    | some p => .away p i pos
    | none => if i < 128 then .slot i pos else if i < 192 then .g (i - 128) else .v (i - 192)

/-- The kind that a destination takes; an exported target's is that of its slot on the other page (R201, R243). -/
def Fab.destKind (e : Fab) (d : Dest) : Kind :=
  match d with
  | .slot i pos => (posKind (e.c.op i) (e.c.fields i) pos).getD .scalar
  | .away q i pos =>
    (match pageTile e.s (e.T.launch.getD (2 ^ 14)) q with
     | some t => (posKind (((e.s.tile t).ctx e.r.ctx).op i) (((e.s.tile t).ctx e.r.ctx).fields i) pos).getD .scalar
     | none => .scalar)
  | .g _ => .scalar
  | .v _ => .vector
  | _ => .scalar

/-! ### The networks (R188, R198, R200 to R202) -/

/-- The element above the seam port: row 7, column 3 (R202). -/
def seamElement : Nat := 59
/-- The element whose switch box a source injects into: a slot's own, a port's in row 0 and column 2k, the seam port's. -/
def srcBox (src : Nat) : Nat := if src < 128 then src % 64 else if src < 260 then 2 * (src - 256) else seamElement
/-- The input that a source injects at (R188, R200, R202). -/
def srcWay (src : Nat) : Nat := if src < 128 then 4 + src / 64 else if src < 260 then 6 else 7
/-- Number of a network in a switch word (R205). -/
def Kind.net : Kind → Nat | .scalar => 0 | .vector => 1 | .bit => 2

/-- The element to whose column and row a token goes: that of its target, or of the seam port. -/
def Transit.goal (x : Transit) : Nat := if x.page.isSome then seamElement else x.index % 64

/-- The box after a box on the way to an element, and the input it is entered at: along the row first, or along the column first
where the switch word says so (R198, R205). -/
def nextBox (columnFirst : Bool) (a b : Nat) : Option (Nat × Nat) :=
  let x : Option (Nat × Nat) := if a % 8 < b % 8 then some (a + 1, 0) else if b % 8 < a % 8 then some (a - 1, 1) else none
  let y : Option (Nat × Nat) := if a / 8 < b / 8 then some (a + 8, 2) else if b / 8 < a / 8 then some (a - 8, 3) else none
  if columnFirst then (y <|> x) else (x <|> y)

/-- Does the switch word of an element reverse the order of a network (R205)? -/
def columnFirst (b : Block) (box : Nat) (k : Kind) : Bool := bit (b.fields.get 0 (box * 4 + 2)) k.net

/-- The next box of a token: each element orders the routes through its box by its own switch word. DESIGN CHOICE, log entry 34. -/
def Transit.next (x : Transit) (b : Block) : Option (Nat × Nat) := nextBox (columnFirst b x.box x.tok.kind) x.box x.goal
/-- Does the token's next move end at its target: it stands on the target's element or one box before it? -/
def Transit.last (x : Transit) (b : Block) : Bool := match x.next b with | none => true | some q => q.1 = x.goal

/-- Are two the copies of one token, which carries both targets of its slot (R188)? -/
def Transit.twin (x y : Transit) : Bool := x.src = y.src && x.born = y.born && x.tok.kind = y.tok.kind

/-- The token of a seam port that an exported token becomes, for the context of the sender's number (R201, R202). DEDUCED, log entry 91. -/
def Transit.seamTok (x : Transit) (page ctx : Nat) : SeamTok :=
  { ctx := ctx, index := x.index, pos := x.pos, tok := x.tok, src := page * 256 + x.src * 2 + x.out }

/-- Does an input of a switch box hold a token of a network? -/
def Round.holds (r : Round) (k : Kind) (box way : Nat) : Bool := r.transit.any (fun y => y.tok.kind = k && y.box = box && y.way = way)

/-- Is the injection point of a source free? -/
def Round.canInject (r : Round) (k : Kind) (src : Nat) : Bool := !r.holds k (srcBox src) (srcWay src)

/-- Is an operand position empty, or about to be emptied by this firing (R30, R192)? -/
def posFree (r : Round) (c : Ctx) (i pos : Nat) : Bool :=
  if pos = 3 && orderGated (c.fields i) then r.order.get 0 i < orderNeed (c.op i) (c.fields i)
  else (r.at_ i pos).isNone

/-- Has a destination space for a token of a kind (R30, R198, R302): its position is free and the slot's injection point is empty?
mine: the slot's own positions are consumed by the firing. -/
def Fab.room (e : Fab) (mine : Bool) (k : Kind) (d : Dest) : Bool :=
  match d with
  | .slot i pos => (posFree e.r e.c i pos || (mine && i = e.slot)) && e.r.canInject k e.slot
  | .away _ _ _ => e.r.canInject k e.slot
  | _ => true

/-- Destination of an output of this slot. -/
def Fab.dest (e : Fab) (out : Nat) : Dest := destOf e.T e.c.block e.r.ctx e.slot out e.f

/-- Has the write port that this slot feeds room for a data token in its 64 entries (R302)? -/
def Fab.portRoom (e : Fab) : Bool :=
  match e.dest 0 with | .ports ps => ps.all (fun p => (e.T.port p).buf.length + (e.T.port p).committed.length < 64) | _ => true

/-- The data of a token for a port of an element size (R301). -/
def portData (esz : Nat) (b : Vec) : List Byte := leBytes (eszBytes esz) (b.toNat % 2 ^ (8 * eszBytes esz))

/-- log2 of the bound page size of a port (R45, R50). -/
def boundSpan (psz : Nat) : Nat := match psz with | 0 => 14 | 1 => 18 | 2 => 22 | 3 => 26 | _ => 30
/-- The LV page window of an access of a port (R50, R58). -/
def windowOf (g : PortProg) (a : Word) : Nat := a.toNat / 2 ^ boundSpan g.psz
/-- The translation that a port holds for the window of an address (R50); what ATS answered serves its own page of the window (R47). -/
def Port.windowed (P : Port) (g : PortProg) (a : Word) : Option Xlat :=
  P.window.bind (fun w =>
    if !g.spad && !g.isStream && w.1 = windowOf g a && (!w.2.isAts || w.2.page = a.toNat >>> 14) then some w.2 else none)

/-- A port takes a token (R301, R302): null and stop tokens write nothing. -/
def Port.take (P : Port) (no : Nat) (tok : Tok) : Port :=
  match P.prog with
  | none => P
  | some g =>
    if tok.null || tok.level != 0 || P.issued + P.buf.length ≥ g.total then P
    else
      let c := P.issued + P.buf.length
      { P with buf := P.buf ++ [{ addr := g.addr c, data := portData g.esz tok.bits, c := c, no := no, deps := tok.deps,
                                  xlat := P.windowed g (g.addr c) }] }

/-- A token as it is injected by this slot for an output (R188, R198). -/
def Fab.inject (e : Fab) (out index pos : Nat) (page : Option Nat) (tok : Tok) : Fab :=
  { e with r := { e.r with transit := e.r.transit ++
      [{ src := e.slot, out := out, index := index, pos := pos, page := page, tok := tok, box := srcBox e.slot, way := srcWay e.slot,
         born := e.s.now, since := e.s.now }] } }

/-- Send a token to a destination: none in the answer where a write slot is written twice (R208). -/
def Fab.put (e : Fab) (out : Nat) (d : Dest) (tok : Tok) : Option Fab :=
  match d with
  | .none => some e
  | .slot i pos => some (e.inject out i pos none tok)
  | .g k =>
    if (e.r.gw.find k).isSome then none
    else some { e with r := { e.r with gw := e.r.gw.put k (if tok.null || tok.level != 0 then none else some (tok.bits.truncate 64)) } }
  | .v k =>
    if (e.r.vw.find k).isSome then none
    else some { e with r := { e.r with vw := e.r.vw.put k (if tok.null || tok.level != 0 then none else some tok.bits) } }
  | .away p i pos => some (e.inject out i pos (some p) { tok with deps := [] })
  | .ports ps => some { e with T := ps.foldl (fun T p => T.modPort p (fun P => P.take e.r.no tok)) e.T }

/-- log2 of the size of the leaf of a translation: a host-delegated span is one L3 leaf (R46, R47). -/
def Xlat.leafSpan (x : Xlat) : Nat := if x.isAts then 44 else x.span

/-- The translation of a port's LV access: the one that the port holds for the window (R50), else port TLB, cluster TLB, walker (R48), then
page size and permission (R410). -/
def portXlat (s : State) (t : Nat) (P : Port) (g : PortProg) (held : Option Xlat) (a : Word) : Except AccFault Xlat :=
  if notLv a then .error { cause := 5, addr := a, pri := none }
  else match held with
  | some x => .ok x
  | none =>
    match xlate s (clusterOf t) ((s.tile t).ctx g.ctx) (P.tlb ++ (s.cluster (clusterOf t)).tlb) a.toNat with
    | .error (e, p) => .error { cause := e, addr := a, pri := p }
    | .ok x =>
      if x.leafSpan < boundSpan g.psz then .error { cause := 0x20, addr := a, pri := none }
      else if !(if g.write then x.wr else x.rd) then .error { cause := 0xB, addr := a, pri := none }
      else .ok x

/-- The piece of a port's LV access, and the translation that it uses. -/
def portPiece (s : State) (t : Nat) (P : Port) (g : PortProg) (held : Option Xlat) (a : Word) : Except AccFault (Piece × Used) :=
  match portXlat s t P g held a with
  | .error f => .error f
  | .ok x => homePiece s (dieOf t) a.toNat (eszBytes g.esz) x

/-- A port has translated the window of an address (R50). -/
def Port.keep (P : Port) (g : PortProg) (a : Word) (x : Xlat) : Port := { P with window := some (windowOf g a, x) }

/-- The LV address at which a write port would write a token, if it writes it. -/
def Port.lvAddr (P : Port) (tok : Tok) : Option (PortProg × Word) :=
  P.prog.bind (fun g =>
    let c := P.issued + P.buf.length
    if tok.null || tok.level != 0 || c ≥ g.total || g.spad || g.isStream then none else some (g, g.addr c))

/-- The write ports of a slot translate the window of the address of a token, where they do not hold it (R50). -/
def Fab.translate (e : Fab) (ps : List Nat) (tok : Tok) : Fab :=
  { e with T := ps.foldl (fun T p => T.modPort p (fun P =>
      match P.lvAddr tok with
      | some (g, a) => (match portXlat e.s e.t P g (P.windowed g a) a with | .ok x => P.keep g a x | .error _ => P)
      | none => P)) e.T }

/-- The fault of the access that a token gives a port in LV space: its translation is judged as the port takes the token, within the
round (R50, R303, R410; DEDUCED, log entry 31). Stream offsets are decided as the writes are performed (R302). -/
def Fab.portFault (e : Fab) (tok : Tok) (p : Nat) : Option (Nat × AccFault) :=
  let P := e.T.port p
  match P.lvAddr tok with
  | none => none
  | some (g, a) => match portPiece e.s e.t P g (P.windowed g a) a with
    | .error f => some (p, f)
    | .ok _ => none

/-- The first of the faults that a token raises at the ports of an output: amber before slate, then the lowest port (R270). -/
def Fab.portFaults (e : Fab) (out : Nat) (tok : Tok) : Option (Nat × AccFault) :=
  let fs := match e.dest out with | .ports ps => ps.filterMap (e.portFault tok) | _ => []
  (fs.find? (fun f => causeAmber f.2.cause)).or fs.head?

/-- Send a token on an output. -/
def Fab.send (e : Fab) (out : Nat) (tok : Tok) : Fate :=
  match e.portFaults out tok with
  | some (p, f) => .port p f.cause f.addr f.pri
  | none =>
    match (e.translate (match e.dest out with | .ports ps => ps | _ => []) tok).put out (e.dest out) tok with
    | some e1 => .ok e1
    | none => .fault 0x23 (Config.faultValue 0x23 e.slot) none

/-- Send one token to both outputs (R188). -/
def Fab.emit (e : Fab) (tok : Tok) : Fate := (e.send 0 tok).both e (fun e1 => e1.send 1 tok)

/-- A data token. -/
def dataTok (k : Kind) (b : Vec) (deps : List Nat) : Tok := { kind := k, level := 0, null := false, bits := b, deps := deps }
/-- A stop token of level k (R195): value zero. -/
def stopTok (kind : Kind) (k : Nat) (deps : List Nat) : Tok := { kind := kind, level := k, null := false, bits := 0, deps := deps }
/-- A null token (R195). -/
def nullTok (kind : Kind) (deps : List Nat) : Tok := { kind := kind, level := 0, null := true, bits := 0, deps := deps }
/-- A bit token. -/
def bitTok (b : Bool) (deps : List Nat) : Tok := dataTok .bit (if b then 1 else 0) deps

/-- The kind that an output sends (R191). -/
def Fab.outKind (e : Fab) (out : Nat) : Kind :=
  match (if out = 0 then kindOut0 e.op e.f.imm.toNat else kindOut1 e.op e.f.imm.toNat) with
  | .one k => k
  | _ => e.destKind (e.dest out)

/-- What an output sends in place of a value for a null (R196): a memory node and bar send their completion bit. -/
def Fab.nullFor (e : Fab) (out : Nat) (deps : List Nat) : Tok :=
  if out = 1 && (opMemory e.op || e.op = 0x92) then bitTok true deps else nullTok (e.outKind out) deps

/-- What an output sends for stop tokens of level k (R196). -/
def Fab.stopFor (e : Fab) (out k : Nat) (deps : List Nat) : Tok :=
  if out = 1 && (opMemory e.op || e.op = 0x92) then bitTok true deps
  else if e.outKind out = .bit then nullTok .bit deps else stopTok (e.outKind out) k deps

/-- Send null to every target. -/
def Fab.emitNull (e : Fab) (deps : List Nat) : Fate :=
  (e.send 0 (e.nullFor 0 deps)).both e (fun e1 => e1.send 1 (e1.nullFor 1 deps))

/-- Send stop level k. -/
def Fab.emitStop (e : Fab) (k : Nat) (deps : List Nat) : Fate :=
  (e.send 0 (e.stopFor 0 k deps)).both e (fun e1 => e1.send 1 (e1.stopFor 1 k deps))

/-! ### Firing (R196) -/

/-- A counted slot fires, is nullified or stopped: the collision fault a second time (R199, R208). -/
def Fab.count (e : Fab) : Fate :=
  if !opCounted e.op then .ok e
  else if e.r.fired.contains e.slot then .fault 0x23 (Config.faultValue 0x23 e.slot) none
  else .ok { e with r := { e.r with fired := e.r.fired ++ [e.slot] } }

/-- The operands of a firing: value tokens in order of position, predicate, and all that its output derives from (R66). -/
structure Held3 where
  vals : List Tok
  pred : Option Tok
  deps : List Nat

/-- Union of dependencies. -/
def unionDeps (a b : List Nat) : List Nat := a ++ b.filter (fun x => !a.contains x)

/-- The operands of this slot, when all are present (R196). -/
def Fab.operands (e : Fab) : Option Held3 :=
  match (valuePos e.op e.f).mapM (e.r.at_ e.slot) with
  | none => none
  | some vs =>
    if !predPresent e.r e.op e.f e.slot then none
    else
      let p : Option Tok :=
        if e.f.pm = 3 then
          some { kind := .bit, level := 0, null := e.r.orderNul.contains e.slot, bits := 1, deps := e.r.orderDeps.get [] e.slot }
        else if e.f.pm = 0 && !selector e.op then none else e.r.at_ e.slot 3
      let all := vs ++ p.toList
      some { vals := vs, pred := p, deps := all.foldl (fun d x => unionDeps d x.deps) [] }

/-- Consume operands, predicate and order tokens (R192, R196). -/
def Fab.consume (e : Fab) : Fab :=
  let keep := fun (p : Nat × Tok) => p.1 / 4 != e.slot
  { e with r := { e.r with latch := e.r.latch.filter keep, order := e.r.order.del e.slot, orderDeps := e.r.orderDeps.del e.slot,
                           orderNul := e.r.orderNul.filter (fun x => x != e.slot) } }

/-- Is a predicate refusing (R189)? -/
def refuses (f : FabWord) (op : Nat) (p : Option Tok) : Bool :=
  !selector op && match p with
  | some q => (f.pm == 1 && q.bits.getLsbD 0 == false) || (f.pm == 2 && q.bits.getLsbD 0)
  | none => false

/-- The rows of the table of R196, first match. -/
inductive Row | null | mismatch | refuse | stop (k : Nat) | data
deriving DecidableEq, Repr

/-- Which row applies. -/
def judge (f : FabWord) (op : Nat) (h : Held3) : Row :=
  if (h.vals ++ h.pred.toList).any (·.null) then .null
  else
    let l := match h.vals with | x :: _ => x.level | [] => 0
    if h.vals.any (fun x => x.level != l) then .mismatch
    else if refuses f op h.pred then .refuse
    else if l != 0 then .stop l else .data

/-- Would this turn of the slot send a data token? A write port takes null and stop tokens without writing them (R301). -/
def Fab.sendsData (e : Fab) : Bool :=
  match e.st.out with
  | x :: _ => !x.null && x.level = 0
  | [] =>
    if opSource e.op then true
    else match e.operands with
      | none => false
      | some h => match judge e.f e.op h with
        | .data => !(e.op ∈ [0x68, 0x6A, 0x6B])
        | .stop _ => e.op ∈ [0x69, 0x6A, 0x6B, 0x6C]
        | _ => false

/-- Have the targets space (R196)? A full write port holds up data tokens alone (R302). -/
def Fab.space (e : Fab) : Bool :=
  e.room true (e.outKind 0) (e.dest 0) && e.room true (e.outKind 1) (e.dest 1) && (e.portRoom || !e.sendsData)

/-- A slot that follows the table of R196 in full: onStop is what a stop token does to its state, act what data does. -/
def Fab.table (e : Fab) (onStop : Nat → Fab → Fab) (act : Fab → Held3 → Fate) : Fate :=
  match e.operands with
  | none => .wait
  | some h =>
    if !e.space then .wait
    else match judge e.f e.op h with
      | .null => e.consume.count.andThen (fun e1 => e1.emitNull h.deps)
      | .mismatch => .fault 0x22 (Config.faultValue 0x22 e.slot) none
      | .refuse => .ok e.consume
      | .stop k => (onStop k e.consume).count.andThen (fun e1 => e1.emitStop k h.deps)
      | .data => act e h

/-! ### Gangs (R323, R324) -/

/-- The gang and split fields of an mma immediate (R323). -/
def gangFields (imm : Nat) : Nat := imm / 2 ^ 8 % 8

/-- The gang and split fields of the gang nodes of a block. -/
def blockGangs (b : Block) : List Nat :=
  (b.slots.filterMap (fun p =>
    let imm := (slotFields p.2).imm.toNat
    if slotOp p.2 = 0x89 && imm / 512 % 4 != 0 then some (gangFields imm) else none)).eraseDups

/-- The other tiles and contexts that hold a node of a tile's gang of some gang and split fields (R323): on the clusters of its positions.
DEDUCED, log entry 42. -/
def peersOf (s : State) (t key : Nat) : List (Nat × Nat) :=
  match (s.tile t).launch.bind s.launch with
  | none => []
  | some L =>
    let g := 2 ^ (key / 2)
    ((L.consist.drop ((s.cluster (clusterOf t)).pos / g * g)).take g).flatMap (fun k =>
      (List.range 4).flatMap (fun i => (List.range 8).filterMap (fun c =>
        if k * 4 + i = t || (s.tile (k * 4 + i)).launch != (s.tile t).launch then none
        else if (blockGangs ((s.tile (k * 4 + i)).ctx c).block).contains key then some (k * 4 + i, c) else none)))

/-- Those of every gang that a context has a node of. -/
def gangPeers (s : State) (t ctx : Nat) : List (Nat × Nat) :=
  ((blockGangs ((s.tile t).ctx ctx).block).flatMap (peersOf s t)).eraseDups

/-- The tiles and contexts whose rounds form a set with the round in hand of a tile (R324): none where its gang nodes have not fired. -/
def gangOf (s : State) (t ctx : Nat) : List (Nat × Nat) :=
  match (s.tile t).round with
  | some r => if r.ganged && r.ctx = ctx then gangPeers s t ctx else []
  | none => []

/-- Is the round in hand of a peer the one of the same count, so that it is of the set (R324)? -/
def inSet (s : State) (t ctx : Nat) (p : Nat × Nat) : Bool :=
  match (s.tile p.1).round with
  | some q => q.ctx = p.2 && q.ganged && ((s.tile p.1).ctx p.2).gangs = ((s.tile t).ctx ctx).gangs
  | none => false

/-! ### Voiding (R209, R267, R268, R318, R336) -/

/-- Is a port used by a context (R267)? -/
def Port.serves (P : Port) (ctx : Nat) : Bool := match P.prog with | some g => g.ctx = ctx | none => false

/-- The iteration vector of a round (R267). -/
def iterVector (T : Tile) (ctx : Nat) : List Word :=
  (List.range 4).map (fun p => let P := T.port p; if P.serves ctx then BitVec.ofNat 64 P.saved.c else 0)

/-- A port rewinds to its recorded position (R268): a write port drops the writes of the round, and keeps those of
committed rounds. A fault of an early translation stays (R50). -/
def Port.rewind (P : Port) : Port :=
  if (match P.prog with | some g => g.write | none => false) then { P with buf := [] }
  else { P with c := P.saved.c, issued := P.saved.issued, toks := P.saved.toks, shareClosed := P.saved.shareClosed,
                read := P.saved.read, hwmBlocked := none, since := none }

/-- The cursor of the reader of a port that reads a stream (R267). -/
def readerCursor (s : State) (t : Nat) (P : Port) : Option Nat :=
  match P.prog with
  | none => none
  | some g =>
    if g.write || !g.isStream then none
    else (s.stream (s.tile t).launchNo (streamHandle g.base)).bind (fun st => (st.readers.find g.rdr).map (·.cursor))

/-- The reader's cursor returns to a recorded value (R268); it does not come to precede a release made since (R291). -/
def Stream.rewindTo (st : Stream) (k c : Nat) : Stream :=
  match st.readers.find k with
  | some r => { st with readers := st.readers.put k { r with cursor := if serialLt 48 c r.release then r.release else c } }
  | none => st

/-- The cursors of the ports that served a voided round return to what they were at its start (R268). -/
def rewindCursors (s : State) (t ctx : Nat) : State :=
  (List.range 4).foldl (fun s p =>
    let P := (s.tile t).port p
    match P.prog, P.saved.mark with
    | some g, some c =>
      if !(P.serves ctx) then s
      else match s.stream (s.tile t).launchNo (streamHandle g.base) with
        | some st => s.moveStream (s.tile t).launchNo (streamHandle g.base) (st.rewindTo g.rdr c)
        | none => s
    | _, _ => s) s

/-- The matrix engine forgets a round of a context (R318): its k-steps, one that runs abandoned, and the tiles it opened or completed;
the settings of every bank return to their values at round start (R336). -/
def Matrix.voidRound (m : Matrix) (tile ctx round : Nat) (settings : List BndSet) (now : Nat) : Matrix :=
  let mine := fun (n : Node) => n.tile = tile && n.ctx = ctx
  let banks := (List.range 4).foldl (fun (b : Tbl Bank) i =>
    let k := b.get Bank.reset i
    let k := { k with set := settings.getD i k.set }
    let k := if k.tag != .empty && mine k.owner && k.round = round then { k with tag := Tag.empty, closing := false, readOut := false }
             else if mine k.owner then { k with readOut := false } else k
    b.put i k) m.banks
  let gone := fun (k : Kstep) => mine k.node && k.round = round
  { m with banks := banks, queue := m.queue.filter (fun k => !gone k),
           busyUntil := if m.queue.any (fun k => k.started && gone k) then min m.busyUntil now else m.busyUntil,
           gathers := m.gathers.filter (fun g => !mine g.node) }

/-- Note the cycle in which the tag of a bank has changed (R316, R322). -/
def Matrix.stamp (m old : Matrix) (now : Nat) : Matrix :=
  (List.range 4).foldl (fun m b =>
    if (m.bank b).tag = (old.bank b).tag then m else m.modBank b (fun k => { k with since := some now })) m
/-- Change the matrix engine of a cluster. -/
def State.modMx (s : State) (k : Nat) (f : Matrix → Matrix) : State :=
  s.modCluster k (fun K => { K with mx := (f K.mx).stamp K.mx s.now })

/-- Void the round in hand of a tile (R209): everything it made is discarded; seam tokens, ports and cursors come back. A first round
draws from rseed again, also from one written meanwhile. DESIGN CHOICE, log entry 100. -/
def voidRound (s : State) (t : Nat) : State :=
  let T := s.tile t
  match T.round with
  | none => s
  | some r =>
    let ports := (List.range 4).foldl (fun (m : Tbl Port) p =>
      let P := m.get Port.reset p
      if P.serves r.ctx then m.put p P.rewind else m) T.ports
    let T1 := { T with round := none, ports := ports, seam := r.seamTaken ++ T.seam }
    let T2 := T1.modCtx r.ctx (fun c => { c with fresh := c.fresh || r.freshStart })
    (rewindCursors (s.setTile t T2) t r.ctx).modMx (clusterOf t) (fun m => m.voidRound (t % 4) r.ctx r.no r.settings s.now)

/-! ### The fabric fault (R215, R269, R270) -/

/-- What a context waits for after a fault of a cause (R269). -/
def stopFor (cause slot port source : Nat) (value : Word) (pri : Option Nat) : StopWhy :=
  match pri with | some p => .pri p slot port source value | none => .cause cause []

/-- The record of a voided round (R270, R282). -/
def roundRec (s : State) (t ctx slot port source cause : Nat) (value : Word) (info : List Word) : Rec :=
  { s.tileRec t (causeAmber cause) source cause value info with voided := true, ctx := ctx, slot := slot, port := port }

/-- Void the round of a tile with its record, and stop its context (R269, R270). -/
def voidWith (s : State) (t slot port source cause : Nat) (value : Word) (pri : Option Nat) : State :=
  match (s.tile t).round with
  | none => s
  | some r =>
    let info := iterVector (s.tile t) r.ctx
    let s1 := (voidRound s t).record (roundRec s t r.ctx slot port source cause value info)
    let s2 := s1.modTile t (fun T => T.modCtx r.ctx (fun c => { c with stopped := some (stopFor cause slot port source value pri) }))
    priRequest s2 (dieOf t) (((s.tile t).ctx r.ctx).ctxid.toNat) pri

/-- A fault of the round in hand of a tile: the rounds of its set are voided with it, one record each (R324), and each replays when the
page is resident where a page is missing (R269). -/
def fabricFault (s : State) (t slot port source cause : Nat) (value : Word) (pri : Option Nat) : State :=
  match (s.tile t).round with
  | none => s
  | some r =>
    ((gangOf s t r.ctx).filter (inSet s t r.ctx)).foldl (fun s p => voidWith s p.1 slot port source cause value pri)
      (voidWith s t slot port source cause value pri)

/-- The state after a slot has acted: it is not stalled in this cycle (R30). -/
def Fab.done (e : Fab) : State := e.s.setTile e.t { e.T with round := some { e.r with acted := e.r.acted ++ [e.slot] } }

/-- What a slot's turn makes of the machine. -/
def Fate.act (x : Fate) (s : State) (t slot : Nat) : Act :=
  match x with
  | .wait => idle s
  | .fault cause value pri => .go (fabricFault s t slot 0 0 cause value pri) []
  | .gather cause value pri => .go (fabricFault s t slot 0 6 cause value pri) []
  | .port p cause value pri => .go (fabricFault s t 0 p 2 cause value pri) []
  | .ok e => .go e.done []

/-- A slot of the round in hand of a tile, its word given. -/
def Fab.at_ (s : State) (t : Nat) (r : Round) (slot op : Nat) (f : FabWord) : Fab :=
  { s := s, t := t, T := s.tile t, r := r, c := (s.tile t).ctx r.ctx, slot := slot, op := op, f := f }

/-- Do the clocks of a tile run (R273, R284)? -/
def Tile.live (T : Tile) : Bool := !T.gated && !T.dead

/-- A fabric instruction: the slot in focus takes its turn in the round in hand of its context. -/
def fabric (op : Nat) (f : FabWord) (s : State) (body : Fab → Fate) : Host.Outcome State Fault Refusal :=
  let t := s.focus.tile
  let slot := s.focus.slot
  perform s (within (t < tileCount && s.focus.ctx < 8 && slot < 128) (
    match (s.tile t).round with
    | none => idle s
    | some r => when (r.ctx = s.focus.ctx && (s.tile t).live) s ((body (Fab.at_ s t r slot op f)).act s t slot)))

/-! ### Values -/

/-- Rounding code of a slot word (R189). -/
def rndOf (f : FabWord) : Nat := f.imm.toNat / 2 ^ 27
/-- The type code. -/
def typeOf (f : FabWord) : Nat := f.mod.toNat

/-- A scalar result in a token (R213): sign extension above a signed integer, zeros above every other type. -/
def widen (code v : Nat) : Vec :=
  let w := codeWidth code
  if codeSigned code && codeInt code then BitVec.ofInt 64 (signedOf w v) |>.zeroExtend 512 else BitVec.ofNat 512 (v % 2 ^ w)

/-- The low w bits of a token (R213). -/
def Tok.low (x : Tok) (w : Nat) : Nat := x.bits.toNat % 2 ^ w
/-- A scalar token as a 64-bit word. -/
def Tok.word (x : Tok) : Word := x.bits.truncate 64

/-- The lanes of a vector at a width (R213). -/
def lanesOf (w v : Nat) : List Nat := (List.range (512 / w)).map (fun i => v >>> (w * i) % 2 ^ w)
/-- A vector from its lanes. -/
def packLanes (w : Nat) (l : List Nat) : Vec := BitVec.ofNat 512 (l.foldr (fun x acc => acc * 2 ^ w + x % 2 ^ w) 0)

/-- Draw a stochastic word of an element for a rounding into f (R104, R107). -/
def drawFor (f : Fmt) (mode : Nat) (z : Word) : Word × Word :=
  if effMode f mode = 4 then let z1 := z + 0x9E3779B97F4A7C15; (z1, mix64 z1) else (z, 0)
/-- As drawFor, for a type code: only a float format draws. -/
def drawCode (code mode : Nat) (z : Word) : Word × Word :=
  match fmtOf code with | some f => drawFor f mode z | none => (z, 0)

/-- The scalar rule of an opcode: operands, stochastic state, to result, flags, state after. -/
abbrev LaneFn := Nat → Nat → Word → Nat × Flags × Word

/-- Lanes in ascending order (R223, R224). -/
def lanewise (fn : LaneFn) : List Nat → List Nat → Word → List Nat × Flags × Word
  | a :: as, b :: bs, z =>
    let r := fn a b z
    let q := lanewise fn as bs r.2.2
    (r.1 :: q.1, r.2.1 ||| q.2.1, q.2.2)
  | _, _, z => ([], 0, z)

/-- Stochastic state of this slot's element (R107). -/
def Fab.sto (e : Fab) : Word := e.r.sto.get 0 (e.slot % 64)
/-- Note flags and stochastic state (R106, R107). -/
def Fab.note (e : Fab) (fl : Flags) (z : Word) : Fab :=
  { e with r := { e.r with flags := e.r.flags ||| fl, sto := e.r.sto.put (e.slot % 64) z } }

/-- The first and second operand; a missing one reads as zero. -/
def Held3.l (h : Held3) : Tok := h.vals.getD 0 (dataTok .scalar 0 [])
/-- The second operand. -/
def Held3.r (h : Held3) : Tok := h.vals.getD 1 (dataTok .scalar 0 [])

/-- A scalar opcode: rule on the low w bits of the operands, result of a type code or a bit. -/
def scalarOp (op : Nat) (f : FabWord) (s : State) (fn : LaneFn) : Host.Outcome State Fault Refusal :=
  fabric op f s (fun e => e.table (fun _ e => e) (fun e h =>
    let w := codeWidth (typeOf f)
    let q := fn (h.l.low w) (h.r.low w) e.sto
    (e.consume.note q.2.1 q.2.2).emit (dataTok .scalar (widen (typeOf f) q.1) h.deps)))

/-- An opcode that sends a bit (R219). -/
def bitOp (op : Nat) (f : FabWord) (s : State) (fn : Tok → Tok → Bool × Flags) : Host.Outcome State Fault Refusal :=
  fabric op f s (fun e => e.table (fun _ e => e) (fun e h =>
    let q := fn h.l h.r
    (e.consume.note q.2 e.sto).emit (bitTok q.1 h.deps)))

/-- A lane-wise vector opcode (R223). -/
def vectorOp (op : Nat) (f : FabWord) (s : State) (fn : LaneFn) : Host.Outcome State Fault Refusal :=
  fabric op f s (fun e => e.table (fun _ e => e) (fun e h =>
    let w := codeWidth (typeOf f)
    let q := lanewise fn (lanesOf w h.l.bits.toNat) (lanesOf w h.r.bits.toNat) e.sto
    (e.consume.note q.2.1 q.2.2).emit (dataTok .vector (packLanes w q.1) h.deps)))

/-- An opcode whose token is a function of its operand tokens (R216, R225). -/
def tokenOp (op : Nat) (f : FabWord) (s : State) (fn : Fab → Held3 → Kind × Vec × Flags × Word) :
    Host.Outcome State Fault Refusal :=
  fabric op f s (fun e => e.table (fun _ e => e) (fun e h =>
    let q := fn e h
    (e.consume.note q.2.2.1 q.2.2.2).emit (dataTok q.1 q.2.1 h.deps)))

end Sys2Proof.Machine
end

