-- ==== Sys2Proof/Machine/Estimate.lean ====
section
/-! DEFINITION. The arithmetic of an estimating session (R375, R380, R382) and what a commit of a lent round does to it
(R380, R381). -/

namespace Sys2Proof.Machine

/-! ### FP64 steps, each rounded to nearest (R380) -/

/-- An FP64 encoding beside flags. -/
abbrev F64 := Nat × Flags
/-- One rounded operation on two encodings. -/
def f64Op (fn : Val → Val → Val × Flags) (a b : F64) : F64 :=
  let x := fn (decodeFmt .f64 a.1) (decodeFmt .f64 b.1)
  let q := round .f64 x.1 0
  (q.1, a.2 ||| b.2 ||| x.2 ||| q.2)
/-- a + b. -/
def f64Add (a b : F64) : F64 := f64Op (fun x y => vadd x y 0) a b
/-- a - b. -/
def f64Sub (a b : F64) : F64 := f64Op (fun x y => vadd x y.neg 0) a b
/-- a × b. -/
def f64Mul (a b : F64) : F64 := f64Op vmul a b
/-- a / b. -/
def f64Div (a b : F64) : F64 := f64Op vdiv a b
/-- A count. -/
def f64Nat (n : Nat) : F64 := ((round .f64 (Val.ofInt n) 0).1, 0)

/-- Statistics: count, mean, M2 (R380). -/
structure Stats where
  n : Nat
  mean : F64
  m2 : F64
deriving DecidableEq, Repr

/-- Nothing taken. -/
def Stats.zero : Stats := { n := 0, mean := (0, 0), m2 := (0, 0) }
/-- update(x) of R380; x carries the flags of its conversion (R98). -/
def Stats.update (s : Stats) (x : F64) : Stats :=
  let n := s.n + 1
  let d := f64Sub x s.mean
  let mean := f64Add s.mean (f64Div d (f64Nat n))
  { n := n, mean := mean, m2 := f64Add s.m2 (f64Mul d (f64Sub x mean)) }
/-- merge(b) of R380, left to right. -/
def Stats.merge (a b : Stats) : Stats :=
  if a.n = 0 then b
  else
    let nb := a.n + b.n
    let d := f64Sub b.mean a.mean
    let mean := f64Add a.mean (f64Div (f64Mul d (f64Nat b.n)) (f64Nat nb))
    let t := f64Div (f64Mul (f64Mul (f64Mul d d) (f64Nat a.n)) (f64Nat b.n)) (f64Nat nb)
    { n := nb, mean := mean, m2 := f64Add (f64Add a.m2 b.m2) t }

/-- The stop check of R380, exact on the FP64 values: z² × M2 < tol² × n × (n − 1). -/
def stopHolds (z tol m2 n nmin : Nat) : Bool :=
  let zv := decodeFmt .f64 z
  let tv := decodeFmt .f64 tol
  let mv := decodeFmt .f64 m2
  let c := Val.ofInt ((n : Int) * ((n : Int) - 1))
  decide (n ≥ nmin) && decide (n > 1) && vlt (vmul (vmul zv zv).1 mv).1 (vmul (vmul tv tv).1 c).1

/-! ### The permutation (R375) -/

/-- ceil(log2 N). -/
def log2Up (n : Nat) : Nat := if n ≤ 1 then 0 else Nat.log2 (n - 1) + 1
/-- h of R375. -/
def permHalf (n : Nat) : Nat := max 1 (ceilDiv (log2Up n) 2)
/-- perm of R375. -/
def perm (seed : Word) (h x : Nat) : Nat :=
  let q := (List.range 4).foldl (fun (p : Nat × Nat) i =>
    let key := mix64 (seed + BitVec.ofNat 64 i)
    (p.2, (p.1 ^^^ ((mix64 (key ^^^ BitVec.ofNat 64 p.2)).toNat % 2 ^ h)) % 2 ^ h)) (x / 2 ^ h, x % 2 ^ h)
  q.1 * 2 ^ h + q.2
/-- Cycle walking, with fuel for the whole domain. -/
def permWalk (seed : Word) (h n : Nat) : Nat → Nat → Nat
  | 0, y => y
  | k + 1, y => if y ≥ n then permWalk seed h n k (perm seed h y) else y
/-- pi of R375. -/
def permute (seed : Word) (n k : Nat) : Nat :=
  let h := permHalf n
  permWalk seed h n (2 ^ (2 * h)) (perm seed h k)

/-! ### A commit of a lent round (R380, R381) -/

/-- A value that the take port took, converted to FP64 (R379), with the flags of the conversion (R98, R106). -/
def takeValue (vt : Nat) (w : PortWrite) : F64 := convert 8 vt (leNat w.data % 2 ^ codeWidth vt) 0

/-- The keys of the participants whose loan of ports to a context of a tile goes on. -/
def Session.lenders (S : Session) (t ctx : Nat) : List Nat :=
  (S.members.filter (fun m => m.2.tile = t && m.2.ctx = ctx && !m.2.done)).map (·.1)

/-- Indices delivered to the round in hand by the feed port. -/
def Port.givenNow (P : Port) : Nat := P.c - P.saved.c

/-- Put the session of a launch. -/
def State.setSession (s : State) (l : Nat) (S : Session) : State := s.modLaunch l (fun L => { L with session := some S })

/-- The loan of a member's ports ends once its command has completed and the round with its level-2 stop has committed (R377). -/
def endLoan (s : State) (m : Member) : State :=
  s.modTile m.tile (fun T => (T.modPort m.feed (fun P => { Port.reset with tlb := P.tlb })).modPort m.take (fun P => { Port.reset with tlb := P.tlb }))

/-- Reason of an ended session (R382). -/
def Session.reason (S : Session) : Nat := if S.failed then 2 else if S.stopped then 0 else 1

/-- The final record of a participant (R382). -/
def sessionRecord (S : Session) (m : Member) : List Byte :=
  leBytes 8 S.c ++ leBytes 8 S.n ++ leBytes 8 S.mean ++ leBytes 8 S.m2 ++ leBytes 1 S.reason ++ leBytes 1 S.flags.toNat ++ leBytes 6 0 ++
    leBytes 8 m.items

/-- A participant whose command ends with the session. -/
def Member.finish (m : Member) : Member :=
  if m.gone then m else { m with gone := true, knows := true, owed := 0, chunks := [], sums := [] }

/-- The session ends: every participant's command ends with the final record; with fin, the completion of the root's ends the launch (R381, R382). DEDUCED, log entry 54. -/
def endSession (s : State) (l : Nat) (S : Session) : State :=
  match s.launch l with
  | none => s
  | some L =>
    let live := S.members.filter (fun p => !p.2.gone)
    let S1 : Session := { S with ended := true, members := S.members.map (fun p => (p.1, p.2.finish)) }
    live.foldl (fun s p =>
      match L.consist[p.1]? with
      | some k =>
        (match ((s.cluster k).chain 2 p.2.from_).started.find? (fun x => x.seq = p.2.cmd) with
         | some x => endCmd s k p.2.from_ { x with ends := p.1 = 0 && S.fin } (if S.failed then 0x43 else 0) (sessionRecord S p.2)
         | none => s)
      | none => s) (s.setSession l S1)

/-- What the commit of a round does to the session of its launch for one participant of the context (R377, R380, R381): the chunk's
statistics go on their way to the root; a different number of values ends the session; the level-2 stop has been received. -/
def sessionCommitOf (s : State) (l key : Nat) : State :=
  match (s.launch l).bind (fun L => L.session.bind (fun S => (S.members.find key).map (fun m => (S, m)))) with
  | none => s
  | some (S, m) =>
    let T := s.tile m.tile
    let vals := (T.port m.take).buf.map (takeValue m.vt)
    let given := (T.port m.feed).givenNow
    let s1 := s.modTile m.tile (fun T => T.modPort m.take (fun P => { P with buf := [] }))
    let m0 : Member := { m with closed := m.closed || (m.level2 && (T.port m.feed).toks.isEmpty) }
    let S0 : Session := { S with members := S.members.put key m0 }
    if vals.length != given && !m.gone then endSession s1 l { S0 with failed := true }
    else if m0.closed || given = 0 || m.gone then s1.setSession l S0
    else
      let st := vals.foldl Stats.update Stats.zero
      let m1 : Member :=
        { m with sent := if m.sums.isEmpty then s.now else m.sent, sums := m.sums ++ [(st.n, st.mean.1, st.m2.1, (st.mean.2 ||| st.m2.2).toNat)], items := m.items + given }
      s1.setSession l { S with members := S.members.put key m1 }

/-- What the commit of a round does to the session of its launch, for every loan of ports to its context. -/
def sessionCommit (s : State) (t ctx : Nat) : State :=
  match (s.tile t).launch with
  | none => s
  | some l =>
    match (s.launch l).bind (fun L => L.session) with
    | none => s
    | some S => (S.lenders t ctx).foldl (fun s key => sessionCommitOf s l key) s

/-- Has the command of a participant of a session completed? -/
def loanPaid (s : State) (L : Launch) (key : Nat) (m : Member) : Bool :=
  match L.consist[key % 16]? with
  | some k => !(((s.cluster k).chain 2 m.from_).started.any (fun x => x.seq = m.cmd))
  | none => false

/-- The loans end of the participants whose command has completed and whose round with the level-2 stop has committed (R377). -/
def endLoans (s : State) (l : Nat) : State :=
  match s.launch l with
  | none => s
  | some L =>
    match L.session with
    | none => s
    | some S =>
      let over_ := S.members.filter (fun p => p.2.gone && p.2.closed && !p.2.done && loanPaid s L p.1 p.2)
      if over_.isEmpty then s
      else over_.foldl (fun s p => endLoan s p.2) (s.setSession l
        { S with members := over_.foldl (fun ms p => ms.put p.1 { p.2 with done := true }) S.members })

end Sys2Proof.Machine
end

