-- ==== Sys2Proof/Machine/FabFloat.lean ====
section
/-! DEFINITION. Scalar floating-point opcodes of the fabric (R220 to R222), and their rules on one lane. -/

namespace Sys2Proof.Machine

/-- The format of a float type code; the scalar and vector float opcodes admit 0x8 to 0xB (R220). -/
def fmtFor (c : Nat) : Fmt := (fmtOf c).getD .f64

/-- round of an exact value and its flags (R220), drawing a stochastic word where the mode does (R107). -/
def roundLane (fm : Fmt) (mode : Nat) (x : Val × Flags) (z : Word) : Nat × Flags × Word :=
  let d := drawFor fm mode z
  let q := round fm x.1 mode d.2
  (q.1, x.2 ||| q.2, d.1)

/-- A rule with one rounding of an exact result (R220). -/
def floatLane (c mode : Nat) (fn : Val → Val → Val × Flags) : LaneFn := fun a b z =>
  roundLane (fmtFor c) mode (fn (decodeFmt (fmtFor c) a) (decodeFmt (fmtFor c) b)) z
/-- A rule on one operand. -/
def floatLane1 (c mode : Nat) (fn : Val → Val × Flags) : LaneFn := fun a _ z =>
  roundLane (fmtFor c) mode (fn (decodeFmt (fmtFor c) a)) z
/-- fadd's exact result, with the sign of an exact zero (R105). -/
def addExact (c mode : Nat) (a b : Val) : Val × Flags := vadd a b (effMode (fmtFor c) mode)
/-- fsub's exact result. -/
def subExact (c mode : Nat) (a b : Val) : Val × Flags := vadd a b.neg (effMode (fmtFor c) mode)
/-- frcp's exact result (R220). -/
def rcpExact (a : Val) : Val × Flags := vdiv (Val.ofInt 1) a

/-- fmin and fmax (R221): -0 below +0; the other operand where one is a NaN. -/
def minMax (c : Nat) (greater : Bool) (a b : Nat) : Nat × Flags :=
  let fm := fmtFor c
  let x := decodeFmt fm a
  let y := decodeFmt fm b
  let fl := flIf (x.isSnan || y.isSnan) flNV
  if x.isNan && y.isNan then (fm.nanBits, fl)
  else if x.isNan then (b, fl)
  else if y.isNan then (a, fl)
  else
    let less := vlt x y || (veq x y && x.sign && !y.sign)
    (if less != greater then a else b, fl)

/-- fabs on one lane (R220): the sign bit clears; a NaN gives the canonical NaN. -/
def absLane (c : Nat) : LaneFn := fun a _ z =>
  let fm := fmtFor c
  if (decodeFmt fm a).isNan then (fm.nanBits, 0, z) else (a % 2 ^ (fm.width - 1), 0, z)

/-! ### Fused multiply-add and the running value (R222) -/

/-- A value as slot state and accumulators hold it; of a NaN, whether it is signalling (R98). -/
def Val.hold : Val → Bool × Nat × Nat × Nat
  | .nan s => (s, 0, 1, 2) | .inf n => (n, 0, 1, 1) | .fin n a d => (n, a, d, 0)
/-- The value that slot state holds. -/
def Val.held (x : Bool × Nat × Nat × Nat) : Val :=
  match x.2.2.2 with | 0 => .fin x.1 x.2.1 x.2.2.1 | 1 => .inf x.1 | _ => .nan x.1

/-- Source of the addend: a block register (R222). -/
def fromRegister (f : FabWord) : Bool := f.imm.toNat / 2 ^ 24 % 8 == 1
/-- Level that resets the running value, 0 for never. -/
def resetLevel (f : FabWord) : Nat := f.imm.toNat / 2 ^ 21 % 8

/-- One lane of a fused operation on the running value: the token, flags, state, and the new running value. -/
def runLane (c mode : Nat) (fn : Val → Val → Val × Flags) (acc : Val) (a b : Val) (z : Word) : Nat × Flags × Word × Val :=
  let fm := fmtFor c
  let p := fn a b
  let x := vadd p.1 acc (effMode fm mode)
  let d := drawFor fm mode z
  let q := roundAcc fm x.1 mode d.2
  let e := roundLane fm mode (q.1, 0) d.1
  (e.1, p.2 ||| x.2 ||| q.2 ||| e.2.1, e.2.2, q.1)

/-- Lanes of a fused operation, in ascending order (R224): the round_acc of the running value before the round. -/
def runLanes (c mode : Nat) (fn : Val → Val → Val × Flags) : List Val → List (Val × Val) → Word →
    List Nat × Flags × Word × List Val
  | acc, (a, b) :: r, z =>
    let q := runLane c mode fn (acc.headD .zero) a b z
    let t := runLanes c mode fn acc.tail r q.2.2.1
    (q.1 :: t.1, q.2.1 ||| t.2.1, t.2.2.1, q.2.2.2 :: t.2.2.2)
  | _, [], z => ([], 0, z, [])

/-- Lanes of a fused operation with a register addend: one rounding (R220, R222). -/
def regLanes (c mode : Nat) (fn : Val → Val → Val × Flags) : List Val → List (Val × Val) → Word → List Nat × Flags × Word
  | x :: xs, (a, b) :: r, z =>
    let p := fn a b
    let y := vadd p.1 x (effMode (fmtFor c) mode)
    let q := roundLane (fmtFor c) mode (y.1, p.2 ||| y.2) z
    let t := regLanes c mode fn xs r q.2.2
    (q.1 :: t.1, q.2.1 ||| t.2.1, t.2.2)
  | _, _, z => ([], 0, z)

/-- scacc and vscacc (R227). -/
def scales (op : Nat) : Bool := op == 0x62 || op == 0x63

/-- What the running value of a slot derives from (R66): its own firings since the last reset. -/
def Fab.runDeps (e : Fab) (h : Held3) : List Nat := unionDeps e.st.deps h.deps

/-- A fused opcode (R222, R227): pairs reads the operand values of each lane; a stop token of level k ≥ rlev ≠ 0 resets the
running value. With a register addend fma and fnma round once; scacc and vscacc do round_acc and then round on it too (R227). -/
def fusedOp (op : Nat) (f : FabWord) (s : State) (vec : Bool) (pairs : Held3 → List (Val × Val))
    (fn : Val → Val → Val × Flags) : Host.Outcome State Fault Refusal :=
  let c := typeOf f
  let w := codeWidth c
  let pack (l : List Nat) : Vec := if vec then packLanes w l else widen c (l.headD 0)
  let kind : Kind := if vec then .vector else .scalar
  fabric op f s (fun e => e.table
    (fun k e => if resetLevel f != 0 && k ≥ resetLevel f then e.setSt { e.st with acc := [], deps := [] } else e)
    (fun e h =>
      if fromRegister f then
        let reg : Nat := if vec then (e.T.v.get 0 (f.imm.toNat % 16)).toNat else (e.T.g.get 0 (f.imm.toNat % 64)).toNat
        let adds := (if vec then lanesOf w reg else [reg % 2 ^ w]).map (decodeFmt (fmtFor c))
        let q := if scales op then (let p := runLanes c (rndOf f) fn adds (pairs h) e.sto; (p.1, p.2.1, p.2.2.1))
          else regLanes c (rndOf f) fn adds (pairs h) e.sto
        (e.consume.note q.2.1 q.2.2).emit (dataTok kind (pack q.1) h.deps)
      else
        let q := runLanes c (rndOf f) fn (e.st.acc.map Val.held) (pairs h) e.sto
        ((e.consume.setSt { e.st with acc := q.2.2.2.map Val.hold, deps := e.runDeps h }).note q.2.1 q.2.2.1).emit
          (dataTok kind (pack q.1) (e.runDeps h))))

/-- The operand values of a scalar fused opcode. -/
def scalarPair (f : FabWord) (h : Held3) : List (Val × Val) :=
  let fm := fmtFor (typeOf f)
  [(decodeFmt fm (h.l.low fm.width), decodeFmt fm (h.r.low fm.width))]
/-- The negated product of fnma (R220). -/
def negMul (a b : Val) : Val × Flags := let p := vmul a b; (p.1.neg, p.2)

/-- fadd (R220). -/
def execFabFadd (f : FabWord) (s : State) : Host.Outcome State Fault Refusal :=
  scalarOp 0x30 f s (floatLane (typeOf f) (rndOf f) (addExact (typeOf f) (rndOf f)))
/-- fsub (R220). -/
def execFabFsub (f : FabWord) (s : State) : Host.Outcome State Fault Refusal :=
  scalarOp 0x31 f s (floatLane (typeOf f) (rndOf f) (subExact (typeOf f) (rndOf f)))
/-- fmul (R220). -/
def execFabFmul (f : FabWord) (s : State) : Host.Outcome State Fault Refusal :=
  scalarOp 0x32 f s (floatLane (typeOf f) (rndOf f) vmul)
/-- fma (R222). -/
def execFabFma (f : FabWord) (s : State) : Host.Outcome State Fault Refusal :=
  fusedOp 0x33 f s false (scalarPair f) vmul
/-- fnma (R222). -/
def execFabFnma (f : FabWord) (s : State) : Host.Outcome State Fault Refusal :=
  fusedOp 0x34 f s false (scalarPair f) negMul
/-- fdiv (R220). -/
def execFabFdiv (f : FabWord) (s : State) : Host.Outcome State Fault Refusal :=
  scalarOp 0x35 f s (floatLane (typeOf f) (rndOf f) vdiv)
/-- fsqrt (R220). -/
def execFabFsqrt (f : FabWord) (s : State) : Host.Outcome State Fault Refusal :=
  scalarOp 0x36 f s (floatLane1 (typeOf f) (rndOf f) vsqrt)
/-- frcp (R220). -/
def execFabFrcp (f : FabWord) (s : State) : Host.Outcome State Fault Refusal :=
  scalarOp 0x37 f s (floatLane1 (typeOf f) (rndOf f) rcpExact)
/-- fmin (R221). -/
def execFabFmin (f : FabWord) (s : State) : Host.Outcome State Fault Refusal :=
  scalarOp 0x38 f s (fun a b z => let q := minMax (typeOf f) false a b; (q.1, q.2, z))
/-- fmax (R221). -/
def execFabFmax (f : FabWord) (s : State) : Host.Outcome State Fault Refusal :=
  scalarOp 0x39 f s (fun a b z => let q := minMax (typeOf f) true a b; (q.1, q.2, z))
/-- fabs (R220). -/
def execFabFabs (f : FabWord) (s : State) : Host.Outcome State Fault Refusal :=
  scalarOp 0x3A f s (absLane (typeOf f))
/-- fneg on one lane (R220): the sign bit changes; a NaN gives the canonical NaN. -/
def negLane (c : Nat) : LaneFn := fun a _ z =>
  let fm := fmtFor c
  if (decodeFmt fm a).isNan then (fm.nanBits, 0, z) else ((a + 2 ^ (fm.width - 1)) % 2 ^ fm.width, 0, z)
/-- fexp2 on one lane (R221). -/
def exp2Lane (c : Nat) : LaneFn := fun a _ z => let q := fexp2 (fmtFor c) c a; (q.1, q.2, z)
/-- flog2 on one lane (R221). -/
def log2Lane (c : Nat) : LaneFn := fun a _ z => let q := flog2 (fmtFor c) c a; (q.1, q.2, z)
/-- fneg (R220). -/
def execFabFneg (f : FabWord) (s : State) : Host.Outcome State Fault Refusal :=
  scalarOp 0x3B f s (negLane (typeOf f))
/-- fexp2 (R221). -/
def execFabFexp2 (f : FabWord) (s : State) : Host.Outcome State Fault Refusal :=
  scalarOp 0x3C f s (exp2Lane (typeOf f))
/-- flog2 (R221). -/
def execFabFlog2 (f : FabWord) (s : State) : Host.Outcome State Fault Refusal :=
  scalarOp 0x3D f s (log2Lane (typeOf f))

end Sys2Proof.Machine
end

