-- ==== Sys2Proof/Machine/FabConv.lean ====
section
/-! DEFINITION. Conversions, scale-and-accumulate (R226, R227) and the stop operators (R228 to R232). -/

namespace Sys2Proof.Machine

/-- One element converted to a type, drawing where the mode does (R107, R111, R226). -/
def convertLane (dst src mode b : Nat) (z : Word) : Nat × Flags × Word :=
  let d := drawCode dst mode z
  let q := convert dst src b mode d.2
  (q.1, q.2, d.1)
/-- A value converted to a type. -/
def valueLane (dst mode : Nat) (x : Val) (z : Word) : Nat × Flags × Word :=
  let d := drawCode dst mode z
  let q := codeRound dst x mode d.2
  (q.1, q.2, d.1)

/-- Elements converted in ascending order. -/
def mapLanes {α : Type} (fn : α → Word → Nat × Flags × Word) : List α → Word → List Nat × Flags × Word
  | [], z => ([], 0, z)
  | a :: r, z =>
    let q := fn a z
    let t := mapLanes fn r q.2.2
    (q.1 :: t.1, q.2.1 ||| t.2.1, t.2.2)

/-- The converted lanes of a part, and the vector they make (R226). A Q4X source is decoded whole (R100). -/
def convertVector (dst src mode p v : Nat) (z : Word) : Vec × Flags × Word :=
  let ns := codeLanes src
  let nd := codeLanes dst
  let place (l : List Nat) : Vec := packLanes (codeWidth dst) (if nd ≤ ns then l else List.replicate (p * ns) 0 ++ l)
  let from_ := if nd ≤ ns then p * nd else 0
  let count := min ns nd
  if src = 0xE then
    let d := q4xDecode (lanesOf 8 v)
    let q := mapLanes (valueLane dst mode) ((d.1.drop from_).take count) z
    (place q.1, d.2 ||| q.2.1, q.2.2)
  else
    let q := mapLanes (fun b z => convertLane dst src mode b z) (((lanesOf (codeWidth src) v).drop from_).take count) z
    (place q.1, q.2.1, q.2.2)

/-- cvt (R226). -/
def execFabCvt (f : FabWord) (s : State) : Host.Outcome State Fault Refusal :=
  tokenOp 0x60 f s (fun e h =>
    let src := f.imm.toNat % 16
    let q := if src = 0xF then valueLane (typeOf f) (rndOf f) (bndVal (BitVec.ofNat 16 (h.l.low 16))) e.sto
             else convertLane (typeOf f) src (rndOf f) (h.l.low (codeWidth src)) e.sto
    (.scalar, widen (typeOf f) q.1, q.2.1, q.2.2))
/-- vcvt (R226). -/
def execFabVcvt (f : FabWord) (s : State) : Host.Outcome State Fault Refusal :=
  tokenOp 0x61 f s (fun e h =>
    let q := convertVector (typeOf f) (f.imm.toNat % 16) (rndOf f) (f.imm.toNat / 16 % 8) h.l.bits.toNat e.sto
    (.vector, q.1, q.2.1, q.2.2))

/-- The type of the partial sum of scacc and vscacc (R226, R227). -/
def ptypeOf (f : FabWord) : Nat := f.imm.toNat / 64 % 16
/-- scacc (R227): the scale at .r times the partial sum at .l. -/
def execFabScacc (f : FabWord) (s : State) : Host.Outcome State Fault Refusal :=
  fusedOp 0x62 f s false (fun h =>
    let fm := fmtFor (typeOf f)
    [(decodeFmt fm (h.r.low fm.width), codeVal (ptypeOf f) (h.l.low (codeWidth (ptypeOf f))))]) vmul
/-- vscacc (R227). -/
def execFabVscacc (f : FabWord) (s : State) : Host.Outcome State Fault Refusal :=
  fusedOp 0x63 f s true (fun h =>
    let fm := fmtFor (typeOf f)
    ((lanesOf fm.width h.r.bits.toNat).map (decodeFmt fm)).zip
      ((lanesOf fm.width h.l.bits.toNat).map (codeVal (ptypeOf f)))) vmul

/-! ### Stop operators (R228 to R232) -/

/-- The level k of a stop operator. -/
def stopLevelOf (f : FabWord) : Nat := f.imm.toNat % 8
/-- The kind at .l of a stop operator. -/
def stopKindOf (f : FabWord) : Kind := if f.imm.toNat / 8 % 2 = 1 then .vector else .scalar

/-- A stop operator (R228): a refused predicate consumes the token and nothing else; a null predicate is a null at .l. -/
def stopOp (op : Nat) (f : FabWord) (s : State) (onNull : Fab → Held3 → Fate) (onTok : Fab → Held3 → Tok → Fate) :
    Host.Outcome State Fault Refusal :=
  fabric op f s (fun e =>
    match e.operands with
    | none => .wait
    | some h =>
      if !e.space then .wait
      else if (h.vals ++ h.pred.toList).any (·.null) then onNull e.consume h
      else if refuses f op h.pred then .ok e.consume
      else onTok e.consume h h.l)

/-- stop (R229). -/
def execFabStop (f : FabWord) (s : State) : Host.Outcome State Fault Refusal :=
  stopOp 0x68 f s (fun e h => e.emitNull h.deps)
    (fun e h x => e.emit (stopTok (stopKindOf f) (if x.level = 0 then stopLevelOf f else x.level) h.deps))
/-- slvl (R230). -/
def execFabSlvl (f : FabWord) (s : State) : Host.Outcome State Fault Refusal :=
  stopOp 0x69 f s (fun e h => e.emitNull h.deps) (fun e h x => e.emit (bitTok (decide (x.level ≥ stopLevelOf f)) h.deps))
/-- ordt (R231). -/
def execFabOrdt (f : FabWord) (s : State) : Host.Outcome State Fault Refusal :=
  stopOp 0x6C f s (fun e h => e.emitNull h.deps) (fun e h _ => e.emit (bitTok true h.deps))
/-- sgate (R232): the last data token leaves at a stop of level at least k. -/
def execFabSgate (f : FabWord) (s : State) : Host.Outcome State Fault Refusal :=
  stopOp 0x6A f s (fun e _ => .ok e) (fun e h x =>
    if x.level = 0 then .ok (e.setSt { e.st with held := some { x with deps := h.deps } })
    else if x.level < stopLevelOf f then .ok e
    else
      let e1 := e.setSt { e.st with held := none }
      match e.st.held with
      | some d => e1.emit { d with deps := unionDeps d.deps h.deps }
      | none => e1.emitNull h.deps)
/-- scount (R232): the count of data tokens leaves at a stop of level at least k. -/
def execFabScount (f : FabWord) (s : State) : Host.Outcome State Fault Refusal :=
  stopOp 0x6B f s (fun e _ => .ok e) (fun e h x =>
    if x.level = 0 then .ok (e.setSt { e.st with n := e.st.n + 1, deps := unionDeps e.st.deps h.deps })
    else if x.level < stopLevelOf f then .ok e
    else (e.setSt { e.st with n := 0, deps := [] }).emit
      (dataTok .scalar (BitVec.ofNat 512 (e.st.n % 2 ^ 64)) (unionDeps e.st.deps h.deps)))

end Sys2Proof.Machine
end

