-- ==== Sys2Proof/Machine/FabMem.lean ====
section
/-! DEFINITION. Memory nodes of the fabric (R233 to R237), the width converters (R238, R239), the response of a load (R235) and
the draining of the store buffer (R18, R236, R237, R411). -/

namespace Sys2Proof.Machine

/-! ### Addresses (R233) -/

/-- ea of R233: the space is chosen by bit 63 of the base; an LV address is checked, and faulty ones are returned. -/
def eaOf (b off : Word) : Except Word Word :=
  if bit b 63 then .ok (streamAdd b off) else if notLv (b + off) then .error (b + off) else .ok (b + off)

/-- The spaces of a memory node. -/
inductive MemSpace | memory | spad
deriving DecidableEq, Repr

/-- The address of a memory node from its tokens (R233, R234). -/
def Fab.addr (e : Fab) (h : Held3) (sp : MemSpace) (indexed : Bool) (size : Nat) : Except Word Word :=
  let imm := e.f.imm.toNat
  let disp (n : Nat) (v : Nat) : Word := ofInt (signedOf n v)
  match sp with
  | .spad => .ok (BitVec.ofNat 64 ((h.l.word + disp 24 imm).toNat % 2 ^ 21))
  | .memory =>
    if indexed then eaOf (e.T.g.get 0 (imm % 64)) (h.l.word * BitVec.ofNat 64 size + disp 18 (imm / 64 % 2 ^ 18))
    else eaOf h.l.word (disp 24 imm)

/-- What an access of a memory node finds (R234, R236, R410): pieces and the translations used, or blocked at a stream's marks. -/
inductive Access
  | pieces (ps : List Piece) (us : List Used)
  | stream (blocked : Bool)
  | fault (cause : Nat) (value : Word) (pri : Option Nat)

/-- Translate or check an access of a memory node when it fires. -/
def Fab.access (e : Fab) (sp : MemSpace) (a : Word) (n : Nat) (wr : Bool) : Access :=
  match sp with
  | .spad =>
    (match spadAccess (clusterOf e.t) a.toNat n with
     | .ok ps => .pieces ps []
     | .error f => .fault f.cause f.addr none)
  | .memory =>
    if bit a 63 then
      match e.s.stream e.T.launchNo (streamHandle a) with
      | none => .fault 9 a none
      | some st =>
        if wr then (if serialLt 48 (streamOff a) st.tail then .fault 0x21 a none else .stream false)
        else match st.decideRead (streamOff a) (pieceAt (streamOff a) n) with
          | .fault c => .fault c a none
          | .block => .stream true
          | .pass => .stream false
    else match lvAccess e.s (clusterOf e.t) e.c e.T.tlb a n wr with
      | .error f => .fault f.cause f.addr f.pri
      | .ok (ps, us) => .pieces ps us

/-- The translations that an access used are noted: in the tile TLB, those of ATS in the cluster TLB (R47, R48). -/
def Fab.noteUsed (e : Fab) (us : List Used) : Fab :=
  let s1 := e.s.noteCluster (clusterOf e.t) (us.filter (fun u => u.1.isAts))
  { e with T := { e.T with tlb := (us.filter (fun u => !u.1.isAts)).foldl (tlbNote 64) e.T.tlb }, s := s1 }

/-! ### Loads (R234, R235) -/

/-- The banks of the scratchpad that pieces touch (R56). -/
def bankList (ps : List Piece) : List Nat :=
  ps.flatMap (fun p => if keyKind p.key = 1 then (List.range (ceilDiv p.size 16)).map (fun i => (keyOff p.key / 16 + i) % 32) else [])

/-- Is the queue of a bank that an access touches full: do 8 requests of the tile's memory nodes wait in it (R56)? -/
def Round.bankFull (r : Round) (ps : List Piece) : Bool :=
  (bankList ps).any (fun b => decide (8 ≤ (r.loads.filter (fun l => (bankList l.pieces).contains b)).length))

/-- A load issues its request (R235), where the queues of its banks take it (R56). -/
def Fab.issueLoad (e : Fab) (sp : MemSpace) (a : Word) (n : Nat) (deps : List Nat) : Fate :=
  let add (e : Fab) (ps : List Piece) (blocked : Option Nat) : Fate :=
    .ok { e with r := { e.r with loads := e.r.loads ++ [{ slot := e.slot, addr := a, pieces := ps, got := [], size := n, blocked := blocked, deps := deps, since := e.s.now, saw := none }] } }
  match e.access sp a n false with
  | .fault c v p => .fault c v p
  | .pieces ps us => if e.r.bankFull ps then .wait else add (e.noteUsed us) ps none
  | .stream b => add e [] (if b then some e.s.now else none)

/-- A load node. -/
def loadNode (op : Nat) (f : FabWord) (s : State) (sp : MemSpace) (indexed : Bool) (size : Nat) :
    Host.Outcome State Fault Refusal :=
  fabric op f s (fun e => e.table (fun _ e => e) (fun e h =>
    match e.addr h sp indexed size with
    | .error v => .fault 5 v none
    | .ok a => e.consume.issueLoad sp a size h.deps))

/-! ### Held stores (R18, R234 to R237) -/

/-- A store or atomic joins the round's held stores and sends its completion bit (R66, R235). -/
def Fab.holdStore (e : Fab) (a : Word) (ps : List Piece) (data : List Byte) (amo : Option (Nat × Nat)) (deps : List Nat) : Fate :=
  let i := e.r.stores.length
  let x : Held :=
    { slot := e.slot, addr := a, pieces := ps, data := data, amo := amo, signed := codeSigned (typeOf e.f), ctx := e.r.ctx,
      no := e.r.no, place := i, bySeq := e.c.bySeq, blocked := none, retries := 0 }
  { e with r := { e.r with stores := e.r.stores ++ [x] } }.count.andThen (fun e1 => e1.send 1 (bitTok true (unionDeps deps [i])))

/-- A store of bytes at an address by a node that has consumed its operands. -/
def Fab.store (e : Fab) (sp : MemSpace) (a : Word) (data : List Byte) (deps : List Nat) : Fate :=
  match e.count with
  | .ok _ =>
    (match e.access sp a data.length true with
     | .fault c v p => .fault c v p
     | .pieces ps us => (e.noteUsed us).holdStore a ps data none deps
     | .stream _ => e.holdStore a [] data none deps)
  | x => x

/-- A store node. -/
def storeNode (op : Nat) (f : FabWord) (s : State) (sp : MemSpace) (indexed vec : Bool) (size : Nat) :
    Host.Outcome State Fault Refusal :=
  fabric op f s (fun e => e.table (fun _ e => e) (fun e h =>
    match e.addr h sp indexed size with
    | .error v => .fault 5 v none
    | .ok a => e.consume.store sp a (leBytes size (if vec then h.r.bits.toNat else h.r.low (8 * size))) h.deps))

/-- Bytes of a scalar of the type of a slot word. -/
def scalarSize (f : FabWord) : Nat := codeWidth (typeOf f) / 8

/-- ld (R234). -/
def execFabLd (f : FabWord) (s : State) : Host.Outcome State Fault Refusal := loadNode 0x70 f s .memory false (scalarSize f)
/-- st (R234). -/
def execFabSt (f : FabWord) (s : State) : Host.Outcome State Fault Refusal := storeNode 0x71 f s .memory false false (scalarSize f)
/-- vld (R234). -/
def execFabVld (f : FabWord) (s : State) : Host.Outcome State Fault Refusal := loadNode 0x72 f s .memory false 64
/-- vst (R234). -/
def execFabVst (f : FabWord) (s : State) : Host.Outcome State Fault Refusal := storeNode 0x73 f s .memory false true 64
/-- ldx (R234). -/
def execFabLdx (f : FabWord) (s : State) : Host.Outcome State Fault Refusal := loadNode 0x74 f s .memory true (scalarSize f)
/-- stx (R234). -/
def execFabStx (f : FabWord) (s : State) : Host.Outcome State Fault Refusal := storeNode 0x75 f s .memory true false (scalarSize f)
/-- vldx (R234). -/
def execFabVldx (f : FabWord) (s : State) : Host.Outcome State Fault Refusal := loadNode 0x76 f s .memory true 64
/-- vstx (R234). -/
def execFabVstx (f : FabWord) (s : State) : Host.Outcome State Fault Refusal := storeNode 0x77 f s .memory true true 64
/-- lds (R234). -/
def execFabLds (f : FabWord) (s : State) : Host.Outcome State Fault Refusal := loadNode 0x78 f s .spad false (scalarSize f)
/-- sts (R234). -/
def execFabSts (f : FabWord) (s : State) : Host.Outcome State Fault Refusal := storeNode 0x79 f s .spad false false (scalarSize f)
/-- vlds (R234). -/
def execFabVlds (f : FabWord) (s : State) : Host.Outcome State Fault Refusal := loadNode 0x7A f s .spad false 64
/-- vsts (R234). -/
def execFabVsts (f : FabWord) (s : State) : Host.Outcome State Fault Refusal := storeNode 0x7B f s .spad false true 64

/-- The operation code of R163 for a fabric atomic (R237): min and max as t is signed. -/
def amoCode (op : Nat) (signed : Bool) : Nat := if op ≥ 5 && !signed then op + 2 else op

/-- A fabric atomic (R237): range and alignment first, then translation; held until drain. -/
def amoNode (op : Nat) (f : FabWord) (s : State) (sp : MemSpace) : Host.Outcome State Fault Refusal :=
  let n := scalarSize f
  let code := amoCode (f.imm.toNat % 16) (codeSigned (typeOf f))
  fabric op f s (fun e => e.table (fun _ e => e) (fun e h =>
    let a : Word := match sp with | .spad => BitVec.ofNat 64 (h.l.word.toNat % 2 ^ 21) | .memory => h.l.word
    match e.count with
    | .ok _ =>
      if sp = .memory && notLv a then .fault 5 a none
      else if sp = .spad && a.toNat + n > 2 ^ 21 then .fault 6 a none
      else if a.toNat % n != 0 then .fault 8 a none
      else match e.access sp a n true with
        | .fault c v p => .fault c v p
        | .pieces ps us =>
          (e.consume.noteUsed us).holdStore a ps (leBytes n (h.r.low (8 * n)))
            (some (code, f.imm.toNat / 2 ^ 27)) h.deps
        | .stream _ => .fault 5 a none
    | x => x))

/-- amo (R237). -/
def execFabAmo (f : FabWord) (s : State) : Host.Outcome State Fault Refusal := amoNode 0x7E f s .memory
/-- amos (R237). -/
def execFabAmos (f : FabWord) (s : State) : Host.Outcome State Fault Refusal := amoNode 0x7F f s .spad

/-! ### Width converters (R238, R239) -/

/-- The index and position that t0 names, shifted by j. -/
def sendtoDest (f : FabWord) (j : Nat) : Dest := .slot (f.t0.toNat % 256 + j) (f.t0.toNat / 256)

/-- Has the last piece been consumed by its slot (R238)? -/
def pieceGone (e : Fab) (j : Nat) : Bool :=
  match sendtoDest e.f j with
  | .slot i pos => (e.r.at_ i pos).isNone && !(e.r.transit.any (fun x => x.index = i && x.pos = pos))
  | _ => true

/-- The held stores of the slots that took the pieces before piece j: each piece is edge-ordered before the next (R238). -/
def pieceDeps (e : Fab) (j : Nat) : List Nat :=
  (e.r.stores.zipIdx.filter (fun p => e.f.t0.toNat % 256 ≤ p.1.slot && p.1.slot < e.f.t0.toNat % 256 + j)).map (·.2)

/-- The n tokens that wsplit sends for what it holds (R238). -/
def splitPieces (n : Nat) (row : Row) (b : Vec) (deps : List Nat) : List Tok :=
  (List.range n).map (fun j =>
    match row with
    | .data => dataTok .scalar (BitVec.ofNat 512 (b.toNat / 2 ^ (64 * j) % 2 ^ 64)) deps
    | .stop k => stopTok .scalar k deps
    | _ => nullTok .scalar deps)

/-- wsplit (R238): the vector is taken, then piece after piece leaves, each once its predecessor has been consumed. -/
def execFabWsplit (f : FabWord) (s : State) : Host.Outcome State Fault Refusal :=
  fabric 0x7C f s (fun e =>
    match e.st.out with
    | x :: rest =>
      let j := e.st.sent
      if (j = 0 || pieceGone e (j - 1)) && e.room true .scalar (sendtoDest f j) then
        let y : Tok := { x with deps := unionDeps x.deps (pieceDeps e j) }
        match (e.setSt { e.st with out := rest, sent := if rest = [] then 0 else j + 1 }).put 0 (sendtoDest f j) y with
        | some e1 => .ok e1
        | none => .wait
      else .wait
    | [] =>
      match e.operands with
      | none => .wait
      | some h =>
        match judge f 0x7C h with
        | .mismatch => .fault 0x22 (Config.faultValue 0x22 e.slot) none
        | .refuse => .ok e.consume
        | row => .ok (e.consume.setSt { e.st with out := splitPieces (f.imm.toNat % 16) row h.l.bits h.deps, sent := 0 }))

/-- wjoin (R239): a null marks the collection, and counts as a token of it and as a lane; a stop token passes only when no lane is collected.
DESIGN CHOICE, log entry 92. -/
def execFabWjoin (f : FabWord) (s : State) : Host.Outcome State Fault Refusal :=
  let n := f.imm.toNat % 16
  fabric 0x7D f s (fun e =>
    match e.operands with
    | none => .wait
    | some h =>
      if !e.space then .wait
      else
        let null := (h.vals ++ h.pred.toList).any (·.null)
        if !null && refuses f 0x7D h.pred then .ok e.consume
        else if !null && h.l.level != 0 then
          (if e.st.toks = [] then e.consume.emitStop h.l.level h.deps else .fault 0x26 (Config.faultValue 0x26 e.slot) none)
        else
          let toks := e.st.toks ++ [{ h.l with deps := h.deps }]
          let nul := e.st.nul || null
          if toks.length < n then .ok (e.consume.setSt { e.st with toks := toks, nul := nul })
          else
            let deps := toks.foldl (fun d x => unionDeps d x.deps) []
            let e1 := e.consume.setSt { e.st with toks := [], nul := false }
            if nul then e1.emitNull deps
            else e1.emit (dataTok .vector (packLanes 64 (toks.map (fun x => x.low 64))) deps))

/-! ### The response of a load (R235) -/

/-- The names of the bytes of an access: keys of pieces, or places in a stream. -/
def byteNames (ps : List Piece) (a : Word) (n : Nat) : List Nat :=
  if bit a 63 then (List.range n).map (fun i => 2 ^ 90 + streamHandle a * 2 ^ 48 + (streamOff a + i) % M48)
  else ps.flatMap (fun p => (List.range p.size).map (fun i => p.key + i))

/-- Names of the bytes of a held store. -/
def Held.names (h : Held) : List Nat := byteNames h.pieces h.addr h.data.length

/-- The byte that a held store holds of a name. -/
def Held.byteOf (h : Held) (name : Nat) : Option Byte := (h.names.zip h.data).find? (fun p => p.1 = name) |>.map (·.2)

/-- The byte of the youngest store of a list that holds a name; atomics hold none, so that a load that an earlier atomic of its round is
edge-ordered before reads what stood there before the atomic. DESIGN CHOICE, log entry 100. -/
def youngest (l : List Held) (name : Nat) : Option Byte :=
  l.foldl (fun acc h => if h.amo.isSome then acc else match h.byteOf name with | some b => some b | none => acc) none

/-- The stores of the round that a load is edge-ordered after. -/
def orderedStores (r : Round) (l : FabLoad) : List Held :=
  (r.stores.zipIdx.filter (fun p => l.deps.contains p.2)).map (·.1)

/-- Of stores that overlap on the names of a load, the youngest alone gives its bytes: of each other all or none would be seen
(R235). -/
def lastOnly (ns : List Nat) (l : List Held) : List Held :=
  l.foldr (fun h acc => if acc.any (fun g => g.names.any (fun n => ns.contains n && h.names.contains n)) then acc else h :: acc) []

/-- The stores of the round that a load sees without an edge: those that it is said to have seen, which entered the store buffer before
it read the buffer (R235; which is not fixed). -/
def seenStores (r : Round) (l : FabLoad) (seen : List Bool) : List Held :=
  lastOnly (byteNames l.pieces l.addr l.size)
    ((r.stores.zipIdx.filter (fun p => !l.deps.contains p.2 && seen.getD p.2 false && p.1.amo.isNone)).map (·.1))

/-- The same once the load has read the store buffer, which it does with its first piece: all or none of the bytes of each store. -/
def sawStores (r : Round) (l : FabLoad) (seen : List Bool) : List Held :=
  match l.saw with
  | some ps => r.stores.filter (fun h => ps.contains h.place)
  | none => seenStores r l seen

/-- The write that a write port has still to perform, as a held store; none where its address does not translate. -/
def portHeld (s : State) (t : Nat) (P : Port) (g : PortProg) (w : PortWrite) : Option Held :=
  let ps : Option (List Piece) :=
    if g.spad then (match spadAccess (clusterOf t) w.addr.toNat w.data.length with | .ok ps => some ps | .error _ => none)
    else if g.isStream then some []
    else (match portPiece s t P g w.xlat w.addr with | .ok (q, _) => some [q] | .error _ => none)
  ps.map (fun ps => { slot := g.slot, addr := w.addr, pieces := ps, data := w.data, amo := none, signed := false, ctx := g.ctx, no := w.no, place := 0,
                      bySeq := false, blocked := none, retries := 0 })

/-- Put a write among others, rising by round, after those of its own round. -/
def insertByRound (h : Held) : List Held → List Held
  | [] => [h]
  | x :: r => if x.no ≤ h.no then x :: insertByRound h r else h :: x :: r

/-- What committed rounds of a tile have still to write, the youngest last: round by round, of each its stores, then its ports' writes, which
no store of the round is edge-ordered after (R19, R66, R67). -/
def committedStores (s : State) (t : Nat) : List Held :=
  let T := s.tile t
  (T.drain ++ (List.range 4).flatMap (fun p =>
    let P := T.port p
    match P.prog with | some g => P.committed.filterMap (portHeld s t P g) | none => [])).foldl (fun l h => insertByRound h l) []

/-- Do a port's write and another write of its round, in no order with it, both wait on some bytes, so that it is open which comes last (R66,
R67)? A read of those bytes waits until one has been performed. -/
def unsettled (s : State) (t : Nat) (names : List Nat) : Bool :=
  let T := s.tile t
  let held (p : Nat) : List (PortWrite × Held) :=
    let P := T.port p
    match P.prog with | some g => P.committed.filterMap (fun w => (portHeld s t P g w).map (fun h => (w, h))) | none => []
  let both (x y : Held) : Bool := names.any (fun n => x.names.contains n && y.names.contains n)
  (List.range 4).any (fun p => (held p).any (fun w =>
    T.drain.any (fun x => x.no = w.1.no && !w.1.deps.contains x.place && both x w.2) ||
    (List.range 4).any (fun q => q != p && (held q).any (fun v => v.1.no = w.1.no && both v.2 w.2))))

/-- Bytes read, with the bytes of the youngest of some stores over them. -/
def overlay (l : List Held) (names : List Nat) (memory : List Byte) : List Byte :=
  (names.zip memory).map (fun p => match youngest l p.1 with | some b => b | none => p.2)

/-- Is one of some stores an atomic on some bytes? -/
def atomicOn (l : List Held) (names : List Nat) : Bool := l.any (fun h => h.amo.isSome && h.names.any names.contains)

/-- Bytes of the part of a load that is read now: all of those of each store that the load sees without an edge, then the youngest
edge-ordered store, then committed rounds of the tile, then memory (R235). -/
def loadBytes (r : Round) (committed : List Held) (l : FabLoad) (seen : List Bool) (names : List Nat) (memory : List Byte) : List Byte :=
  (names.zip (overlay committed names memory)).map (fun p =>
    match youngest (sawStores r l seen) p.1 with
    | some b => b
    | none => match youngest (orderedStores r l) p.1 with | some b => b | none => p.2)

/-- The address of the next piece of a load of a stream (R78). -/
def FabLoad.nextAddr (l : FabLoad) : Word := streamAdd l.addr (BitVec.ofNat 64 l.got.length)
/-- Its size. -/
def FabLoad.nextSize (l : FabLoad) : Nat := pieceAt (streamOff l.nextAddr) (l.size - l.got.length)

/-- The names of the bytes that a load reads next: of its first piece, or of its next piece of a stream (R78). -/
def FabLoad.now (l : FabLoad) : List Nat :=
  if bit l.addr 63 then byteNames [] l.nextAddr l.nextSize else byteNames (l.pieces.take 1) l.addr l.size

/-- Is the next piece of a load ahead of HWM (R290)? -/
def FabLoad.ahead (s : State) (t : Nat) (l : FabLoad) : Bool :=
  bit l.addr 63 && (s.stream (s.tile t).launchNo (streamHandle l.addr)).any
    (fun st => st.decideRead (streamOff l.nextAddr) l.nextSize = .block)

/-- The memory bytes that a load reads next as their home serves them, and the state after (R75, R290): none while it must wait. -/
def serveLoad (s : State) (t : Nat) (l : FabLoad) : Except Nat (Option (State × List Byte)) :=
  if bit l.addr 63 then
    let lh := (s.tile t).launchNo
    if !streamReached s (some (dieOf t)) lh then .ok none
    else match s.stream lh (streamHandle l.addr) with
    | none => .error 9
    | some st =>
      match st.decideRead (streamOff l.nextAddr) l.nextSize with
      | .fault c => .error c
      | .block => .ok none
      | .pass => .ok (streamRead s (some (dieOf t)) lh (streamHandle l.addr) (streamOff l.nextAddr) l.nextSize)
  else match l.pieces with
    | [] => .ok (some (s, []))
    | p :: _ => if servable s (dieOf t) p then .ok (some (mergeRead s (dieOf t) [p], s.pieceBytes p)) else .ok none

/-- Write the bound setting that a bld names (R343): reg 0 ea, 1 eb, 2 thr; max keeps the greater. -/
def BndSet.load (x : BndSet) (imm v : Nat) : BndSet :=
  let c : BitVec 16 := BitVec.ofNat 16 v
  let up (old : BitVec 16) : BitVec 16 := if imm / 2 ^ 18 % 2 = 1 && old.toNat > c.toNat then old else c
  match imm / 2 ^ 22 % 4 with
  | 0 => { x with ea := up x.ea }
  | 1 => { x with eb := up x.eb }
  | _ => { x with thr := c, rel := v.testBit 16, lim := min 2 (v / 2 ^ 17 % 4) }

/-- The bank that a bound instruction names. -/
def bankOf (f : FabWord) : Nat := f.imm.toNat / 2 ^ 20 % 4

/-- Must a bld wait: its bank is open, or complete under another context (R343)? -/
def bldWaits (s : State) (t ctx bank : Nat) : Bool :=
  let b := (s.cluster (clusterOf t)).mx.bank bank
  b.tag = .open_ || (b.tag = .complete && !(b.owner.tile = t % 4 && b.owner.ctx = ctx))

/-- The write of a bld. -/
def bldWrite (s : State) (t : Nat) (f : FabWord) (v : Nat) : State :=
  s.modCluster (clusterOf t) (fun K =>
    { K with mx := K.mx.modBank (bankOf f) (fun b => { b with set := b.set.load f.imm.toNat v }) })

/-- The tokens of a load that has returned: its value to t0 and its completion to t1 (R235). -/
def Fab.loadResult (e : Fab) (bs : List Byte) (deps : List Nat) : Fate :=
  let v := leNat bs
  let tok : Tok :=
    if e.op = 0x8B then dataTok .scalar (BitVec.ofNat 512 v) deps
    else if e.outKind 0 = .vector then dataTok .vector (BitVec.ofNat 512 v) deps
    else dataTok .scalar (widen (typeOf e.f) v) deps
  (e.send 0 tok).both e (fun e1 => e1.send 1 (bitTok true deps))

/-- Has the whole of a load returned? It waits in its buffer until its tokens can leave (R273, R286). -/
def FabLoad.whole (l : FabLoad) : Bool := l.got.length ≥ l.size

/-- Is what committed rounds of a tile have written to some bytes known: no atomic of them, no write-pending write and no two writes in no
order are still to be performed there (R61, R67, R79)? -/
def settledBytes (s : State) (t : Nat) (ps : List Piece) (names : List Nat) : Bool :=
  !atomicOn (committedStores s t) names && !pendingOn s t true ps && !unsettled s t names

/-- May the next piece of a load be read: neither blocked, nor its bytes open? -/
def Fab.serves (e : Fab) (l : FabLoad) : Bool := l.blocked.isNone && settledBytes e.s e.t (l.pieces.take 1) l.now

/-- May a load that has returned send its tokens: its tile runs, there is room for them, and, for a bld, its bank is settled? -/
def Fab.delivers (e : Fab) (bank : Nat) : Bool :=
  e.T.live && e.space && e.portRoom && !(e.op = 0x8B && bldWaits e.s e.t e.r.ctx bank)

/-- A load that has returned its bytes sends its tokens; a bld sets its bank. -/
def deliverLoad (e : Fab) (load : Nat) (l : FabLoad) (bs : List Byte) : Act :=
  let s1 := if e.op = 0x8B then bldWrite e.s e.t e.f (leNat bs) else e.s
  ({ e with s := s1, r := { e.r with loads := e.r.loads.eraseIdx load } }.loadResult bs l.deps).act e.s e.t l.slot

/-- A fabric load's next piece returns; with the last, its value and its completion leave, at once or as soon as they can, also where its
tile has been gated meanwhile (R78, R235, R286). DESIGN CHOICE, log entry 73. -/
def execMemoryNodeResponse (tile load : Nat) (seen : List Bool) (s : State) : Host.Outcome State Fault Refusal :=
  perform s (within (tile < tileCount) (
    match (s.tile tile).round with
    | none => lateReply s tile
    | some r =>
      match r.loads[load]? with
      | none => lateReply s tile
      | some l =>
        let w := ((s.tile tile).ctx r.ctx).block.word l.slot
        let e := Fab.at_ s tile r l.slot (slotOp w) (slotFields w)
        let ready := e.delivers (bankOf (slotFields w))
        if l.whole then when ready s (deliverLoad e load l l.got)
        else if l.blocked.isNone && l.ahead s tile then
          .go (s.modTile tile (fun T => { T with round := some { r with
            loads := r.loads.modify load (fun l => { l with blocked := some s.now }) } })) []
        else when (e.serves l) s
          (match serveLoad s tile l with
           | .error c => (Fate.fault c l.addr none).act s tile l.slot
           | .ok none => idle s
           | .ok (some (s1, mem)) =>
             let bs := l.got ++ loadBytes r (committedStores s tile) l seen l.now mem
             if bs.length ≥ l.size && ready then deliverLoad { e with s := s1 } load l bs
             else .go (s1.modTile tile (fun T => { T with round := some { r with
               loads := r.loads.modify load (fun l => { l with
                 pieces := l.pieces.tail, got := bs, saw := some ((sawStores r l seen).map (·.place)) }) } })) [])))

/-! ### Draining the store buffer (R18, R236, R237, R411) -/

/-- A write of a stream as its home decides it, frames included (R292, R295). -/
def writeDecision (s : State) (l h o n : Nat) : Decision :=
  match s.stream l h with
  | none => .fault 9
  | some st =>
    match st.decideWrite o n with
    | .pass => if (streamKeys n s l h o).isSome then .pass else .block
    | d => d

/-- The record of a late stream write (R411). -/
def lateRec (s : State) (t ctx slot port source : Nat) (a : Word) : Rec :=
  { s.tileRec t true source 0x2C a [] with ctx := ctx, slot := slot, port := port }

/-- The write of a committed round that a held store is. -/
def Held.write (h : Held) : RoundWrite := { no := h.no, place := h.place, port := none, ctx := h.ctx, slot := h.slot, bySeq := h.bySeq }

/-- The number of a piece's home among the homes of requests. -/
def homeNo (p : Piece) : Nat := match p.home with | .die h => h | _ => outHome
/-- Must an atomic of a tile travel to another die or package as a request, which is timed (R79, R399)? -/
def remoteHome (s : State) (t : Nat) (p : Piece) : Bool :=
  (dupOf s p).isNone && (match p.home with | .die h => h != dieOf t | .outside => keyKind p.key = 4 | .near => false)

/-- One entry of the draining half, or one piece of it, reaches its home (R78); an atomic of another die is sent there as a request; of a stream write that T has passed, what is left is
dropped, with one record (R411). None: it must wait. -/
def drainEntry (s : State) (t : Nat) (h : Held) : Option (State × List Held × List (Nat × Byte)) :=
  match h.pieces with
  | [] =>
    let l := (s.tile t).launchNo
    let hd := streamHandle h.addr
    let o := streamOff h.addr
    let n := pieceAt o h.data.length
    if h.blocked.isSome || !streamReached s (some (dieOf t)) l then none
    else match writeDecision s l hd o n with
      | .pass => (streamWrite s (some (dieOf t)) l hd o (h.data.take n)).map (fun q => (q.1,
          if h.data.length ≤ n then [] else [{ h with data := h.data.drop n, addr := streamAdd h.addr (BitVec.ofNat 64 n) }], q.2))
      | .block => some (s, [{ h with blocked := some s.now }], [])
      | .fault _ => some (s.record (lateRec s t h.ctx h.slot 0 0 h.addr), [], [])
  | p :: rest =>
    match h.amo with
    | some (op, scope) =>
      if wideScope scope && inFlight s t then none
      else if remoteHome s t p then
        some (sendReq (sendUpli s p (some op) h.data) t (some h.write) (homeNo p) p h.data (some op) h.addr [], [], [])
      else match performAmo s t p op (leNat h.data) 0 with
        | some (_, s1, ws) => some (s1, [], ws)
        | none =>
          let s1 := dropHolders s t p h.addr
          if s1 = s then none else some (s1, [h], [])
    | none =>
      match performStore s t (some h.write) p (h.data.take p.size) h.addr with
      | none => none
      | some (s1, ws) =>
        some (s1, if rest = [] then []
                  else [{ h with pieces := rest, data := h.data.drop p.size, addr := h.addr + BitVec.ofNat 64 p.size }], ws)

/-- Barrier arrivals, those at one barrier together (R169, R207). -/
def Tile.arriveAll (T : Tile) (now : Nat) (bars : List Nat) : Tile :=
  bars.eraseDups.foldl (fun T i => T.arrive now i (bars.filter (· = i)).length false) T

/-- The arrivals of committed rounds are made once every write of their round and of earlier ones has been performed: an arrival is a
release (R72). -/
def settleTile (s : State) (t : Nat) : State :=
  let T := s.tile t
  let due := T.arrivals.filter (fun a => !s.olderWrites t (a.1 + 1))
  if due.isEmpty then s
  else s.setTile t (({ T with arrivals := T.arrivals.filter (fun a => s.olderWrites t (a.1 + 1)) } : Tile).arriveAll s.now
    (due.map (fun a => a.2)))

/-- Must a held store wait: a write of an earlier round, or a store of its round that entered before it, is still to be performed (R18, R66, R67)? -/
def heldWaits (s : State) (t : Nat) (h : Held) : Bool :=
  s.olderWrites t h.no || roundPending s t (fun w => w.no = h.no && w.port.isNone)

/-- A committed round's stores drain, in the order of their entry, after the writes of earlier rounds (R18, R66, R67). -/
def execStoreBufferDrain (tile : Nat) (s : State) : Host.Outcome State Fault Refusal :=
  perform s (within (tile < tileCount) (
    match (s.tile tile).drain with
    | [] => idle s
    | h :: rest =>
      when (!heldWaits s tile h) s
        (match drainEntry s tile h with
         | none => idle s
         | some (s1, left, ws) => .go (settleTile (s1.modTile tile (fun T => { T with drain := left ++ rest })) tile) ws)))

end Sys2Proof.Machine
end

