-- ==== Sys2Proof/Machine/FabMatrix.lean ====
section
/-! DEFINITION. The matrix nodes of the fabric: rpt (R240), mma with its panels, gather unit and gang (R314 to R323), accrd
(R321, R340), and the bound nodes bld and bst (R343, R344). -/

namespace Sys2Proof.Machine

/-! ### rpt (R240) -/

/-- One step of the emit phase: the next buffered token or the terminator; after c passes the buffer clears and c goes. -/
def rptEmit (e : Fab) (count : Tok) (level : Nat) : Fate :=
  let st := e.st
  let c := (count.word).toNat
  let clear (e : Fab) : Fab := (e.consume).setSt SlotSt.reset
  if count.null || st.nul then (clear e).emitNull (unionDeps st.deps count.deps)
  else if count.level != 0 then
    (if st.toks = [] && count.level = level then (clear e).emitStop level (unionDeps st.deps count.deps)
     else .fault 0x22 (Config.faultValue 0x22 e.slot) none)
  else if c > 2 ^ 32 - 1 then .fault 0x11 count.word none
  else if c = 0 then .ok (clear e)
  else
    let last := st.sent ≥ st.toks.length
    let x := match st.toks[st.sent]? with
      | some x => { x with deps := unionDeps x.deps count.deps }
      | none => stopTok .vector level (unionDeps st.deps count.deps)
    let e1 := if last then (if st.passes + 1 = c then clear e else e.setSt { st with sent := 0, passes := st.passes + 1 })
              else e.setSt { st with sent := st.sent + 1 }
    e1.emit x

/-- rpt (R240): a fill of at most 64 tokens up to a stop token, then the passes. -/
def execFabRpt (f : FabWord) (s : State) : Host.Outcome State Fault Refusal :=
  fabric 0x88 f s (fun e =>
    match e.st.term with
    | some level =>
      (match e.r.at_ e.slot 2 with
       | some count =>
         let keep : Round := { e.r with latch := e.r.latch.filter (fun p => p.1 != e.slot * 4 + 1) }
         let pend := e.r.at_ e.slot 1
         if !e.space then .wait
         else match rptEmit { e with r := keep } count level with
           | .ok e1 => .ok { e1 with r := { e1.r with latch := match pend with
               | some x => e1.r.latch.put (e.slot * 4 + 1) x | none => e1.r.latch } }
           | x => x
       | none => .wait)
    | none =>
      match e.r.at_ e.slot 1 with
      | none => .wait
      | some x =>
        let e1 : Fab := { e with r := { e.r with latch := e.r.latch.del (e.slot * 4 + 1) } }
        let st : SlotSt := { e.st with deps := unionDeps e.st.deps x.deps }
        if x.null then .ok (e1.setSt { st with nul := true })
        else if x.level != 0 then .ok (e1.setSt { st with term := some x.level })
        else if st.toks.length ≥ 64 then .fault 0x25 (Config.faultValue 0x25 e.slot) none
        else .ok (e1.setSt { st with toks := st.toks ++ [x] }))

/-! ### mma (R314 to R320) -/

/-- Starting accumulation format (R314). -/
def mmaAf (imm : Nat) : Nat := imm / 2 ^ 21 % 4
/-- First bank. -/
def mmaBase (imm : Nat) : Nat := imm / 2 ^ 19 % 4
/-- Stop level that closes a group. -/
def mmaElv (imm : Nat) : Nat := imm / 2 ^ 13 % 8
/-- Rows are gathered. -/
def mmaGat (imm : Nat) : Bool := imm / 2 ^ 12 % 2 == 1
/-- The node is a gang member. -/
def mmaMember (imm : Nat) : Bool := imm / 2 ^ 9 % 4 != 0 && imm / 2 ^ 7 % 2 == 1
/-- The node is a gang leader. -/
def mmaLeader (imm : Nat) : Bool := imm / 2 ^ 9 % 4 != 0 && imm / 2 ^ 7 % 2 == 0
/-- The position that a gang's multicast fills (R323): .r with row split, .l with column split. -/
def mmaCastPos (imm : Nat) : Nat := if imm / 2 ^ 8 % 2 = 0 then 2 else 1
/-- Bytes of a row of an A panel (R315). -/
def mmaRowBytes (mod : Nat) : Nat := if mod = 8 then 8 else 4
/-- Tokens of an A panel (R315). -/
def panelA (mod imm : Nat) : Nat := mmaM imm * mmaRowBytes mod / 64
/-- Tokens of a B panel (R315). -/
def panelB (mod imm : Nat) : Nat := mmaN imm / (if mod = 8 then 8 else 16)
/-- Index tokens of a gathering group (R320). -/
def panelIndex (imm : Nat) : Nat := mmaM imm / 8
/-- Width of a node after its escalation steps (R334, R336). -/
def mmaWidth (af steps : Nat) : Nat := if af = 3 then 3 else min 2 (af + steps)

/-- What an operand tile holds (R315): nothing whole yet, a panel, a null, a stop token, a panel with a stop token inside. -/
inductive Operand | partial_ | panel (toks : List Tok) | null | stop (k : Nat) | mixed
deriving DecidableEq, Repr

/-- A stop token. -/
def Tok.isStop (x : Tok) : Bool := !x.null && x.level != 0

/-- How many of the tokens that a position has collected its first operand takes: a null or stop token alone, else a panel, cut short by a stop
token inside. -/
def operandLen (toks : List Tok) (need : Nat) : Nat :=
  match toks with
  | [] => 0
  | x :: _ => if x.null || x.level != 0 then 1 else match (toks.take need).findIdx? Tok.isStop with | some i => i + 1 | none => need

/-- The first operand that collected tokens make. A null inside a panel makes the panel null. -/
def operandOf (toks : List Tok) (need : Nat) : Operand :=
  let own := toks.take (operandLen toks need)
  match own with
  | [] => .partial_
  | x :: rest =>
    if x.null then .null
    else if x.level != 0 then .stop x.level
    else if rest.any Tok.isStop then (if rest.any (·.null) then .null else .mixed)
    else if own.length < need then .partial_
    else if own.any (·.null) then .null else .panel own

/-- How many operand tiles collected tokens stand in (R315). -/
def operandTiles : Nat → List Tok → Nat → Nat
  | 0, _, _ => 0
  | n + 1, toks, need => if toks.isEmpty then 0 else operandTiles n (toks.drop (operandLen toks need)) need + 1

/-- Bytes of panel tokens, ascending. -/
def tokBytes (toks : List Tok) : List Byte := toks.flatMap (fun x => leBytes 64 x.bits.toNat)

/-- The node at work. -/
def Fab.node (e : Fab) : Node := { tile := e.t % 4, ctx := e.r.ctx, slot := e.slot }
/-- The matrix engine of the tile at work. -/
def Fab.mx (e : Fab) : Matrix := (e.s.cluster (clusterOf e.t)).mx
/-- Change it. -/
def Fab.setMx (e : Fab) (m : Matrix) : Fab := { e with s := e.s.modMx (clusterOf e.t) (fun _ => m) }

/-- The banks of a tile that starts at b0. -/
def tileBankList (b0 m n width : Nat) : List Nat := (List.range (tileBanks m n width)).map (· + b0)

/-- Is the tile open and owned by this node in this round (R316)? -/
def ownTile (m : Matrix) (node : Node) (round b0 : Nat) : Bool :=
  let b := m.bank b0
  b.tag = .open_ && b.owner = node && b.round = round && !b.closing

/-- Is the destination acceptable, on the tags at the start of the cycle (R316, R322)? -/
def acceptable (m : Matrix) (node : Node) (round b0 mm nn width now : Nat) : Bool :=
  ownTile m node round b0 || (tileBankList b0 mm nn width).all (fun b => (m.bank b).tag = .empty && (m.bank b).since != some now)

/-- Claim the banks of a tile (R313, R331): accumulators +0, bnd and mx cleared, settings kept. -/
def Matrix.claim (m : Matrix) (node : Node) (round b0 mm nn width : Nat) : Matrix :=
  (tileBankList b0 mm nn width).foldl (fun m b => m.modBank b (fun k =>
    { k with tag := Tag.open_, first := b0, width := width, m := mm, n := nn, owner := node, round := round, closing := false,
             readOut := false, acc := [], bnd := 0, mx := 0, deps := [], claims := k.claims + 1 })) m

/-- Change every bank of the tile whose first bank is b0. -/
def Matrix.onTile (m : Matrix) (b0 : Nat) (f : Bank → Bank) : Matrix :=
  (List.range 4).foldl (fun m b => if (m.bank b).tag != .empty && (m.bank b).first = b0 then m.modBank b f else m) m

/-- A closing group without k-steps to perform completes (R317). -/
def Matrix.finishGroups (m : Matrix) : Matrix :=
  (List.range 4).foldl (fun m b =>
    let k := m.bank b
    if k.tag = .open_ && k.closing && !(m.queue.any (fun q => q.node = k.owner && q.round = k.round)) then
      m.modBank b (fun k => { k with tag := Tag.complete, closing := false })
    else m) m

/-- Close the group of a node (R317). -/
def Matrix.closeGroup (m : Matrix) (node : Node) (round : Nat) : Matrix :=
  ((List.range 4).foldl (fun m b =>
    let k := m.bank b
    if k.tag = .open_ && k.owner = node && k.round = round then m.modBank b (fun k => { k with closing := true }) else m) m).finishGroups

/-- Bytes of pieces as a later round of a tile reads them: what committed rounds have still to write there over what memory holds (R19). -/
def tileBytes (s : State) (t : Nat) (ps : List Piece) : List Byte :=
  overlay (committedStores s t) (byteNames ps 0 0) (ps.flatMap s.pieceBytes)

/-- One 64-byte piece of a gathered row: from the group's cache, or read now (R320), as a load of the round reads memory (R19, R75). An error
without a fault: it must wait. -/
def gatherPiece (e : Fab) (g : Gather) (lv : Bool) (i : Nat) : Except (Option AccFault) (Gather × List Byte × Fab) :=
  let got (ps : List Piece) (s1 : State) : Except (Option AccFault) (Gather × List Byte × Fab) :=
    if ps.all (servable e.s (dieOf e.t)) && settledBytes e.s e.t ps (byteNames ps 0 0) then
      let bs := tileBytes e.s e.t ps
      .ok ({ g with cache := g.cache.put i bs }, bs, { e with s := mergeRead s1 (dieOf e.t) ps })
    else .error none
  match g.cache.find i with
  | some bs => .ok (g, bs, e)
  | none =>
    if lv then
      match lvAccess e.s (clusterOf e.t) e.c (e.s.cluster (clusterOf e.t)).tlb (BitVec.ofNat 64 (i * 64)) 64 false with
      | .error f => .error (some f)
      | .ok (ps, us) => got ps (e.s.noteCluster (clusterOf e.t) us)
    else match spadAccess (clusterOf e.t) (i * 64) 64 with
      | .error f => .error (some f)
      | .ok ps => got ps e.s

/-- The rows of the A panel of k-step j of a gathering group (R320). -/
def gatherRows (e : Fab) (g : Gather) (lv : Bool) (ra : Nat) : List Word → Except (Option AccFault) (Gather × List Byte × Fab)
  | [] => .ok (g, [], e)
  | ar :: rest =>
    let base := if lv then ar.toNat else ar.toNat % 2 ^ 21
    let a := base + g.steps * ra
    let bad (c a : Nat) : Except (Option AccFault) (Gather × List Byte × Fab) := .error (some { cause := c, addr := BitVec.ofNat 64 a, pri := none })
    if lv && (notLv ar || notLv (BitVec.ofNat 64 a)) then bad 5 a
    else if !lv && a + ra > 2 ^ 21 then bad 6 a
    else if base % ra != 0 then bad 8 base
    else match gatherPiece e g lv (a / 64) with
      | .error f => .error (f.map (fun f => { f with addr := BitVec.ofNat 64 a }))
      | .ok (g1, bs, e1) =>
        match gatherRows e1 g1 lv ra rest with
        | .error f => .error f
        | .ok (g2, more, e2) => .ok (g2, (bs.drop (a % 64)).take ra ++ more, e2)

/-- Members of a leader's gang, as (tile, context, slot) (R323): the nodes of its gang and split fields. -/
def gangMembers (e : Fab) : List (Nat × Nat × Nat) :=
  (peersOf e.s e.t (gangFields e.f.imm.toNat)).flatMap (fun p =>
    ((e.s.tile p.1).ctx p.2).block.slots.filterMap (fun w =>
      let imm := (slotFields w.2).imm.toNat
      if slotOp w.2 = 0x89 && mmaMember imm && gangFields imm = gangFields e.f.imm.toNat then some (p.1, p.2, w.1) else none))

/-- k-steps of a node that have fired and are not yet performed (R316). -/
def Matrix.unperformed (m : Matrix) (n : Node) : Nat := (m.queue.filter (fun q => q.node = n)).length

/-- Tokens that an operand at a position takes, of a node with a format of A and an immediate (R315, R320). -/
def operandNeed (mod imm pos : Nat) : Nat :=
  if pos = 1 then (if mmaGat imm then panelIndex imm else panelA mod imm) else panelB mod imm
/-- The tokens that a node has collected at a position. -/
def SlotSt.side (st : SlotSt) (pos : Nat) : List Tok := if pos = 1 then st.toks else st.toksR
/-- Has a node, with some k-steps not yet performed, operand tiles for some tokens at a position (R315): two, of which each such k-step holds
one? -/
def tilesHold (mod imm pos unperformed : Nat) (toks : List Tok) : Bool :=
  decide (operandTiles 3 toks (operandNeed mod imm pos) + unperformed ≤ 2)

/-- Has a member a free operand tile at the multicast position (R315, R323)? -/
def memberFree (s : State) (pos : Nat) (m : Nat × Nat × Nat) : Bool :=
  match (s.tile m.1).round with
  | some r =>
    let w := ((s.tile m.1).ctx m.2.1).block.word m.2.2
    let n := (s.cluster (clusterOf m.1)).mx.unperformed { tile := m.1 % 4, ctx := m.2.1, slot := m.2.2 }
    r.ctx = m.2.1 && decide (operandTiles 3 ((r.st m.2.2).side pos) (operandNeed (typeOf (slotFields w)) (slotFields w).imm.toNat pos) + n < 2)
  | none => false

/-- Send the tokens of a multicast operand to a member (R323), whose round is then one of the set (R324). -/
def castTo (s : State) (pos : Nat) (toks : List Tok) (m : Nat × Nat × Nat) : State :=
  s.modTile m.1 (fun T => { T with round := T.round.map (fun r =>
    let st := r.st m.2.2
    let out := toks.map (fun x => { x with deps := [] })
    { r.setSt m.2.2 (if pos = 1 then { st with toks := st.toks ++ out } else { st with toksR := st.toksR ++ out }) with ganged := true }) })

/-- The group of a gathering node (R320). -/
def Fab.group (e : Fab) : Option Gather := if mmaGat e.f.imm.toNat then e.mx.gathers.find? (fun g => g.node = e.node) else none
/-- The operand at .l: while a group gathers, a data token there is a mismatch (R320). -/
def Fab.opA (e : Fab) : Operand :=
  match e.group, e.st.toks with
  | none, toks => operandOf toks (operandNeed (typeOf e.f) e.f.imm.toNat 1)
  | some _, [] => .partial_
  | some _, x :: _ => if x.null then .null else if x.level != 0 then .stop x.level else .mixed
/-- The operand at .r. -/
def Fab.opB (e : Fab) : Operand := operandOf e.st.toksR (panelB (typeOf e.f) e.f.imm.toNat)

/-- Does the operand at .r bring its A panel with it: a B panel or a null, while a group gathers (R320)? -/
def Fab.bringsA (e : Fab) : Bool := e.group.isSome && (match e.opB with | .panel _ | .null => true | _ => false)

/-- Do both positions hold an operand (R315)? -/
def Fab.whole (e : Fab) : Bool := e.opB != .partial_ && (e.opA != .partial_ || e.bringsA)

/-- The tokens of the operands that a firing takes; one that gathers for its group leaves what stands at .l (R320). -/
def Fab.aToks (e : Fab) : List Tok :=
  if e.bringsA && e.opA != .null && e.opA != .mixed then [] else e.st.toks.take (operandLen e.st.toks (operandNeed (typeOf e.f) e.f.imm.toNat 1))
/-- Those at .r. -/
def Fab.bToks (e : Fab) : List Tok := e.st.toksR.take (operandLen e.st.toksR (panelB (typeOf e.f) e.f.imm.toNat))

/-- The members that a firing of this node multicasts to. -/
def Fab.members (e : Fab) : List (Nat × Nat × Nat) := if mmaLeader e.f.imm.toNat then gangMembers e else []
/-- The width at which the node accumulates (R336). -/
def Fab.mmaWidth (e : Fab) : Nat := Machine.mmaWidth (mmaAf e.f.imm.toNat) (e.c.steps.get 0 e.slot)

/-- Does a node with its operands wait for its tile, for engine space or for a member's operand tile (R316, R323)? -/
def Fab.mmaBlocked (e : Fab) : Bool :=
  let imm := e.f.imm.toNat
  decide (e.mx.unperformed e.node ≥ 2) ||
  !acceptable e.mx e.node e.r.no (mmaBase imm) (mmaM imm) (mmaN imm) e.mmaWidth e.s.now || !(e.members.all (memberFree e.s (mmaCastPos imm)))

/-- The predicate of a mma: its order tokens. -/
def Fab.mmaPred (e : Fab) : Option Tok :=
  if e.f.pm = 0 then none
  else if e.f.pm = 3 then
    some { kind := .bit, level := 0, null := e.r.orderNul.contains e.slot, bits := 1, deps := e.r.orderDeps.get [] e.slot }
  else e.r.at_ e.slot 3

/-- What the tokens of a firing derive from (R66). -/
def Fab.mmaDeps (e : Fab) : List Nat :=
  (e.aToks ++ e.bToks ++ e.mmaPred.toList).foldl (fun d x => unionDeps d x.deps) ((e.group.map (·.deps)).getD [])

/-- A multicast operand goes to every member (R323). -/
def Fab.cast (e : Fab) (toks : List Tok) : Fab :=
  { e with s := e.members.foldl (fun s m => castTo s (mmaCastPos e.f.imm.toNat) toks m) e.s }

/-- The operands, order tokens and predicate of a firing are consumed. -/
def Fab.taken (e : Fab) : Fab :=
  { e with r :=
    let r := e.r.setSt e.slot { e.st with toks := e.st.toks.drop e.aToks.length, toksR := e.st.toksR.drop e.bToks.length }
    { r with latch := r.latch.del (e.slot * 4 + 3), order := r.order.del e.slot, orderDeps := r.orderDeps.del e.slot,
             orderNul := r.orderNul.filter (· != e.slot), ganged := r.ganged || e.f.imm.toNat / 512 % 4 != 0 } }

/-- A k-step joins the engine's queue and claims its tile (R313, R316); a null or refusing predicate drops it (R317). -/
def Fab.kstep (e e1 : Fab) (a : List Byte) (b : List Tok) : Fate :=
  let imm := e.f.imm.toNat
  if e.mmaPred.any (·.null) then e1.emitNull e.mmaDeps
  else if refuses e.f e.op e.mmaPred then .ok e1
  else
    let m := e1.mx
    let m := if ownTile m e.node e.r.no (mmaBase imm) then m
      else m.claim e.node e.r.no (mmaBase imm) (mmaM imm) (mmaN imm) e.mmaWidth
    let q : Kstep :=
      { node := e.node, round := e.r.no, imm := imm, amod := typeOf e.f, width := e.mmaWidth, a := a.map (·.toNat),
        b := (tokBytes b).map (·.toNat), accepted := false, bySeq := e.c.bySeq, started := false, fired := e.s.now, set := BndSet.reset,
        check := !(e.c.unchecked.contains e.slot) }
    .ok (e1.setMx ({ m with queue := m.queue ++ [q] }.onTile (mmaBase imm) (fun k => { k with deps := unionDeps k.deps e.mmaDeps })))

/-- The tokens of an A panel that the gather unit has built. -/
def panelToks (a : List Byte) : List Tok :=
  (chunksOf64 (a.length / 64) a).map (fun l => dataTok .vector (BitVec.ofNat 512 (leNat l)) [])
where
  /-- Pieces of 64 bytes. -/
  chunksOf64 : Nat → List Byte → List (List Byte)
    | 0, _ => []
    | k + 1, l => l.take 64 :: chunksOf64 k (l.drop 64)

/-- The group of a node as it stands, or as its index tokens begin it (R320). -/
def Fab.groupOr (e : Fab) (idx : List Tok) : Gather :=
  match e.group with
  | some g => g
  | none =>
    { node := e.node, rows := idx.flatMap (fun x => (List.range 8).map (fun i => BitVec.ofNat 64 (x.bits.toNat / 2 ^ (64 * i)))),
      steps := 0, cache := [], deps := idx.foldl (fun d x => unionDeps d x.deps) [] }

/-- A firing of a gathering node with a B panel or a null at .r (R320): the matching A panel is built where a k-step or a member takes
it, and the group goes on by one panel. DEDUCED, log entry 74. -/
def Fab.gatherFire (e : Fab) (idx : List Tok) (b : Option (List Tok)) : Fate :=
  let imm := e.f.imm.toNat
  let drop := b.isNone || e.mmaPred.any (·.null) || refuses e.f e.op e.mmaPred
  let casts := mmaCastPos imm = 1 && !e.members.isEmpty
  let g := e.groupOr idx
  match (if drop && !casts then .ok (g, [], e) else gatherRows e g (imm / 2 ^ 11 % 2 = 1) (mmaRowBytes (typeOf e.f)) g.rows) with
  | .error none => .wait
  | .error (some x) => .gather x.cause x.addr x.pri
  | .ok (g1, a, e2) =>
    let m := e2.mx
    let m1 : Matrix := { m with gathers := m.gathers.filter (fun x => x.node != e.node) ++ [{ g1 with steps := g1.steps + 1 }] }
    let e3 := ({ e.taken with s := e2.s }.setMx m1).cast (if mmaCastPos imm = 1 then panelToks a else e.bToks)
    match b with
    | none => e3.emitNull e.mmaDeps
    | some b => e.kstep e3 a b

/-- The group of a node closes with its gather group (R317, R320). -/
def Fab.closeGroup (e : Fab) : Fab :=
  let m := e.mx
  e.setMx ({ m with gathers := m.gathers.filter (fun g => g.node != e.node) }.closeGroup e.node e.r.no)

/-- A firing that consumes its operands, sends those of a gang on, and sends nulls (R317). -/
def Fab.mmaNull (e : Fab) : Fate :=
  (e.taken.cast (if mmaCastPos e.f.imm.toNat = 1 then e.aToks else e.bToks)).emitNull e.mmaDeps

/-- A group begins with its index tokens where a stop at .r comes before any B panel (R320): it gathers nothing, and the stop waits for its
equal at .l. DEDUCED, log entry 74. -/
def Fab.beginGroup (e : Fab) (idx : List Tok) : Fab :=
  let e1 := e.setSt { e.st with toks := e.st.toks.drop idx.length }
  e1.setMx { e.mx with gathers := e.mx.gathers ++ [e.groupOr idx] }

/-- The firing of a mma whose two operands are whole, its predicate present and its tile and engine space there (R316, R317): nulls
first, the predicate's included, then mismatches, as the rows of R196 stand. -/
def mmaFire (e : Fab) : Fate :=
  let imm := e.f.imm.toNat
  let toks := if mmaCastPos imm = 1 then e.aToks else e.bToks
  let bad : Fate := .fault 0x22 (Config.faultValue 0x22 e.slot) none
  if !predPresent e.r e.op e.f e.slot || !e.space || e.mmaBlocked then .wait
  else match e.opA, e.opB with
    | .null, _ => e.mmaNull
    | .panel a, .null => if mmaGat imm then e.gatherFire a none else e.mmaNull
    | .mixed, .null => e.mmaNull
    | _, .null => if e.bringsA then e.gatherFire [] none else e.mmaNull
    | .panel a, .panel b => if mmaGat imm then e.gatherFire a (some b) else e.kstep (e.taken.cast toks) (tokBytes a) b
    | a, b =>
      if a != .mixed && e.bringsA then e.gatherFire [] (some e.bToks)
      else if e.mmaPred.any (·.null) then e.mmaNull
      else match a, b with
        | .stop k, .stop j =>
          if k != j then bad
          else if refuses e.f e.op e.mmaPred then .ok (e.taken.cast toks)
          else (if k ≥ mmaElv imm then (e.taken.cast toks).closeGroup else e.taken.cast toks).emitStop k e.mmaDeps
        | _, _ => bad

/-- Move the token of a latch into an operand tile (R315), where one of the two is free. DEDUCED, log entry 74. -/
def mmaCollect (e : Fab) (pos : Nat) : Option Fab :=
  match e.r.at_ e.slot pos with
  | none => none
  | some x =>
    let toks := e.st.side pos ++ [x]
    if tilesHold (typeOf e.f) e.f.imm.toNat pos (e.mx.unperformed e.node) toks then
      let e1 : Fab := { e with r := { e.r with latch := e.r.latch.del (e.slot * 4 + pos) } }
      some (e1.setSt (if pos = 1 then { e.st with toks := toks } else { e.st with toksR := toks }))
    else none

/-- mma (R314 to R320): fires when both positions hold an operand, else takes a token into an operand tile. -/
def execFabMma (f : FabWord) (s : State) : Host.Outcome State Fault Refusal :=
  let imm := f.imm.toNat
  fabric 0x89 f s (fun e =>
    match (match e.opA, e.opB with
      | .panel idx, .stop _ => if mmaGat imm then Fate.ok (e.beginGroup idx) else mmaFire e
      | _, _ => if e.whole then mmaFire e else .wait) with
    | .wait =>
      (match (if mmaMember imm && mmaCastPos imm = 1 then none else mmaCollect e 1) with
       | some e1 => .ok e1
       | none => match (if mmaMember imm && mmaCastPos imm = 2 then none else mmaCollect e 2) with
         | some e1 => .ok e1
         | none => .wait)
    | x => x)

/-! ### accrd (R321, R340) -/

/-- Columns of a bank at a width (R312). -/
def bankCols (width : Nat) : Nat := if width = 2 then 64 else 128
/-- Bank and word of element (r, c) of a tile (R312). -/
def accPlace (b0 n width r c : Nat) : Nat × Nat :=
  let bw := bankCols width
  (b0 + r / 64 * ceilDiv n bw + c / bw, r % 64 * bw + c % bw)
/-- The accumulator of element (r, c), +0 where nothing was accumulated. -/
def Matrix.acc (m : Matrix) (b0 n width r c : Nat) : Val :=
  let p := accPlace b0 n width r c
  Val.held ((m.bank p.1).acc.get (Val.hold .zero) p.2)

/-- The elements of a tile, row by row. -/
def Matrix.elements (m : Matrix) (b0 : Nat) : List Val :=
  let k := m.bank b0
  (List.range k.m).flatMap (fun r => (List.range k.n).map (fun c => m.acc b0 k.n k.width r c))

/-- What a readout of a list of elements gives (R321, R340): encodings, flags, state, whether some element converts to a
special value, is clamped or reaches ovf of E4M3, and the greatest magnitude converted inexactly. -/
def readElements (dt mode : Nat) : List Val → Word → List Nat × Flags × Word × Bool × Val
  | [], z => ([], 0, z, false, .zero)
  | x :: r, z =>
    let q := valueLane dt mode x z
    let t := readElements dt mode r q.2.2
    let bad := match fmtOf dt with
      | some fm => (decodeFmt fm q.1).special || (fm == .e4m3 && q.2.1 &&& flOF != 0)
      | none => q.2.1 &&& flNV != 0
    let ro := if q.2.1 &&& flNX != 0 then vmaxAbs x t.2.2.2.2 else t.2.2.2.2
    (q.1 :: t.1, q.2.1 ||| t.2.1, t.2.2.1, bad || t.2.2.2.1, ro)

/-- h of R340: half an ulp to nearest, else a whole one; rs where it acts as rne takes half. -/
def halfUlp (dt mode : Nat) (x : Val) : Val :=
  let near := match fmtOf dt with | some fm => effMode fm mode == 0 | none => mode == 0 || mode == 4
  let u := match fmtOf dt with | some fm => ulp fm x | none => Val.ofInt 1
  if near then (vmul u (.fin false 1 2)).1 else u

/-- obnd of a readout (R340). -/
def readBound (dt mode : Nat) (bnd : BitVec 16) (bad : Bool) (ro : Val) : BitVec 16 :=
  if bad || bnd = 0xFFFF then 0xFFFF
  else if ro.isZero then bnd
  else toBnd (bndAdd (bndVal bnd) (halfUlp dt mode ro))

/-- Split a list into groups of n. -/
def chunksOf {α : Type} (n : Nat) : Nat → List α → List (List α)
  | 0, _ => []
  | k + 1, l => l.take n :: chunksOf n k (l.drop n)

/-- The tokens of a readout: each row packed as lanes, then a stop token if one is asked (R321). -/
def readTokens (dt sl : Nat) (els : List Nat) (deps : List Nat) : List Tok :=
  let lanes := codeLanes dt
  (chunksOf lanes (els.length / lanes) els).map (fun l => dataTok .vector (packLanes (codeWidth dt) l) deps) ++
    (if sl = 0 then [] else [stopTok .vector sl deps])

/-- Does a bank still hold the tile of a claim, complete? -/
def Matrix.holdsClaim (m : Matrix) (b0 claim : Nat) : Bool := (m.bank b0).tag = .complete && (m.bank b0).claims = claim

/-- The tile read with keep = 0 empties at once if its group was completed in this round, else at the commit (R321); one that has been emptied
and claimed anew meanwhile stays as it is. -/
def Matrix.readDone (m : Matrix) (b0 claim round : Nat) (keep : Bool) : Matrix :=
  if keep || !m.holdsClaim b0 claim then m
  else if (m.bank b0).round = round then m.onTile b0 (fun k => { k with tag := Tag.empty, readOut := false })
  else m.onTile b0 (fun k => { k with readOut := true })

/-- Does a copy command hold a bank of the tile whose first bank is b0, so that an emptying read or mx.free waits (R354)? -/
def Cluster.copyHolds (K : Cluster) (b0 : Nat) : Bool :=
  (List.range 4).any (fun b => (K.mx.bank b).tag != .empty && (K.mx.bank b).first = b0 &&
    (List.range 4).any (fun j => (K.chain 1 j).started.any (fun x => x.banks.testBit b)))

/-- Does a copy hold a bank that an accrd with keep = 0 would empty (R354)? -/
def Fab.emptyWaits (e : Fab) (b0 : Nat) : Bool :=
  e.f.imm.toNat / 2 ^ 15 % 2 != 1 && (e.s.cluster (clusterOf e.t)).copyHolds b0

/-- Must an accrd wait for the tile at a base bank: it is not complete, was not so at the start of the cycle, is another context's, or is to
be emptied under a copy (R321, R322, R354)? -/
def Fab.readWaits (e : Fab) (b0 : Nat) : Bool :=
  let k := e.mx.bank b0
  !(k.tag = .complete && k.since != some e.s.now && k.first = b0 && k.owner.tile = e.t % 4 && k.owner.ctx = e.r.ctx) || e.emptyWaits b0

/-- accrd (R321): fires on a complete tile of its context, then sends one token a step. -/
def execFabAccrd (f : FabWord) (s : State) : Host.Outcome State Fault Refusal :=
  let imm := f.imm.toNat
  let b0 := imm / 2 ^ 19 % 4
  let keep := imm / 2 ^ 15 % 2 = 1
  let dt := typeOf f
  fabric 0x8A f s (fun e =>
    match e.st.out with
    | x :: rest =>
      if !e.space || (rest = [] && e.mx.holdsClaim b0 e.st.n && e.emptyWaits b0) then .wait
      else
        let e1 := e.setSt { e.st with out := rest }
        (if rest = [] then e1.setMx (e1.mx.readDone b0 e.st.n e.r.no keep) else e1).emit x
    | [] =>
      e.table (fun _ e => e) (fun e h =>
        if e.readWaits b0 then .wait
        else
          let q := readElements dt (rndOf f) (e.mx.elements b0) e.sto
          let e1 := (e.consume.note q.2.1 q.2.2.1).setMx
            (e.mx.modBank b0 (fun k => { k with set := { k.set with obnd := readBound dt (rndOf f) k.bnd q.2.2.2.1 q.2.2.2.2 } }))
          let k := e.mx.bank b0
          let deps := if k.round = e.r.no then unionDeps h.deps k.deps else h.deps
          .ok (e1.setSt { e1.st with out := readTokens dt (imm / 2 ^ 16 % 8) q.1 deps, n := k.claims })))

/-! ### bld and bst (R343, R344) -/

/-- The address of a bound access (R343): base and tile index. -/
def boundAddr (f : FabWord) (h : Held3) : Except Word Word :=
  let off : Word := 2 * h.r.word
  if f.imm.toNat / 2 ^ 17 % 2 = 1 then .ok (BitVec.ofNat 64 ((h.l.word + off).toNat % 2 ^ 21)) else eaOf h.l.word off
/-- The space of a bound access. -/
def boundSpace (f : FabWord) : MemSpace := if f.imm.toNat / 2 ^ 17 % 2 = 1 then .spad else .memory
/-- Range, then alignment (R343, R410), of a bound access at an address. -/
def boundFault (f : FabWord) (a : Word) : Option Nat :=
  if boundSpace f = .spad && a.toNat + 2 > 2 ^ 21 then some 6 else if a.toNat % 2 != 0 then some 8 else none

/-- bld (R343). -/
def execFabBld (f : FabWord) (s : State) : Host.Outcome State Fault Refusal :=
  fabric 0x8B f s (fun e => e.table (fun _ e => e) (fun e h =>
    if bldWaits e.s e.t e.r.ctx (bankOf f) then .wait
    else if f.imm.toNat / 2 ^ 19 % 2 = 1 then
      let v := h.l.word.toNat
      let e0 := { e.consume with s := bldWrite e.s e.t f v }
      (e0.send 0 (dataTok .scalar (BitVec.ofNat 512 (v % 2 ^ 16)) h.deps)).both e0
        (fun e1 => e1.send 1 (bitTok true h.deps))
    else match boundAddr f h with
      | .error v => .fault 5 v none
      | .ok a =>
        match boundFault f a with
        | some c => .fault c a none
        | none => e.consume.issueLoad (boundSpace f) a 2 h.deps))

/-- bst (R344): reads the register now and holds a store of two bytes. -/
def execFabBst (f : FabWord) (s : State) : Host.Outcome State Fault Refusal :=
  fabric 0x8C f s (fun e => e.table (fun _ e => e) (fun e h =>
    let k := e.mx.bank (bankOf f)
    let obnd := f.imm.toNat / 2 ^ 22 % 4 = 1
    if !obnd && k.tag = .open_ then .wait
    else match boundAddr f h with
      | .error v => .fault 5 v none
      | .ok a =>
        match boundFault f a with
        | some c => .fault c a none
        | none => e.consume.store (boundSpace f) a (leBytes 2 (if obnd then k.set.obnd else k.bnd).toNat) h.deps))

/-! ### Waiting for a memory port (R30, R56) -/

/-- Would the banks of a scratchpad access not take its request (R56)? -/
def Fab.bankStalled (e : Fab) (a : Except Word Word) (n : Nat) : Bool :=
  match a with
  | .ok a => (match spadAccess (clusterOf e.t) a.toNat n with | .ok ps => e.r.bankFull ps | .error _ => false)
  | .error _ => false

/-- Does a slot that has its operands and whose targets have space wait for its bank queue, tile or engine, so that reason 0b10 holds (R30, R56,
R316, R321, R343, R344)? -/
def Fab.portWaits (e : Fab) : Bool :=
  if e.op = 0x89 then e.mmaBlocked
  else match e.operands with
    | none => false
    | some h =>
      judge e.f e.op h = .data &&
      match e.op with
      | 0x78 => e.bankStalled (e.addr h .spad false (scalarSize e.f)) (scalarSize e.f)
      | 0x7A => e.bankStalled (e.addr h .spad false 64) 64
      | 0x8A => e.readWaits (e.f.imm.toNat / 2 ^ 19 % 4)
      | 0x8B => bldWaits e.s e.t e.r.ctx (bankOf e.f) ||
          (e.f.imm.toNat / 2 ^ 19 % 2 = 0 && boundSpace e.f = .spad && e.bankStalled (boundAddr e.f h) 2)
      | 0x8C => e.f.imm.toNat / 2 ^ 22 % 4 != 1 && (e.mx.bank (bankOf e.f)).tag = .open_
      | _ => false

/-- Does a bld hold a setting that memory has returned, its bank being open, or complete under another context (R343)? -/
def Fab.bldHeld (e : Fab) : Bool :=
  e.op = 0x8B && e.r.loads.any (fun l => l.slot = e.slot && l.whole) && bldWaits e.s e.t e.r.ctx (bankOf e.f)

/-- Does a position that the opcode needs now hold no token (R30)? A filling rpt needs its value, one that emits its count (R240); a mma
needs its panels (R316). -/
def Fab.lacks (e : Fab) : Bool :=
  let pred := e.f.pm != 3 && !predPresent e.r e.op e.f e.slot
  match e.op with
  | 0x88 => (e.r.at_ e.slot (if e.st.term.isSome then 2 else 1)).isNone
  | 0x89 => !e.whole || pred
  | _ => !((valuePos e.op e.f).all (fun p => (e.r.at_ e.slot p).isSome)) || pred

/-! ### The entries of the SLOT table (R326) -/

/-- Cycles, tile and context of a SLOT table entry (R326). -/
def slotCycles (e : BitVec 32) : Nat := bits e 31 16
/-- Tile of an entry. -/
def slotTile (e : BitVec 32) : Nat := bits e 15 14
/-- Context of an entry. -/
def slotCtx (e : BitVec 32) : Nat := bits e 13 11
/-- Entry i of the table; one past its end has length 0. -/
def Matrix.slotEntry (m : Matrix) (i : Nat) : BitVec 32 := m.table.getD i 0
/-- Begin an entry. -/
def Matrix.enter (m : Matrix) (i : Nat) : Matrix := { m with entry := i, left := slotCycles (m.slotEntry i), begun := true }

end Sys2Proof.Machine
end

