-- ==== Sys2Proof/Machine/Round.lean ====
section
/-! DEFINITION. The start and the commit of a round (R17 to R19, R203 to R211, R302, R324, R335, R346). -/

namespace Sys2Proof.Machine

/-! ### Start -/

/-- May a context take a round: an active run, not stopped, a block (R175, R269)? -/
def Ctx.ready (c : Ctx) : Bool := c.run.isSome && c.stopped.isNone && c.block.loaded

/-- The context whose turn it is: the next ready one in rising rotation after the last (R175). DEDUCED, log entry 44. -/
def turnOf (T : Tile) : Option Nat := ((List.range 8).map (fun i => (T.last + 1 + i) % 8)).find? (fun c => (T.ctx c).ready)

/-- A round's record still waits for a slot (R268, R280). -/
def recordWaits (s : State) (t ctx : Nat) : Bool :=
  (s.die (dieOf t)).waiting.any (fun r => r.voided && r.cluster = clusterOf t % 40 && r.tile = t % 4 && r.ctx = ctx)

/-- Stochastic state of an element at round start (R107, R139). -/
def elementState (T : Tile) (c : Ctx) (ctx e : Nat) : Word :=
  if c.fresh then mix64 (T.rseed ^^^ BitVec.ofNat 64 (ctx * 64 + e)) else c.sto.get 0 e

/-- A port records its position (R267): iterations completed, tokens held, the cursor of its reader. -/
def Port.recordPos (P : Port) (mark : Option Nat) : Port :=
  let w := match P.prog with | some g => g.write | none => false
  { P with saved := { c := if w then P.issued else P.c, issued := P.issued, toks := P.toks, shareClosed := false, read := P.read, mark := mark },
           shareClosed := false }

/-- The round in hand as it begins (R203). -/
def newRound (s : State) (t ctx : Nat) : Round :=
  let T := s.tile t
  let c := T.ctx ctx
  let sto : Tbl Word := (List.range 64).map (fun e => (e, elementState T c ctx e))
  let m := (s.cluster (clusterOf t)).mx
  { ctx := ctx, no := T.rounds, latch := [], order := [], orderDeps := [], orderNul := [], fired := [], slotSt := [],
    transit := [], gw := [], vw := [], stores := [], bars := [], acted := [], flags := 0, exports := [], seamTaken := [], loads := [],
    sto := sto, stoStart := sto, freshStart := c.fresh, ends := false, settings := (List.range 4).map (fun b => (m.bank b).set),
    ganged := false }

/-- The tile with a round of a context begun. -/
def startRound (s : State) (t ctx : Nat) : State :=
  let T := s.tile t
  let ports := (List.range 4).foldl (fun (m : Tbl Port) p =>
    let P := m.get Port.reset p
    if P.serves ctx then m.put p (P.recordPos (readerCursor s t P)) else m) T.ports
  s.setTile t ({ T with round := some (newRound s t ctx), ports := ports, last := ctx, rounds := T.rounds + 1 }.modCtx ctx
    (fun c => { c with fresh := false }))

/-- The fault that a write port holds for the next round of its context (R303): of several, an amber one first, then the lowest port's (R270). -/
def heldFault (T : Tile) (ctx : Nat) : Option (Nat × Nat × Word × Option Nat) :=
  let fs := (List.range 4).filterMap (fun p =>
    let P := T.port p
    match P.prog with
    | some g => if g.ctx = ctx && g.write then P.fault.map (fun f => (p, f)) else none
    | none => none)
  (fs.find? (fun f => causeAmber f.2.1)).or fs.head?

/-- Has the tile's sequencer a store that precedes a release fence before the run of a context and is not performed: in its queue, or
write-pending on a duplicated page (R61, R235)? -/
def storesAhead (s : State) (t ctx : Nat) : Bool :=
  let T := s.tile t
  (T.ctx ctx).run.any (fun r => T.seq.queue.any (fun e => decide (e.no < r.below)) || (r.below != 0 && writePending s t))

/-- A tile starts a round of a context (R203, R267), which sees what a release fence before its run has ordered (R235); a held port fault
voids it at once (R303). -/
def execRoundStart (tile ctx : Nat) (s : State) : Host.Outcome State Fault Refusal :=
  perform s (within (tile < tileCount && ctx < 8) (
    let T := s.tile tile
    when (T.round.isNone && T.live && turnOf T = some ctx && !recordWaits s tile ctx && !storesAhead s tile ctx) s
      (let s1 := startRound s tile ctx
       match heldFault T ctx with
       | some (p, cause, a, pri) =>
         .go (fabricFault (s1.modTile tile (fun T => T.modPort p (fun P => { P with fault := none }))) tile 0 p 2 cause a pri) []
       | none => .go s1 [])))

/-! ### Commit -/

/-- Header part q of a block (R125). -/
def Block.part (b : Block) (q : Nat) : Nat := (b.header.get 0 q).toNat

/-- Has an accrd of the round tokens still to send (R321)? -/
def readoutPending (c : Ctx) (r : Round) : Bool := r.slotSt.any (fun p => c.op p.1 = 0x8A && !p.2.out.isEmpty)

/-- Is a k-step of the round in the way of its commit: not accepted (R206), or of a threshold below +inf and not yet performed (R335)? -/
def kstepPending (m : Matrix) (tile : Nat) (r : Round) : Bool :=
  m.queue.any (fun k => k.node.tile = tile && k.node.ctx = r.ctx && k.round = r.no &&
    (!k.accepted || k.set.thr != 0xFFFF))

/-- Has every slot that sends at round start sent its token (R203)? -/
def sourcesSent (c : Ctx) (r : Round) : Bool := c.block.slots.all (fun w => !(opSource (slotOp w.2)) || (r.st w.1).active)

/-- Would the commit of a round of a context empty a tile that a copy command holds (R321, R354)? -/
def emptiesHeld (K : Cluster) (tile ctx : Nat) : Bool :=
  (List.range 4).any (fun b =>
    let k := K.mx.bank b
    k.readOut && k.owner.tile = tile && k.owner.ctx = ctx && K.copyHolds k.first)

/-- The conditions of R206, R17, R18 and R335 for the round in hand of a tile. DEDUCED, log entry 46. -/
def canCommit (s : State) (t : Nat) : Bool :=
  let T := s.tile t
  match T.round with
  | none => false
  | some r =>
    let c := T.ctx r.ctx
    T.live && T.drain.isEmpty && r.loads.isEmpty &&
    r.gw.length = c.block.part 5 && r.vw.length = c.block.part 6 &&
    (r.fired.filter (fun x => opStoreKind (c.op x))).length = c.block.part 7 &&
    (r.fired.filter (fun x => c.op x = 0x90)).length = c.block.part 8 &&
    sourcesSent c r && !emptiesHeld (s.cluster (clusterOf t)) (t % 4) r.ctx && !readoutPending c r && !kstepPending (s.cluster (clusterOf t)).mx (t % 4) r

/-- The exported tokens of a round, those on their way to the seam port included (R202, R207). -/
def Round.allExports (r : Round) (page : Nat) : List Export :=
  r.exports ++ r.transit.filterMap (fun x => x.page.map (fun p => { page := p, tok := x.seamTok page r.ctx }))

/-- Released exported tokens of a page reach a tile's seam port (R202, R207). -/
def releaseExports (s : State) (l : Nat) (xs : List Export) : State :=
  match s.launch l with
  | none => s
  | some L => xs.foldl (fun s x =>
      match L.place[x.page]? with
      | some d => s.modTile d (fun T => { T with seam := T.seam ++ [x.tok] })
      | none => s) s

/-- The matrix engine at the commit of a round (R318, R321): open groups close, as if by their stops, and gather no more (R320), tiles read
with keep = 0 empty. -/
def Matrix.commitRound (m : Matrix) (tile ctx round : Nat) : Matrix :=
  let m : Matrix := { m with gathers := m.gathers.filter (fun g => !(g.node.tile = tile && g.node.ctx = ctx)) }
  ((List.range 4).foldl (fun m b =>
    let k := m.bank b
    if k.tag = .empty || !(k.owner.tile = tile && k.owner.ctx = ctx) then m
    else if k.readOut then m.modBank b (fun k => { k with tag := Tag.empty, readOut := false })
    else if k.tag = .open_ && k.round = round then m.modBank b (fun k => { k with closing := true })
    else m) m).finishGroups

/-- A store of a list still goes to a stream. -/
def storesTo (l : List Held) (h : Nat) : Bool := l.any (fun x => bit x.addr 63 && x.pieces.isEmpty && streamHandle x.addr = h)

/-- Is a stream's scope wider than the die (R287)? -/
def wideStream (s : State) (l h : Nat) : Bool := match s.stream l h with | some st => wideScope st.scope | none => false

/-- Has a port of a tile still to perform a write to a stream, of a round up to one? -/
def Tile.writesTo (T : Tile) (h no : Nat) : Bool :=
  (List.range 4).any (fun p => (T.port p).prog.any (fun g => g.isStream && streamHandle g.base = h) &&
    (T.port p).committed.any (fun w => w.no ≤ no))

/-- Is the oldest implicit HWM advance of a write port due: its writes, the round's other writes to the stream and every write of earlier
rounds have been performed (R67, R73, R302)? -/
def publishDue (s : State) (t p : Nat) : Bool :=
  let T := s.tile t
  let P := T.port p
  match P.prog, P.pubDue with
  | some g, (n, no) :: _ =>
    let l := T.launchNo
    let h := streamHandle g.base
    !(P.c < n || s.olderWrites t no || storesTo T.drain h || T.writesTo h no || (wideStream s l h && inFlight s t) || !streamReached s (some (dieOf t)) l)
  | _, _ => false

/-- The oldest implicit HWM advance of a write port, when it is due: a refused one is counted. -/
def portPublish (s : State) (t p : Nat) : State :=
  let T := s.tile t
  let P := T.port p
  match P.prog with
  | none => s
  | some g =>
    let l := T.launchNo
    let h := streamHandle g.base
    match P.pubDue with
    | [] => s
    | (_, _) :: rest =>
      if !publishDue s t p then s
      else
        let s1 := s.setTile t (T.setPort p { P with pubDue := rest })
        match s.stream l h with
        | none => s1
        | some st =>
          match st.advanceHwm (streamOff P.cursor) with
          | some st1 => s1.markStream (some (dieOf t)) l h st1
          | none => s1.putStream l h { st with refused := st.refused + 1 }

/-- The implicit release of a read port (R297, R302): to its cursor, as of the last element delivered to a committed round. -/
def portRelease (s : State) (t p : Nat) : State :=
  let T := s.tile t
  let P := T.port p
  match P.prog with
  | none => s
  | some g =>
    let l := T.launchNo
    let h := streamHandle g.base
    match (if g.rel && !g.write && g.isStream then P.read else none), s.stream l h with
    | some m, some st =>
      (match st.releaseTo g.rdr m false with
       | .ok st1 => s.markStream (some (dieOf t)) l h st1
       | _ => s)
    | _, _ => s

/-- A port at the commit of a round of its context: the writes of the round are committed, and its HWM advance becomes due (R302). -/
def portCommit (s : State) (t ctx no p : Nat) : State :=
  let P := (s.tile t).port p
  if !P.serves ctx || P.loan then s
  else match P.prog with
    | none => s
    | some g =>
      if g.write then
        let P1 := { P with committed := P.committed ++ P.buf, issued := P.issued + P.buf.length, buf := [],
                           pubDue := if g.pub && g.isStream then P.pubDue ++ [(P.issued + P.buf.length, no)] else P.pubDue }
        s.modTile t (fun T => T.setPort p P1)
      else portRelease s t p

/-- The run of a context after a committed round (R210). -/
def Run.after (r : Run) (ends : Bool) : Option Run :=
  if ends || (r.asked != 0 && r.done + 1 ≥ r.asked) then none else some { r with done := r.done + 1 }

/-- Commit the round in hand of a tile (R207). -/
def commitRound (s : State) (t : Nat) : State :=
  let T := s.tile t
  match T.round with
  | none => s
  | some r =>
    let l := T.launchNo
    let g := r.gw.foldl (fun (m : Tbl Word) w => match w.2 with | some v => m.put w.1 v | none => m) T.g
    let v := r.vw.foldl (fun (m : Tbl Vec) w => match w.2 with | some x => m.put w.1 x | none => m) T.v
    let T1 := { T with g := g, v := v, drain := r.stores, round := none, arrivals := T.arrivals ++ r.bars.map (fun b => (r.no, b)) }
    let T2 := T1.modCtx r.ctx (fun c =>
      { c with fstat := c.fstat ||| r.flags, sto := r.sto, run := c.run.bind (fun x => x.after r.ends), unchecked := [],
               gangs := if r.ganged then c.gangs + 1 else c.gangs })
    let s2 := (sessionCommit (s.setTile t T2) t r.ctx).modMx (clusterOf t) (fun m => m.commitRound (t % 4) r.ctx r.no)
    let s3 := (List.range 4).foldl (fun s p => portPublish s t p) ((List.range 4).foldl (fun s p => portCommit s t r.ctx r.no p) s2)
    (releaseExports (settleTile s3 t) l (r.allExports T.page)).progress l

/-- A round commits (R206, R207), a gang's rounds together (R324). -/
def execRoundCommit (tile : Nat) (s : State) : Host.Outcome State Fault Refusal :=
  perform s (within (tile < tileCount) (
    match (s.tile tile).round with
    | none => idle s
    | some r =>
      let gang := gangOf s tile r.ctx
      when (canCommit s tile && gang.all (fun p => canCommit s p.1 && inSet s tile r.ctx p)) s
        (.go (gang.foldl (fun s p => commitRound s p.1) (commitRound s tile)) [])))

end Sys2Proof.Machine
end

