-- ==== Sys2Proof/Machine/Launch.lean ====
section
/-! DEFINITION. Launches (R25 to R29, R260 to R265): packets, the image (R129 to R132), placement, streams (R287, R288, R293),
reports (R262, R263), seeds, retirement and moves. -/

namespace Sys2Proof.Machine

/-! ### Packets (R261) -/

/-- Address of the image. -/
def pktImage (p : List Byte) : Nat := leAt p 0 8
/-- Space of the image. -/
def pktSpace (p : List Byte) : Nat := leAt p 8 1
/-- Home die. -/
def pktDie (p : List Byte) : Nat := leAt p 9 1
/-- Pages per cluster. -/
def pktDensity (p : List Byte) : Nat := leAt p 10 1
/-- Options. -/
def pktOptions (p : List Byte) : Nat := leAt p 11 1
/-- Reply address. -/
def pktReply (p : List Byte) : Nat := leAt p 16 8
/-- Endpoint of the submitter. -/
def pktEndpoint (p : List Byte) : Nat := leAt p 24 2
/-- Tag of every report. -/
def pktTag (p : List Byte) : Nat := leAt p 32 8

/-- Is a packet free of reserved values, and its die enabled (R261)? -/
def packetOk (s : State) (p : List Byte) : Bool :=
  p.length = 64 && pktSpace p ≤ 2 && pktDie p < dieCount && (s.cap 1).getLsbD (pktDie p) &&
  (pktDensity p = 1 || pktDensity p = 2 || pktDensity p = 4) && pktOptions p < 4 && leAt p 12 4 = 0 &&
  pktEndpoint p < 1024 && leAt p 26 6 = 0 && leAt p 40 24 = 0

/-! ### Reports (R262, R263) -/

/-- The place word of a tile (R262). -/
def placeWord (t : Nat) : Nat := 2 ^ 15 + dieOf t * 2 ^ 10 + clusterOf t % 40 * 16 + t % 4 * 4

/-- The 64 bytes of a report. -/
def reportBytes (tag status pages ctxid : Nat) (place : List Nat) (base : Word) : List Byte :=
  leBytes 8 tag ++ leBytes 1 status ++ leBytes 1 pages ++ leBytes 2 0 ++ leBytes 4 ctxid ++
    ((place.map (fun t => leBytes 2 (placeWord t))).flatten ++ List.replicate 32 0).take 32 ++ leBytes 8 base.toNat ++ leBytes 8 0

/-- The cluster, context and TLB through which the addresses of a submitting launch are translated: the context its first page's sequencer has
selected. DEDUCED, log entry 16. -/
def submitter (s : State) (src : PacketSource) : Option (Nat × Ctx × List Xlat) :=
  match src with
  | .context l => (pageTile s l 0).map (fun t => (clusterOf t, (s.tile t).selected, (s.cluster (clusterOf t)).tlb))
  | _ => none

/-- The writes that put bytes at an LV address of a submitter. -/
def submitterBytes (s : State) (src : PacketSource) (a : Word) (bs : List Byte) : List (Nat × Byte) :=
  match submitter s src with
  | some (k, c, tlb) =>
    (match lvAccess s k c tlb a bs.length true with
     | .ok (ps, _) => (ps.flatMap (fun p => (List.range p.size).map (fun i => p.key + i))).zip bs
     | .error _ => [])
  | none => []

/-- A report leaves for the reply address of its packet: to the host, to the submitting context, or to another endpoint.
DESIGN CHOICE, log entry 50. -/
def sendReport (s : State) (die : Nat) (p : List Byte) (src : PacketSource) (bs : List Byte) : State × List (Nat × Byte) :=
  if pktEndpoint p = 0x3FF then (s.send (.report die bs), putBytes (hostKey (pktReply p)) bs)
  else match src with
    | .context _ => (s.send (.report die bs), submitterBytes s src (BitVec.ofNat 64 (pktReply p)) bs)
    | _ => (s.leave (pktEndpoint p) (.ualink (pktEndpoint p) bs), [])

/-- A report without a placement, its base 0 (R263). DESIGN CHOICE, log entry 94. -/
def refuseReport (s : State) (die : Nat) (p : List Byte) (src : PacketSource) (status pages : Nat) : State × List (Nat × Byte) :=
  sendReport s die p src (reportBytes (pktTag p) status pages 0 [] 0)

/-- A report of a placed launch. -/
def launchReport (s : State) (L : Launch) (status : Nat) : State × List (Nat × Byte) :=
  sendReport s L.home L.packet L.source (reportBytes (pktTag L.packet) status L.pages L.ctxid.toNat L.place L.base)

/-- A packet reaches a die launch unit (R25, R26 step 1, R261): refused, or queued at its home die. R26 says first in first out for each
source queue and does not order the heads of different sources: a die's queue is one for all of them, in order of arrival.
DESIGN CHOICE, log entry 81. -/
def submit (s : State) (die : Nat) (p : List Byte) (src : PacketSource) : State × List (Nat × Byte) :=
  if packetOk s p then (s.modDie (pktDie p) (fun D => { D with queue := D.queue ++ [(p, src)] }), [])
  else refuseReport s die p src 4 0

/-- May a packet reach a die launch unit and go on to its home die: over an open port, along a route with no drained link (R391, R398)? -/
def submitReady (s : State) (die : Nat) (p : List Byte) (src : PacketSource) : Bool :=
  (!packetOk s p || routeOpen s die (pktDie p)) && (match src with | .ualink e => earOpen s e | _ => true)

/-- What a packet from another endpoint counts in its port's receive direction (R391). -/
def submitHeard (s : State) (src : PacketSource) : State :=
  match src with | .ualink e => s.heard e | _ => s

/-- A launch packet reaches a die launch unit (R261). -/
def execLaunchPacket (die : Nat) (packet : List Byte) (source : PacketSource) (s : State) :
    Host.Outcome State Fault Refusal :=
  perform s (within (die < dieCount) (
    let r := submit (submitHeard s source) die packet source
    when (submitReady s die packet source) s (.go r.1 r.2)))

/-- Die 0 consumes the oldest slot of the host's launch queue, between head and tail (R261), and tells the host (R397). -/
def execLaunchQueue (s : State) : Host.Outcome State Fault Refusal :=
  let p := s.pkg.ring.get [] (s.pkg.ringHead % 256)
  let packet := p ++ List.replicate (64 - p.length) 0
  perform s (when (s.pkg.ringHead != s.pkg.ringTail && !s.pkg.wiping && submitReady s 0 packet .host) s (
    let r := submit (s.modPkg (fun k => { k with ringHead := (k.ringHead + 1) % 256 })) 0 packet .host
    .go (raiseVector r.1 48) r.2))

/-! ### The image (R129, R130, R132) -/

/-- n bytes of an image at an offset, none where they cannot be read (R261); a host address is used as it is. DEDUCED, log entry 51. -/
def imageBytes (s : State) (home : Nat) (p : List Byte) (src : PacketSource) (off n : Nat) : Option (List Byte) :=
  let a := pktImage p + off
  match pktSpace p with
  | 0 =>
    (match submitter s src with
     | some (k, c, tlb) =>
       (match lvAccess s k c tlb (BitVec.ofNat 64 a) n false with
        | .ok (ps, _) => some (ps.flatMap s.pieceBytes)
        | .error _ => none)
     | none => none)
  | 1 => some (s.mem.bytes (hostKey a) n)
  | _ => if a + n ≤ 2 ^ 30 then some (s.mem.bytes (sramKey home a) n) else none

/-- What a launch image holds (R129 to R132). -/
structure Image where
  pages : Nat
  tasks : List (BitVec 1024)
  strms : List (List Byte)
  seeds : List Seed
  /-- Configuration words and sequencer bytes of each page; none where the page has no stream. -/
  cfg : List (Option (List (BitVec 32)))
  seq : List (List Byte)
  /-- The symbol table, which names the initial barriers, events and timelines (R127, R130). -/
  symbols : List Byte
deriving DecidableEq, Repr

/-- Cut bytes into pieces of n. -/
def chunks (n : Nat) : Nat → List Byte → List (List Byte)
  | 0, _ => []
  | k + 1, bs => bs.take n :: chunks n k (bs.drop n)

/-- The size that the section table gives the contents of a type and page at an offset (R130). -/
def sectionSize (table : List (List Byte)) (type page off : Nat) : Option Nat :=
  (table.find? (fun e => leAt e 4 1 = type && leAt e 5 1 = page && leAt e 8 8 = off)).map (fun e => leAt e 16 8)

/-- The header of an image (R129) and the first 32 bytes of its launch descriptor (R132): none where they cannot be read, or where the
image has a wrong magic, version or kind, no launch descriptor, a page count of 0 or above 16, or more than 512 tasks. Reserved fields
are not judged. DESIGN CHOICE, log entry 82. -/
def imageHead (s : State) (home : Nat) (p : List Byte) (src : PacketSource) : Option (List Byte × List Byte) :=
  (imageBytes s home p src 0 64).bind (fun h =>
  if leAt h 0 4 != 0x314F5841 || leAt h 4 2 != 1 || leAt h 6 2 != 2 || leAt h 48 8 = 0 then none
  else (imageBytes s home p src (leAt h 48 8) 32).bind (fun d =>
  if leAt d 0 2 = 0 || leAt d 0 2 > 16 || leAt d 4 2 > 512 then none else some (h, d)))

/-- The seed of an entry of the seed list (R132): page, port and type in bytes 0, 1 and 2. DESIGN CHOICE, log entry 82. -/
def readSeed (b : List Byte) : Seed :=
  { page := leAt b 0 1, port := leAt b 1 1, type := leAt b 2 1, value := BitVec.ofNat 64 (leAt b 8 8) }

/-- Read an image (R129 to R132): none where any byte of it cannot be read. The descriptor holds an entry of 16 bytes for each of its
pages. -/
def readImage (s : State) (home : Nat) (p : List Byte) (src : PacketSource) : Option Image :=
  let rd := imageBytes s home p src
  (imageHead s home p src).bind (fun hd =>
  let h := hd.1
  let d := hd.2
  let P := leAt d 0 2
  (rd (leAt h 48 8 + 32) (16 * P)).bind (fun offs =>
  (rd (leAt h 8 8) (leAt h 16 4 * 32)).bind (fun sec =>
  (rd (leAt h 24 8) (leAt h 32 4 * 24)).bind (fun sym =>
  let table := chunks 32 (leAt h 16 4) sec
  let part (type base page : Nat) : Option (Option (List Byte)) :=
    let off := leAt offs (base + 16 * page) 8
    match sectionSize table type page off with
    | some n => (rd off n).map some
    | none => some none
  (rd (leAt d 8 8) (leAt d 4 2 * 128)).bind (fun graph =>
  (rd (leAt d 16 8) (leAt d 2 2 * 32)).bind (fun strm =>
  (rd (leAt d 24 8) (leAt d 6 2 * 16)).bind (fun seeds =>
  ((List.range P).mapM (part 2 0)).bind (fun cfgs =>
  ((List.range P).mapM (part 1 8)).map (fun seqs =>
  { pages := P, tasks := (chunks 128 (leAt d 4 2) graph).map (fun b => BitVec.ofNat 1024 (leNat b)),
    strms := chunks 32 (leAt d 2 2) strm,
    seeds := (chunks 16 (leAt d 6 2) seeds).map readSeed,
    cfg := cfgs.map (fun c => c.map (fun b => (chunks 4 (b.length / 4) b).map (fun w => BitVec.ofNat 32 (leNat w)))),
    seq := seqs.map (fun c => (c.getD []).take 0x10000), symbols := sym })))))))))

/-- The symbols of a kind (R130): the kinds are numbered from 0 in the order that the manual lists them. DESIGN CHOICE, log entry 15. -/
def symbolsOf (sym : List Byte) (kind : Nat) : List (List Byte) :=
  (chunks 24 (sym.length / 24) sym).filter (fun e => leAt e 6 1 = kind)
/-- Kind number of a barrier symbol. -/
def barrierKind : Nat := 2
/-- Kind number of an event symbol. -/
def eventKind : Nat := 3
/-- Kind number of a timeline symbol. -/
def timelineKind : Nat := 4

/-! ### Streams of a launch (R287, R288, R293) -/

/-- The stream of a record, all marks at start. -/
def parseStrm (r : List Byte) : Nat × Stream :=
  let b := leAt r 3 1
  let start := leAt r 16 6
  let lfr := leAt r 2 1
  (leAt r 0 2, { lfr := lfr, spill := b / 32 % 2 = 1, scope := b / 4 % 8, tier := b % 4, frames := leAt r 4 4, limit := leAt r 8 4,
                 delay := leAt r 12 4, hwm := start, rsv := start,
                 readers := ((List.range 8).filter (fun k => (leAt r 22 1).testBit k)).map
                   (fun k => (k, { live := true, cursor := start, release := start })),
                 extent := leAt r 4 4 * 2 ^ lfr, resvs := [], backing := [], base := [], clock := [], furthest := start, refused := 0, queue := none })

/-- Bytes of the primary frames of a stream. -/
def Stream.primary (st : Stream) : Nat := st.frames * st.frame

/-- Does a record pass the checks of R287 that it can fail alone? -/
def strmOk (s : State) (home : Nat) (r : List Byte) : Bool :=
  let st := (parseStrm r).2
  leAt r 0 2 < 2 ^ 15 && leAt r 3 1 < 64 && 6 ≤ st.lfr && st.lfr ≤ 26 && st.scope != 7 && 1 ≤ st.frames && st.frames ≤ 65536 &&
  st.primary ≤ 2 ^ 40 && st.frames ≤ st.limit && st.limit * st.frame ≤ 2 ^ 40 && 1 ≤ st.delay && leAt r 23 9 = 0 &&
  (s.hasLpddr home || !(st.spill || st.tier = 1))

/-- Bytes that streams of a tier take from its pool. -/
def tierBytes (sts : List Stream) (tier : Nat) : Nat :=
  (sts.filter (fun x => x.tier = tier)).foldl (fun n x => n + x.primary) 0

/-- Do the pools hold the frames of tiers 0b10 and 0b11 (R287, R293)? -/
def poolsOk (s : State) (home : Nat) (sts : List Stream) : Bool :=
  let D := s.die home
  let a := tierBytes sts 2
  let b := tierBytes sts 3
  (a = 0 || D.rfTaken + a ≤ D.rfsize) && (b = 0 || D.hfTaken + b ≤ D.hfsize)

/-- Key of the first byte of the pool of a tier, and its size (R293). -/
def poolOf (D : Die) (tier : Nat) : Nat × Nat :=
  if tier = 2 then (remoteKey (D.rfbase / 2 ^ 48 % 1024) ((D.rfbase / 2 ^ 37) % 2 = 1) (D.rfbase % 2 ^ 37), D.rfsize)
  else (hostKey D.hfbase, D.hfsize)

/-- The ranges of a pool that streams hold: first key and bytes. -/
def poolHeld (s : State) (home tier : Nat) : List (Nat × Nat) :=
  s.launches.flatMap (fun q => if q.2.home = home then
    q.2.streams.flatMap (fun x => if x.2.tier = tier then x.2.base.map (fun b => (b.1, b.2 * x.2.frame)) else []) else [])

/-- Put a range into a list of them by its first key. -/
def rangeInto (x : Nat × Nat) : List (Nat × Nat) → List (Nat × Nat)
  | [] => [x]
  | y :: r => if x.1 < y.1 then x :: y :: r else y :: rangeInto x r

/-- What ranges held in rising order leave free between two keys. -/
def poolGaps (hi : Nat) : Nat → List (Nat × Nat) → List (Nat × Nat)
  | lo, [] => [(lo, hi - lo)]
  | lo, h :: r => (lo, h.1 - lo) :: poolGaps hi (max lo (h.1 + h.2)) r

/-- The lowest n frames in some gaps: ranges of whole frames. -/
def takeFrames (frame : Nat) : Nat → List (Nat × Nat) → List (Nat × Nat)
  | _, [] => []
  | n, g :: r => let k := min n (g.2 / frame); (if k = 0 then [] else [(g.1, k)]) ++ takeFrames frame (n - k) r

/-- The lowest free frames of a pool for a stream. -/
def poolSpot (pool : Nat × Nat) (held : List (Nat × Nat)) (st : Stream) : List (Nat × Nat) :=
  takeFrames st.frame st.frames (poolGaps (pool.1 + pool.2) pool.1 (held.foldl (fun l x => rangeInto x l) []))

/-- Give each stream of tier 0b10 or 0b11 its frames in the pool of the home die (R293). DESIGN CHOICE, log entry 85. -/
def givePools (s : State) (home : Nat) : List (Nat × Nat) → List (Nat × Nat) → List (Nat × Stream) → List (Nat × Stream)
  | _, _, [] => []
  | held2, held3, x :: rest =>
    if x.2.tier < 2 then x :: givePools s home held2 held3 rest
    else
      let spot := poolSpot (poolOf (s.die home) x.2.tier) (if x.2.tier = 2 then held2 else held3) x.2
      let more := spot.map (fun b => (b.1, b.2 * x.2.frame))
      (x.1, { x.2 with base := spot }) ::
        givePools s home (if x.2.tier = 2 then held2 ++ more else held2) (if x.2.tier = 3 then held3 ++ more else held3) rest

/-- Do the stream records of an image pass R287? -/
def strmsOk (s : State) (home : Nat) (rs : List (List Byte)) : Bool :=
  rs.all (strmOk s home) && (rs.map (fun r => (parseStrm r).1)).eraseDups.length = rs.length &&
  poolsOk s home (rs.map (fun r => (parseStrm r).2))

/-! ### Freeing units (R28, R49, R304) -/

/-- A tile as it is cleared (R28, R135): only the translation registers that system software wrote stay. DEDUCED, log entry 40.
DEDUCED, log entry 48. -/
def clearTile (T : Tile) : Tile :=
  { Tile.reset with ctxs := T.ctxs.map (fun p => (p.1, { Ctx.reset with tbase := p.2.tbase, pasid := p.2.pasid })) }
/-- A cluster as it is cleared (R247, R248): the retry registers, cached translations and the router's state stay. -/
def clearCluster (K : Cluster) : Cluster :=
  { Cluster.reset with rtmo := K.rtmo, rmax := K.rmax, rint := K.rint, tlb := K.tlb, routerDown := K.routerDown,
                       routerSince := K.routerSince }

/-- The queue indices of a launch are unbound (R304). -/
def unbindAll (D : Die) (l : Nat) : Die :=
  { D with queues := D.queues.map (fun q => (q.1, if q.2.bound.any (fun b => b.1 = l) then q.2.unbind else q.2)) }

/-- The clusters of a consist and their tiles are cleared and free. -/
def freeClusters (s : State) (cs : List Nat) : State :=
  cs.foldl (fun s k =>
    (List.range 4).foldl (fun s j => s.modTile (k * 4 + j) clearTile) (s.modCluster k clearCluster)) s

/-- Zero the listed bytes of the frames of a launch's streams, and of its saved scratchpads: the next holder of the frames sees
nothing of them (R28). -/
def clearFrames (m : Memory) (l : Nat) (sts : Tbl Stream) : List (Nat × Byte) :=
  let pooled (k : Nat) : Bool := sts.any (fun x => x.2.base.any (fun b => b.1 ≤ k && k < b.1 + b.2 * x.2.frame))
  (m.filter (fun c => (keyKind c.1 = 6 && keyIndex c.1 / 2 ^ 15 = l) || (keyKind c.1 = 7 && keyIndex c.1 / 16 = l) || pooled c.1)).map
    (fun c => (c.1, (0 : Byte)))

/-- Zero the scratchpads of clusters: a launch never sees values left by another (R28). DEDUCED, log entry 49. -/
def clearSpads (m : Memory) (cs : List Nat) : List (Nat × Byte) :=
  (m.filter (fun c => keyKind c.1 = 1 && cs.contains (keyIndex c.1))).map (fun c => (c.1, (0 : Byte)))

/-- The result of a control operation, busy back at 0. -/
def setResult (s : State) (die r : Nat) : State := s.modDie die (fun D => { D with busy := false, result := r })

/-- The die whose register controls a page of a launch: the one that holds it, the home die while it is read out. DEDUCED, log entry 55. -/
def controlDie (L : Launch) (page : Nat) : Nat := match L.place[page]? with | some t => dieOf t | none => L.home

/-- A launch ends before its preempt has read it out: the operation reports a wrong state. DESIGN CHOICE, log entry 101. -/
def dropPreempt (s : State) (L : Launch) : State :=
  if L.saved.isEmpty || L.phase = .readOut then s else setResult s (controlDie L 0) 3

/-- End a launch: clusters, queues, frames and pool bytes come back; the generation of its index advances (R28, R49). -/
def freeLaunch (s : State) (l : Nat) : State × List (Nat × Byte) :=
  match s.launch l with
  | none => (s, [])
  | some L =>
    let s1 := freeClusters (dropPreempt s L) L.consist
    let s2 := s1.modDie L.home (fun D =>
      { unbindAll D l with
        rfTaken := D.rfTaken - tierBytes (L.streams.map (·.2)) 2, hfTaken := D.hfTaken - tierBytes (L.streams.map (·.2)) 3,
        framesUsed := D.framesUsed.filter (fun f => !(L.saved.any (fun x => x.frame = f))) })
    ({ s2 with launches := s2.launches.del l }.modPkg (fun p => { p with gens := p.gens.put l (L.ctxid.toNat / 2 ^ 14 + 1) }),
      clearFrames s.mem l L.streams ++ clearSpads s.mem L.consist)

/-! ### Placement (R260) -/

/-- Is a cluster free? -/
def clusterFree (s : State) (k : Nat) : Bool := (s.cluster k).launch.isNone && s.clusterEnabled k
/-- Free clusters of a die, ascending. -/
def freeOf (s : State) (die : Nat) : List Nat := ((List.range 40).map (die * 40 + ·)).filter (clusterFree s)
/-- The clusters for k cluster places: of the lowest sector that has k, else the lowest of the die (R260). -/
def chooseClusters (s : State) (die k : Nat) : Option (List Nat) :=
  let inSector (q : Nat) : List Nat := (freeOf s die).filter (fun c => c % 40 / 10 = q)
  match ((List.range 4).map inSector).find? (fun l => l.length ≥ k) with
  | some l => some (l.take k)
  | none => if (freeOf s die).length ≥ k then some ((freeOf s die).take k) else none

/-- Is an item tagged with a context index outstanding (R49): a page request, a request between dies, a cached translation? -/
def outstanding (s : State) (idx : Nat) : Bool :=
  let hit (x : List Xlat) : Bool := x.any (fun e => ctxIndex e.ctxid = idx)
  s.dies.any (fun d => d.2.pri.any (fun q => ctxIndex q.1 = idx)) || !s.pkg.reqs.isEmpty ||
  s.clusters.any (fun k => hit k.2.tlb) || s.tiles.any (fun t => hit t.2.tlb || t.2.ports.any (fun p => hit p.2.tlb))

/-- May a context index be assigned (R49): not live, and not about to wrap its generation over outstanding items? -/
def indexUsable (s : State) (idx : Nat) : Bool :=
  (s.launch idx).isNone && (s.pkg.gens.get 0 idx < 1024 || !outstanding s idx)
/-- The index assigned: the lowest usable one from 1 on, 0 last. DESIGN CHOICE, log entry 18. -/
def newIndex (s : State) : Option Nat :=
  (firstIdx (2 ^ 14) (fun i => indexUsable s ((i + 1) % 2 ^ 14))).map (fun i => (i + 1) % 2 ^ 14)

/-- The private memory of a placed page (R135): zero outside the page's sequencer code. -/
def loadPrivate (m : Memory) (t : Nat) (code : List Byte) : List (Nat × Byte) :=
  (m.filter (fun c => privKey t 0 ≤ c.1 && c.1 < privKey t 0 + 0x10000)).map (fun c => (c.1, (0 : Byte))) ++ putBytes (privKey t 0) code

/-- Initial barriers of a page (R127): each barrier symbol of the image declares one, of an arrival target from 1 to 2^30 - 1; a barrier
that no symbol declares is disabled. The manual gives no place of page, number and target (log entry 15). -/
def initBars (sym : List Byte) (page : Nat) : Tbl Bar :=
  (symbolsOf sym barrierKind).foldl (fun (m : Tbl Bar) e =>
    let d := Config.barrierOf e
    if d.1 = page then m.put (d.2.1 % 1024) { Bar.reset with target := 1 + d.2.2 % (2 ^ 30 - 1) } else m) []

/-- A page is placed on a tile (R26 step 2, R135). -/
def placePage (T : Tile) (l page : Nat) (ctxid : BitVec 24) (bars : Tbl Bar) : Tile :=
  let C := clearTile T
  { C with launch := some l, page := page, bars := bars,
           ctxs := (List.range 8).map (fun c => (c, { C.ctxs.get Ctx.reset c with ctxid := ctxid })) }

/-- A cluster joins a consist (R246 to R248, R260): its events, timelines and task entries. A declared timeline is one of tl0 to tl47, those of the
chains being 0 at placement. DESIGN CHOICE, log entry 15. -/
def placeCluster (K : Cluster) (l pos : Nat) (sym : List Byte) (tasks : Tbl Task) : Cluster :=
  let e := (symbolsOf sym eventKind).foldl (fun (m : Tbl Bool) x => let d := Config.eventOf x pos; m.put (d.1 % 256) d.2) []
  let t := (symbolsOf sym timelineKind).foldl (fun (m : Tbl Word) x => let d := Config.timelineOf x pos; m.put (d.1 % 48) d.2) []
  { clearCluster K with launch := some l, pos := pos, events := e, tl := t, tasks := tasks }

/-- The record of a rejected configuration (R126, R194, R283): the command index, the place and the failing check. -/
def cfgRec (s : State) (L : Launch) (page slot : Nat) (index check : Nat) : Rec :=
  let t := (L.place[page]?).getD (L.home * 160)
  { amber := true, source := 7, voided := false, cause := 0x12, ctxid := L.ctxid.toNat, die := dieOf t, cluster := clusterOf t % 40,
    tile := t % 4, page := page, ctx := 0, slot := slot, port := 0, value := BitVec.ofNat 64 index, cycle := s.now - (s.die (dieOf t)).cycleBase,
    info := [Config.checkCode check], seq := 0 }

/-- A configuration fails before its launch runs (R126, R262): the pages are cleared and the clusters released. -/
def rejectLaunch (s : State) (l status : Nat) : State × List (Nat × Byte) :=
  match s.launch l with
  | none => (s, [])
  | some L =>
    let r := launchReport s L status
    let f := freeLaunch r.1 l
    (f.1, r.2 ++ f.2)

/-- Contexts of a launch on a cluster that hold mma or accrd nodes, in order of tile and context (R265). -/
def matrixContexts (s : State) (k : Nat) : List (Nat × Nat) :=
  (List.range 4).flatMap (fun j => (List.range 8).filterMap (fun c =>
    if ((s.tile (k * 4 + j)).ctx c).block.slots.any (fun w => slotOp w.2 = 0x89 || slotOp w.2 = 0x8A) then some (j, c) else none))

/-- The mode of a cluster's matrix engine at placement (R265). -/
def matrixMode (s : State) (k : Nat) (wantsSlot : Bool) : Matrix :=
  let cs := matrixContexts s k
  let m := (s.cluster k).mx
  if !wantsSlot && cs.length ≤ 4 then m
  else { m with slotMode := true, table := cs.map (fun p => BitVec.ofNat 32 (256 * 2 ^ 16 + p.1 * 2 ^ 14 + p.2 * 2 ^ 11)),
                entry := 0, left := if cs.isEmpty then 0 else 256, begun := true }

/-- The configuration-complete wave crosses the region (R26 step 4). -/
def wave (s : State) (l : Nat) : State :=
  match s.launch l with
  | none => s
  | some L =>
    (L.consist.foldl (fun s k => s.modCluster k (fun K => { K with mx := matrixMode s k L.wantsSlot })) s).modLaunch l
      (fun L => { L with phase := .waved })

/-- The next page from a page on that has a configuration stream. DEDUCED, log entry 52. -/
def nextStream (im : Image) (p : Nat) : Option (Nat × List (BitVec 32)) :=
  ((List.range im.pages).filter (fun q => p ≤ q)).findSome? (fun q => ((im.cfg[q]?).getD none).map (fun ws => (q, ws)))

/-- Load the port programs that the page set names, as if by sp.cfg (R26 step 3, R300): none where one breaks a rule of R300.
DESIGN CHOICE, log entry 80. -/
def loadPagePorts (s : State) (l : Nat) (L : Launch) (sym : List Byte) : Option State :=
  if sym.isEmpty then some s
  else (List.range L.pages).foldlM (fun s q => (List.range 4).foldlM (fun s p =>
    match Config.portProgram sym q p, L.place[q]? with
    | some img, some t =>
      if portOk s l ((img ++ List.replicate 64 0).take 64) then
        some (s.modTile t (fun T => T.modPort p (fun P => loadPort P (parsePort ((img ++ List.replicate 64 0).take 64)) false)))
      else none
    | _, _ => some s) s) s

/-- Does a launch stand between two streams of its configuration, because a preempt found it there (R29)? -/
def between (L : Launch) : Bool := L.phase = .configuring && L.cfg.words.isEmpty && !L.cfg.done && L.cfg.by_.isNone

/-- Begin the stream of the next page, or load the port programs and send the wave when every page has been configured (R26). A stream
without a command ends without configuration-complete and is rejected (R126). A launch that is to be read out stays between two pages, and
the remaining steps follow its restore (R29). -/
def configureFrom (s : State) (l page : Nat) : State × List (Nat × Byte) :=
  match s.launch l with
  | none => (s, [])
  | some L =>
    if !L.saved.isEmpty then (s.setLaunch l { L with phase := .configuring, cfg := { Cfg.reset with page := page } }, []) else
    match readImage s L.home L.packet L.source with
    | none => rejectLaunch s l 2
    | some im =>
      match nextStream im page with
      | some (q, []) => rejectLaunch (s.record (cfgRec s L q 0 0 7)) l 1
      | some (q, ws) => (s.setLaunch l { L with phase := .configuring, cfg := { Cfg.reset with page := q, words := ws } }, [])
      | none =>
        match loadPagePorts s l L im.symbols with
        | none => rejectLaunch (s.record (cfgRec s L 0 0 0 32)) l 1
        | some s1 => (wave (s1.setLaunch l { L with phase := .configuring, cfg := { Cfg.reset with done := true } }) l, [])

/-- The launch as it is placed. -/
def newLaunch (s : State) (die : Nat) (p : List Byte) (src : PacketSource) (im : Image) (idx : Nat) (cs : List Nat) : Launch :=
  let d := pktDensity p
  { ctxid := BitVec.ofNat 24 (s.pkg.gens.get 0 idx % 1024 * 2 ^ 14 + idx), home := die, phase := .placed, packet := p, source := src,
    density := d, pinned := pktOptions p % 2 = 1, wantsSlot := pktOptions p / 2 % 2 = 1, pages := im.pages, imageBase := pktImage p,
    imageSpace := pktSpace p, place := (List.range im.pages).map (fun q => cs.getD (q / d) 0 * 4 + q % d), consist := cs,
    cfg := Cfg.reset, seeds := im.seeds, streams := [], status := 6, dead := false, saved := [], savedClusters := [], resumeTo := .running, session := none,
    reds := [], progress := s.now, fired := false, base := s.cycle die }

/-- Task entries of a cluster (R248). -/
def tasksOf (L : Launch) (im : Image) (k : Nat) : Tbl Task :=
  (List.range im.tasks.length).filterMap (fun i =>
    let e := im.tasks.getD i 0
    if (L.place[entryPage e]?).any (fun t => clusterOf t = k) then some (i, Task.fresh e) else none)

/-- Is an entry of the image bad (R249)? -/
def imageTasksOk (L : Launch) (im : Image) : Bool :=
  im.tasks.all (fun e => !(badEntry e (entryPage e < L.pages)))

/-- Place the head of a die's queue on clusters (R26 steps 2 and 3, R260, R262). -/
def placeOn (s : State) (die : Nat) (p : List Byte) (src : PacketSource) (im : Image) (idx : Nat) (cs : List Nat) :
    State × List (Nat × Byte) :=
  let L := newLaunch s die p src im idx cs
  let s1 := (List.range cs.length).foldl (fun s i =>
    let k := cs.getD i 0
    (List.range 4).foldl (fun s j => s.modTile (k * 4 + j) clearTile)
      (s.modCluster k (fun K => placeCluster K idx i im.symbols (tasksOf L im k)))) s
  let s2 := (List.range im.pages).foldl (fun s q =>
    s.modTile (L.place.getD q 0) (fun T => placePage T idx q L.ctxid (initBars im.symbols q))) s1
  let code := (List.range im.pages).flatMap (fun q => loadPrivate s.mem (L.place.getD q 0) (im.seq.getD q []))
  let s3 := s2.setLaunch idx L
  let r := launchReport s3 L 0
  if !imageTasksOk L im || !strmsOk s die im.strms then
    let q := rejectLaunch (r.1.record (cfgRec s L 0 0 0 (if imageTasksOk L im then 20 else 21))) idx 1
    (q.1, code ++ r.2 ++ q.2)
  else
    let sts := givePools s die (poolHeld s die 2) (poolHeld s die 3) (im.strms.map parseStrm)
    let s4 := (r.1.setLaunch idx { L with streams := sts.foldl (fun (m : Tbl Stream) x => m.put x.1 x.2) [] }).modDie die (fun D =>
      { D with rfTaken := D.rfTaken + tierBytes (sts.map (·.2)) 2, hfTaken := D.hfTaken + tierBytes (sts.map (·.2)) 3 })
    let q := configureFrom s4 idx 0
    (q.1, code ++ r.2 ++ q.2)

/-- An image of which only the page count can be read. -/
def bareImage (pages : Nat) : Image := { pages := pages, tasks := [], strms := [], seeds := [], cfg := [], seq := [], symbols := [] }

/-- Place a launch whose image cannot be read beyond its page count: placed, then status 2 (R262). -/
def placeUnread (s : State) (die : Nat) (p : List Byte) (src : PacketSource) (pages idx : Nat) (cs : List Nat) :
    State × List (Nat × Byte) :=
  let L := newLaunch s die p src (bareImage pages) idx cs
  let r := launchReport (s.setLaunch idx L) L 0
  let q := rejectLaunch r.1 idx 2
  (q.1, r.2 ++ q.2)

/-- The allocator places the oldest queued launch of a die (R26, R260, R263), once firmware runs (R402). Without a readable page count
nothing can be placed, and status 2 stands alone. DESIGN CHOICE, log entry 82. -/
def execPlace (die : Nat) (s : State) : Host.Outcome State Fault Refusal :=
  perform s (within (die < dieCount) (
    match (if s.pkg.bootstat = 2 && !s.pkg.wiping then (s.die die).queue else []) with
    | [] => idle s
    | (p, src) :: rest =>
      let s0 := s.modDie die (fun D => { D with queue := rest })
      match imageHead s die p src with
      | none => let r := refuseReport s0 die p src 2 0; .go r.1 r.2
      | some hd =>
        let pages := leAt hd.2 0 2
        let k := ceilDiv pages (pktDensity p)
        if ((List.range 40).filter (fun c => s.clusterEnabled (die * 40 + c))).length < k then
          let r := refuseReport s0 die p src 3 pages; .go r.1 r.2
        else match chooseClusters s die k, newIndex s with
          | some cs, some idx =>
            let r := match readImage s die p src with
              | some im => placeOn s0 die p src im idx cs
              | none => placeUnread s0 die p src pages idx cs
            .go r.1 r.2
          | _, _ => idle s))

/-! ### Seeds (R27) -/

/-- What marks a seed token in a port: it is no element of the port's program. DESIGN CHOICE, log entry 47. -/
def seedMark : List Nat := [2 ^ 32]

/-- A seed token arrives at its port; one that names a port above 3, or a page that the launch does not have, is dropped. Its type is a type code
of R190 by which the value is widened to a scalar token. DESIGN CHOICE, log entry 82. -/
def injectSeed (s : State) (L : Launch) (x : Seed) : State :=
  match L.place[x.page]? with
  | some t =>
    if x.port < 4 then
      s.modTile t (fun T => T.modPort x.port (fun P =>
        { P with toks := P.toks ++ [dataTok .scalar (widen x.type x.value.toNat) seedMark] }))
    else s
  | none => s

/-- The seeds of a launch are injected in order and its task graph becomes live (R26 step 5, R27); not between a preempt and the restore
(R29). -/
def execSeedInject (launch : Nat) (s : State) : Host.Outcome State Fault Refusal :=
  perform s (within (launch < 2 ^ 14) (
    match s.launch launch with
    | none => idle s
    | some L =>
      when (L.phase = .waved && L.saved.isEmpty) s
        (.go ((L.seeds.foldl (fun s x => injectSeed s L x) s).modLaunch launch (fun L => { L with phase := .running, seeds := [] })) [])))

/-! ### The end of a launch (R26 step 7, R28, R256) -/

/-- Has a cluster a chain entry outstanding? -/
def chainsBusy (K : Cluster) : Bool := K.chains.any (fun c => c.2.waiting || !c.2.started.isEmpty)

/-- Has a port hotness counts that it still flushes as the launch ends (R58)? -/
def Port.unflushed (P : Port) : Bool := P.prog.isSome && (P.delivered != 0 || P.starved != 0)

/-- Have the stores, arrivals, engine commands, tasks and hotness counts of a launch ended? -/
def launchDrained (s : State) (L : Launch) : Bool :=
  L.consist.all (fun k =>
    !(chainsBusy (s.cluster k)) && !((s.cluster k).tasks.any (fun x => x.2.running)) &&
    (List.range 4).all (fun j =>
      let T := s.tile (k * 4 + j)
      T.drain.isEmpty && T.arrivals.isEmpty && T.seq.queue.isEmpty &&
      T.ports.all (fun p => p.2.committed.isEmpty && !p.2.unflushed) && !(s.pkg.reqs.any (fun r => r.tile = k * 4 + j))))

/-- A launch retires: tiles cleared and returned, report sent (R26, R28, R262). -/
def execRetire (launch : Nat) (s : State) : Host.Outcome State Fault Refusal :=
  perform s (within (launch < 2 ^ 14) (
    match s.launch launch with
    | none => idle s
    | some L =>
      when (L.phase = .ending && L.saved.isEmpty && launchDrained s L) s
        (let f := freeLaunch s launch
         let r := launchReport f.1 L L.status
         .go r.1 (f.2 ++ r.2))))

/-- Is the consist of a launch quiescent (R256)? -/
def isQuiescent (s : State) (L : Launch) : Bool :=
  L.consist.all (fun k =>
    !(chainsBusy (s.cluster k)) &&
    (s.cluster k).tasks.all (fun x => !x.2.running && !entryReady s k x.2) &&
    (List.range 4).all (fun j =>
      let T := s.tile (k * 4 + j)
      T.seq.phase = .idle && T.ctxs.all (fun c => c.2.run.isNone)))

/-- A quiescent launch begins to retire, with status 7 to report (R256, R262). -/
def execQuiescent (launch : Nat) (s : State) : Host.Outcome State Fault Refusal :=
  perform s (within (launch < 2 ^ 14) (
    match s.launch launch with
    | none => idle s
    | some L =>
      when (L.phase = .running && !L.dead && L.saved.isEmpty && isQuiescent s L) s
        (.go (s.modLaunch launch (fun L => { L with phase := .ending, status := 7 })) [])))

/-! ### Moves (R264) -/

/-- Copy the bytes of a region of one unit to another: those listed at the old place or the new. -/
def copyRegion (m : Memory) (src dst size : Nat) : List (Nat × Byte) :=
  (m.filter (fun c => dst ≤ c.1 && c.1 < dst + size)).map (fun c => (c.1, (0 : Byte))) ++
  (m.filter (fun c => src ≤ c.1 && c.1 < src + size)).map (fun c => (c.1 - src + dst, c.2))

/-- May a started command be saved as it stands (R273, R383)? One that waits without bound does not complete: for partners, for a
session, at a stream's marks, for a resume. -/
def Cmd.parked (x : Cmd) : Bool :=
  !x.blocked.isEmpty || (match x.stage with | .faulted _ _ _ | .partners | .session _ => true | _ => false)

/-- May a cluster be read out now (R273): every started command completed, every request answered, every committed store
performed, no k-step running (R330)? A load that has returned waits in its buffer; one that is blocked ahead of HWM is issued again after
restore. -/
def readoutReady (s : State) (k : Nat) : Bool :=
  (s.cluster k).chains.all (fun c => c.2.started.all Cmd.parked) && !((s.cluster k).mx.queue.any (fun q => q.started)) &&
  (List.range 4).all (fun j =>
    let T := s.tile (k * 4 + j)
    T.drain.isEmpty && T.arrivals.isEmpty && T.counts.isEmpty && T.seq.loads.isEmpty &&
    (match T.round with | some r => r.loads.all (fun l => l.blocked.isSome || l.whole) | none => true) &&
    T.ports.all (fun p => p.2.committed.isEmpty) && !(s.pkg.reqs.any (fun r => r.tile = k * 4 + j)))

/-- A key of the scratchpad of a cluster, or of the private memory of one of its tiles, as it stands on another cluster. -/
def moveKey (k target key : Nat) : Nat :=
  if keyKind key = 1 && keyIndex key = k then spadKey target (keyOff key)
  else if keyKind key = 0 && keyIndex key / 4 = k then privKey (target * 4 + keyIndex key % 4) (keyOff key)
  else key
/-- A piece on another cluster. -/
def Piece.moveTo (k target : Nat) (p : Piece) : Piece := { p with key := moveKey k target p.key }
/-- A held store on another cluster. -/
def Held.moveTo (k target : Nat) (h : Held) : Held := { h with pieces := h.pieces.map (Piece.moveTo k target) }
/-- A tile as it stands on another cluster: what it holds for the scratchpad and its private memory goes with it (R264, R275). -/
def Tile.moveTo (k target : Nat) (T : Tile) : Tile :=
  let q := T.seq
  { T with drain := T.drain.map (Held.moveTo k target),
           seq := { q with queue := q.queue.map (fun x => { x with piece := x.piece.moveTo k target }),
                           loads := q.loads.map (fun x => { x with pieces := x.pieces.map (Piece.moveTo k target) }) },
           round := T.round.map (fun r =>
             { r with stores := r.stores.map (Held.moveTo k target),
                      loads := r.loads.map (fun x => { x with pieces := x.pieces.map (Piece.moveTo k target) }) }) }

/-- Participants of a session and of reductions at a consist position, now on another cluster. -/
def rehome (L : Launch) (pos k : Nat) : Launch :=
  let move (m : Nat × Member) : Nat × Member :=
    (m.1, if m.1 % 16 = pos then { m.2 with tile := k * 4 + m.2.tile % 4 } else m.2)
  { L with session := L.session.map (fun S => { S with members := S.members.map move }),
           reds := L.reds.map (fun p => if p.pos = pos then { p with cluster := k } else p) }

/-- A saved or moved cluster on its new place: its SLOT walk restarts (R330); the new cluster keeps its own registers and caches. -/
def clusterFrom (K old : Cluster) : Cluster :=
  { old with rtmo := K.rtmo, rmax := K.rmax, rint := K.rint, tlb := K.tlb, routerDown := K.routerDown, routerSince := K.routerSince,
             mx := if old.mx.slotMode then old.mx.enter 0 else old.mx }

/-- The allocator moves a consist cluster under compaction (R264): all that it holds, to a free cluster of the same die or one
beside it, whose reads follow what the old die has seen (R75). During configuration the pages already written are completed first: a move falls between the streams of two pages (R29). DEDUCED, log entry 78. -/
def execMoveCluster (launch position target : Nat) (s : State) : Host.Outcome State Fault Refusal :=
  perform s (within (launch < 2 ^ 14 && position < 16 && target < clusterCount) (
    match s.launch launch with
    | none => idle s
    | some L =>
      match L.consist[position]? with
      | none => idle s
      | some k =>
        when ((s.die L.home).compaction && !L.pinned && !L.dead && L.saved.isEmpty && clusterFree s target && readoutReady s k &&
            ((L.phase = .configuring && L.cfg.index = 0) || L.phase = .waved || L.phase = .running) && L.cfg.by_.isNone &&
            (dieOfCluster k = dieOfCluster target || adjacentDies (dieOfCluster k) (dieOfCluster target))) s
          (let new := clusterFrom (s.cluster target) (s.cluster k)
           let s1 := ((mergeClock s (dieOfCluster target) (s.die (dieOfCluster k)).clock).setCluster target new).modCluster k clearCluster
           let s2 := (List.range 4).foldl (fun s j =>
             (s.setTile (target * 4 + j) ((s.tile (k * 4 + j)).moveTo k target)).modTile (k * 4 + j) clearTile) s1
           let L0 := rehome L position target
           let L1 : Launch :=
             { L0 with consist := L.consist.set position target,
                       place := L.place.map (fun t => if clusterOf t = k then target * 4 + t % 4 else t) }
           let ws := copyRegion s.mem (spadKey k 0) (spadKey target 0) (2 ^ 21) ++
             (List.range 4).flatMap (fun j => copyRegion s.mem (privKey (k * 4 + j) 0) (privKey (target * 4 + j) 0) 0x10000)
           let r := launchReport (s2.setLaunch launch L1) L1 5
           .go r.1 (ws ++ clearSpads s.mem [k] ++ r.2))))

end Sys2Proof.Machine
end

