-- ==== Sys2Proof/Machine/ConfigStream.lean ====
section
/-! DEFINITION. Configuration streams: commands (R123 to R126), the checks at configuration-complete (R16, R194, R201, R204, R206,
R319, R323), taking the staged contexts (R211), rejection (R126), and cfgs (R177). -/

namespace Sys2Proof.Machine

/-! ### Delivery -/

/-- Put the state of a launch's stream. -/
def State.setCfg (s : State) (l : Nat) (c : Cfg) : State := s.modLaunch l (fun L => { L with cfg := c })

/-- The tiles and contexts that a stream has selected. -/
def touchedOf (L : Launch) : List (Nat × Nat) :=
  L.cfg.touched.filterMap (fun q => (L.place[q / 8]?).map (fun t => (t, q % 8)))

/-- Has one of them a round in hand? A stream takes effect between two rounds (R177, R211). DEDUCED, log entry 43. -/
def touchedBusy (s : State) (L : Launch) : Bool := (touchedOf L).any (fun p => roundOf (s.tile p.1) p.2)

/-- A context that a rejected stream selected is cleared (R126, R177). -/
def clearBlock (c : Ctx) : Ctx := { c with block := Block.empty, staged := none, stall := [] }

/-- The whole stream is rejected at command index (R126, R177): before the launch runs, the launch ends with report status 1;
under cfgs the selected contexts are cleared. -/
def rejectStream (s : State) (l index page slot check : Nat) : Act :=
  match s.launch l with
  | none => idle s
  | some L =>
    when (!touchedBusy s L) s
      (let s1 := s.record (cfgRec s L page slot index check)
       match L.cfg.by_ with
       | some _ =>
         let s2 := (touchedOf L).foldl (fun s p => s.modTile p.1 (fun T => T.modCtx p.2 clearBlock)) s1
         .go (s2.setCfg l { L.cfg with rejected := true, words := [], index := index }) []
       | none => let r := rejectLaunch s1 l 1; .go r.1 r.2)

/-- What a command makes of the stream: a state, or the number of the rule it breaks. -/
abbrev CfgEffect := Launch → Cfg → Except Nat (State × Cfg)

/-- Is the stream of a launch in delivery? A page's stream that has not begun as a preempt falls is left for after the restore (R29). -/
def cfgLive (L : Launch) : Bool :=
  (L.phase = .configuring || L.cfg.by_.isSome) && !L.cfg.done && !L.cfg.rejected && !L.cfg.words.isEmpty &&
  (L.saved.isEmpty || L.cfg.index != 0)

/-- Is a command counted by a page header (R124)? -/
def countDown (C : Cfg) : Except Nat Cfg :=
  match C.header with
  | none => .ok C
  | some _ => if C.left = 0 then .error 4 else .ok { C with left := C.left - 1 }

/-- One command of the stream in focus: it leaves the stream, is summed (R124), and takes its effect or rejects the stream. A
stream that ends without configuration-complete is rejected at its end. -/
def cfgCommand (s : State) (word : Nat) (effect : CfgEffect) : Host.Outcome State Fault Refusal :=
  let l := s.focus.launch
  perform s (within (l < 2 ^ 14) (
    match s.launch l with
    | none => idle s
    | some L =>
      when (cfgLive L) s
        (let C := L.cfg
         let C1 := { C with words := C.words.tail, index := C.index + 1, sum := (C.sum + word) % 2 ^ 28 }
         match effect L C1 with
         | .error e => rejectStream s l C.index C.page 0 e
         | .ok (s1, C2) =>
           let s2 := s1.setCfg l C2
           if C2.words.isEmpty && C.fault.isNone then
             when (!touchedBusy s { L with cfg := C2 }) s (rejectStream s2 l C1.index C.page 0 7)
           else .go s2 [])))

/-- Note that a context of a page is selected. -/
def Cfg.touch (C : Cfg) (page ctx : Nat) : Cfg :=
  if C.touched.contains (page * 8 + ctx) then C else { C with touched := C.touched ++ [page * 8 + ctx] }

/-- Change the staging copy of a context (R211). -/
def stage (s : State) (L : Launch) (page ctx : Nat) (f : Block → Block) : State :=
  match L.place[page]? with
  | some t => s.modTile t (fun T => T.modCtx ctx (fun c => { c with staged := some (f (c.staged.getD c.block)) }))
  | none => s

/-- Put 16 bits at quarter q of a word. -/
def putQuarter (w : Word) (q : Nat) (v : BitVec 16) : Word :=
  let m : Word := (0xFFFF : Word) <<< (16 * q)
  (w &&& ~~~m) ||| (v.zeroExtend 64 <<< (16 * q))

/-- A write command's field of a block (R123, R205). -/
def Block.setField (b : Block) (element field : Nat) (v : BitVec 16) : Block :=
  if field < 8 then
    let slot := element + 64 * (field / 4)
    { b with slots := b.slots.put slot (putQuarter (b.slots.get 0 slot) (field % 4) v) }
  else if field < 11 then { b with fields := b.fields.put (element * 4 + (field - 8)) v }
  else b

/-- Has a write a nonzero reserved field (R205)? -/
def reservedField (field : Nat) (v : BitVec 16) : Bool :=
  (11 ≤ field && v != 0) || ((field = 8 || field = 9) && bits v 15 10 != 0) || (field = 10 && bits v 15 3 != 0)

/-- write (R123): a staged field of the selected context. -/
def execCfgWrite (page : BitVec 4) (element : BitVec 6) (field : BitVec 5) (value : BitVec 16) (s : State) :
    Host.Outcome State Fault Refusal :=
  let p := page.toNat
  cfgCommand s (p * 2 ^ 27 + element.toNat * 2 ^ 21 + field.toNat * 2 ^ 16 + value.toNat) (fun L C =>
    match C.selected with
    | none => .error 3
    | some c =>
      if !(C.headers.contains p) || p ≥ L.pages then .error 2
      else if reservedField field.toNat value then .error 1
      else (countDown C).map (fun C1 => (stage s L p c (fun b => b.setField element.toNat field.toNat value), C1.touch p c)))

/-- select context (R124). -/
def execCfgSelectContext (rsv : BitVec 25) (ctx : BitVec 3) (s : State) : Host.Outcome State Fault Refusal :=
  cfgCommand s (2 ^ 31 + rsv.toNat * 8 + ctx.toNat) (fun _ C =>
    if rsv != 0 then .error 1
    else (countDown C).map (fun C1 =>
      let C2 : Cfg := { C1 with selected := some ctx.toNat }
      (s, match C1.header with | some p => C2.touch p ctx.toNat | none => C2)))

/-- page header (R124). One that names a page beyond the launch's page count rejects the stream, also in an image's own stream, for
which R126 does not say it. DESIGN CHOICE, log entry 95. -/
def execCfgPageHeader (page : BitVec 4) (rsv : BitVec 8) (count : BitVec 16) (s : State) : Host.Outcome State Fault Refusal :=
  let p := page.toNat
  cfgCommand s (2 ^ 31 + 2 ^ 28 + p * 2 ^ 24 + rsv.toNat * 2 ^ 16 + count.toNat) (fun L C =>
    if rsv != 0 then .error 1
    else if p ≥ L.pages then .error 2
    else if C.header.isSome && C.left != 0 then .error 4
    else
      let C1 : Cfg := { C with header := some p, left := count.toNat, headers := if C.headers.contains p then C.headers else C.headers ++ [p] }
      .ok (s, match C.selected with | some c => C1.touch p c | none => C1))

/-- block header (R124, R125): a part for the selected page and context. One that stands before any page header has no page: the stream
is rejected. DESIGN CHOICE, log entry 95. -/
def execCfgBlockHeader (part : BitVec 4) (rsv : BitVec 8) (value : BitVec 16) (s : State) : Host.Outcome State Fault Refusal :=
  cfgCommand s (2 ^ 31 + 2 * 2 ^ 28 + part.toNat * 2 ^ 24 + rsv.toNat * 2 ^ 16 + value.toNat) (fun L C =>
    if rsv != 0 || part.toNat > 8 then .error 1
    else match C.selected, C.header with
      | none, _ => .error 3
      | _, none => .error 2
      | some c, some p => (countDown C).map (fun C1 =>
          (stage s L p c (fun b => { b with header := b.header.put part.toNat value }), C1.touch p c)))

/-- checksum (R124): the sum since the stream began or since the last checksum. -/
def execCfgChecksum (sum : BitVec 28) (s : State) : Host.Outcome State Fault Refusal :=
  cfgCommand s 0 (fun _ C => if C.sum != sum.toNat then .error 5 else .ok (s, { C with sum := 0 }))

/-! ### The checks of configuration-complete -/

/-- A word that breaks a rule: the number of the check and the slot. -/
abbrev Broken := Option (Nat × Nat)

/-- The first of a list of checks that fails. -/
def firstBroken (l : List Broken) : Broken := l.findSome? id

/-- A check of a slot. -/
def failIf (c : Bool) (check slot : Nat) : Broken := if c then some (check, slot) else none

/-- Does an output kind fit what a position takes (R191)? -/
def fits (o : OutKind) (k : Kind) : Bool := match o with | .any => true | .one x => x = k | .none => false

/-- The kind that a position of a slot word takes, none where the opcode does not use the position (R194). -/
def usedKind (w : Word) (pos : Nat) : Option Kind :=
  let op := slotOp w
  let f := slotFields w
  match pos with
  | 1 => kindL op f.imm.toNat
  | 2 => kindR op f.imm.toNat
  | _ => if f.pm = 0 && !selector op then none else some .bit

/-- Is a position of a slot filled by a gang's multicast (R319, R323)? -/
def castPosition (w : Word) (pos : Nat) : Bool :=
  let imm := (slotFields w).imm.toNat
  slotOp w = 0x89 && mmaMember imm && mmaCastPos imm = pos

/-- Index and position of an output of a slot word. -/
def aimOf (w : Word) (out : Nat) : Nat × Nat :=
  let f := slotFields w
  let tg := if out = 0 then f.t0.toNat else f.t1.toNat
  (tg % 256, tg / 256)

/-- What an output of a slot word sends. -/
def sentOf (w : Word) (out : Nat) : OutKind :=
  if out = 0 then kindOut0 (slotOp w) (slotFields w).imm.toNat else kindOut1 (slotOp w) (slotFields w).imm.toNat

/-- The slot of the block that an output names, its word and the position: none for a write slot, an exported target, no target. -/
def localAim (b : Block) (slot out : Nat) : Option (Word × Nat) :=
  let q := aimOf (b.word slot) out
  if q.2 = 0 || q.1 ≥ 128 || (exportOf b slot out).isSome then none else some (b.word q.1, q.2)

/-- A target at a position that the opcode of its slot does not use (R194). -/
def positionBroken (b : Block) (slot out : Nat) : Broken :=
  match localAim b slot out with
  | some (d, pos) => failIf (d != 0 && (usedKind d pos).isNone) 10 slot
  | none => none

/-- A target at a position of another kind than the output sends (R191, R194). -/
def kindBroken (b : Block) (slot out : Nat) : Broken :=
  let o := sentOf (b.word slot) out
  match localAim b slot out with
  | some (d, pos) => failIf (d != 0 && (match usedKind d pos with | some k => !fits o k | none => false)) 11 slot
  | none =>
    let q := aimOf (b.word slot) out
    failIf (q.2 != 0 && q.1 ≥ 128 && (exportOf b slot out).isNone && (q.2 != 1 || !fits o (if q.1 < 192 then .scalar else .vector))) 11 slot

/-- A target that names an empty slot (R194). -/
def emptyBroken (b : Block) (slot out : Nat) : Broken :=
  match localAim b slot out with | some (d, _) => failIf (d = 0) 9 slot | none => none

/-- A target at the position of a gang member that its multicast fills (R319). -/
def castBroken (b : Block) (slot out : Nat) : Broken :=
  match localAim b slot out with | some (d, pos) => failIf (castPosition d pos) 12 slot | none => none

/-- An export word that names its own page, a page that the launch does not have, or, of a target, an index above 127 (R201): judged
whether or not the output has a target. -/
def exportBroken (b : Block) (page pages slot out : Nat) : Broken :=
  let q := aimOf (b.word slot) out
  match exportOf b slot out with
  | some p => failIf (p ≥ pages || p = page || (q.2 != 0 && q.1 ≥ 128)) 8 slot
  | none => none

/-- What wsplit asks of its target (R238): a slot, not exported, that together with its successors exists and takes scalars there. -/
def splitBroken (b : Block) (slot : Nat) : Broken :=
  let w := b.word slot
  let q := aimOf w 0
  let n := (slotFields w).imm.toNat % 16
  failIf (slotOp w = 0x7C && (q.2 = 0 || q.1 + n > 128 || (exportOf b slot 0).isSome ||
    !((List.range n).all (fun j => b.word (q.1 + j) != 0 && usedKind (b.word (q.1 + j)) q.2 = some .scalar)))) 31 slot

/-- Is a register in the block's read masks (R125, R204)? -/
def inMask (b : Block) (vec : Bool) (k : Nat) : Bool := if vec then (b.part 4).testBit k else (b.part (k / 16)).testBit (k % 16)

/-- The registers that a slot reads (R204, R222, R234). -/
def readsOf (w : Word) : List (Bool × Nat) :=
  let op := slotOp w
  let imm := (slotFields w).imm.toNat
  if op = 3 || (0x74 ≤ op && op ≤ 0x77) then [(false, imm % 64)]
  else if op = 4 then [(true, imm % 16)]
  else if [0x33, 0x34, 0x43, 0x62, 0x63].contains op && imm / 2 ^ 24 % 8 = 1 then [(op = 0x43 || op = 0x63, imm % 64)]
  else []

/-- The number of a slot word's own failing check. -/
def SlotError.number : SlotError → Nat
  | .opcode => 22 | .emptyField => 23 | .mod => 24 | .rnd => 25 | .predicate => 26 | .targetIndex => 27 | .targetPosition => 28
  | .reserved => 29 | .operand => 30 | .scope => 33

/-- A check of both outputs. -/
def bothOut (f : Nat → Broken) : Broken := firstBroken [f 0, f 1]
/-- A check of a slot word by itself. -/
def ownBroken (slot : Nat) (e : Option SlotError) : Broken := e.map (fun x => (x.number, slot))

/-- The checks of one slot, in the order of R194, then those of R201, R204, R228, R238 and R319. An empty slot has its export words. -/
def slotBroken (b : Block) (page pages slot : Nat) : Broken :=
  let w := b.word slot
  let op := slotOp w
  let f := slotFields w
  if w = 0 then bothOut (exportBroken b page pages slot)
  else firstBroken [
    failIf (op = 0) 23 slot, ownBroken slot (slotHead op f),
    failIf (((opInfo op).any (·.vec) || (opStop op && f.imm.toNat.testBit 3)) && slot % 8 != 7) 13 slot,
    ownBroken slot ((slotTargets op f).filter (· == .targetIndex)),
    ownBroken slot ((slotTargets op f).filter (· == .targetPosition)), bothOut (positionBroken b slot),
    bothOut (kindBroken b slot), bothOut (emptyBroken b slot), ownBroken slot (slotTail op f),
    bothOut (castBroken b slot), bothOut (exportBroken b page pages slot),
    failIf ((readsOf w).any (fun r => !inMask b r.1 r.2)) 14 slot, splitBroken b slot]

/-- The register write slots of a kind that a block targets (R199). -/
def writeSlots (b : Block) (lo hi : Nat) : List Nat :=
  (b.slots.flatMap (fun p =>
    let f := slotFields p.2
    ((if (exportOf b p.1 0).isNone then [f.t0.toNat] else []) ++ (if (exportOf b p.1 1).isNone then [f.t1.toNat] else [])).filterMap
      (fun t => if t / 256 = 1 && lo ≤ t % 256 && t % 256 < hi then some (t % 256) else none))).eraseDups

/-- Slots of a block that satisfy p. -/
def countOps (b : Block) (p : Nat → Bool) : Nat := (b.slots.filter (fun w => p (slotOp w.2))).length

/-- The checks of a block (R16, R194, R201, R204, R206). A written context whose slots are all empty fails the one of R206 with its four
counts of zero. DESIGN CHOICE, log entry 95. -/
def blockBroken (b : Block) (page pages : Nat) : Broken :=
  match firstBroken ((List.range 128).map (slotBroken b page pages)) with
  | some x => some x
  | none => firstBroken [
      failIf (b.part 5 = 0 && b.part 6 = 0 && b.part 7 = 0 && b.part 8 = 0) 15 0,
      failIf (b.part 5 != (writeSlots b 128 192).length) 16 0,
      failIf (b.part 6 != (writeSlots b 192 208).length) 16 0,
      failIf (b.part 7 != countOps b opStoreKind) 16 0,
      failIf (b.part 8 != countOps b (· = 0x90)) 16 0]

/-- A context's block as it will stand once the stream takes effect. -/
def blockAfter (s : State) (L : Launch) (t c : Nat) : Block :=
  let x := (s.tile t).ctx c
  if (touchedOf L).contains (t, c) then x.staged.getD x.block else x.block

/-- The mma slots of a cluster as they will stand, with their words (R319). -/
def mmaNodes (s : State) (L : Launch) (k : Nat) : List (Nat × Nat) :=
  (List.range 4).flatMap (fun j => (List.range 8).flatMap (fun c =>
    (blockAfter s L (k * 4 + j) c).slots.filterMap (fun w =>
      if slotOp w.2 = 0x89 then some ((slotFields w.2).imm.toNat, (slotFields w.2).mod.toNat) else none)))

/-- The fields that every member of a gang shares beside them (R323): M, N, af, mod, bt. -/
def gangKey (n : Nat × Nat) : Nat := (n.1 / 2 ^ 16) % 8 + (n.1 / 2 ^ 21 % 64) * 8 + n.2 * 4096

/-- Does a gang node of a cluster keep the rules of R323: one node with its gang and split fields on each cluster of the gang, the first
the leader, all of one shape and one set of formats? -/
def gangOk (s : State) (L : Launch) (pos : Nat) (n : Nat × Nat) : Bool :=
  let g := mmaGang n.1
  let p := pos / g * g
  let nodes (q : Nat) : List (Nat × Nat) := match L.consist[q]? with
    | some k => (mmaNodes s L k).filter (fun m => gangFields m.1 = gangFields n.1)
    | none => []
  (mmaLeader n.1 = (pos = p)) && !(mmaMember n.1 && mmaGat n.1 && n.1 / 2 ^ 8 % 2 = 1) &&
  (List.range g).all (fun i => match nodes (p + i) with
    | [m] => mmaMember m.1 = (i != 0) && gangKey m = gangKey n
    | _ => false)

/-- The rules that concern a cluster or a gang (R319, R323); those of gangs only once every page has its blocks. -/
def clusterBroken (s : State) (L : Launch) (whole : Bool) : Broken :=
  firstBroken ((List.range L.consist.length).map (fun pos =>
    let nodes := mmaNodes s L (L.consist.getD pos 0)
    firstBroken [failIf (nodes.length > 16) 17 0,
      failIf (whole && nodes.any (fun n => n.1 / 2 ^ 9 % 4 != 0 && !gangOk s L pos n)) 18 0]))

/-- The checks of an exported target against the slot it names on the other page (R191, R194, R201, R319). -/
def awayBroken (b d : Block) (slot out : Nat) : Broken :=
  let q := aimOf (b.word slot) out
  let x := d.word q.1
  if b.word slot = 0 || q.2 = 0 || (exportOf b slot out).isNone then none
  else firstBroken [failIf (x != 0 && (usedKind x q.2).isNone) 10 slot,
    failIf (x != 0 && (match usedKind x q.2 with | some k => !fits (sentOf (b.word slot) out) k | none => false)) 11 slot,
    failIf (x = 0) 9 slot, failIf (castPosition x q.2) 12 slot]

/-- The contexts that a stream wrote, with their pages (R211). -/
def writtenOf (s : State) (L : Launch) : List (Nat × Nat × Nat) :=
  L.cfg.touched.filterMap (fun q => (L.place[q / 8]?).bind (fun t =>
    if ((s.tile t).ctx (q % 8)).staged.isSome then some (q / 8, t, q % 8) else none))

/-- The contexts whose exported targets are judged: those that a cfgs wrote (R194); before the launch runs, every one, as the streams of its pages
have written them all. -/
def exportersOf (s : State) (L : Launch) : List (Nat × Nat × Nat) :=
  if L.cfg.by_.isSome then writtenOf s L
  else (List.range L.pages).flatMap (fun p => (L.place[p]?).toList.flatMap (fun t => (List.range 8).map (fun c => (p, t, c))))

/-- The first exported target of a launch that fails, once every page has its blocks: page, check, slot. -/
def acrossBroken (s : State) (L : Launch) : Option (Nat × Nat × Nat) :=
  (exportersOf s L).findSome? (fun x =>
    let b := blockAfter s L x.2.1 x.2.2
    b.slots.findSome? (fun w => [0, 1].findSome? (fun out =>
      (exportOf b w.1 out).bind (fun q => (L.place[q]?).bind (fun d =>
        (awayBroken b (blockAfter s L d x.2.2) w.1 out).map (fun y => (x.1, y)))))))

/-- The first check that fails at configuration-complete: page, check, slot. Of several slots the lowest of the context selected first is named, and
slot 0 by a check of a block or a cluster. DESIGN CHOICE, log entry 101. -/
def completeBroken (s : State) (L : Launch) (whole : Bool) : Option (Nat × Nat × Nat) :=
  match (writtenOf s L).findSome? (fun p =>
      (blockBroken (blockAfter s L p.2.1 p.2.2) p.1 L.pages).map (fun x => (p.1, x))) with
  | some x => some x
  | none => match (if whole then acrossBroken s L else none) with
    | some x => some x
    | none => (clusterBroken s L whole).map (fun x => (L.cfg.page, x))

/-- A context takes its staged contents as one unit; its stall counters are cleared (R30, R211). -/
def takeStaged (c : Ctx) : Ctx :=
  match c.staged with
  | some b => { c with block := b, staged := none, stall := [], gangs := 0 }
  | none => c

/-- configuration-complete (R126, R194, R211): every written context is checked, then takes its contents; before the launch runs
the next page's stream begins, or the wave crosses (R26); under cfgs the stream is done (R177). The contents of each page's .cfg are
a stream of their own, and the wave follows the last page's. DEDUCED, log entry 52. -/
def execConfigurationComplete (rsv : BitVec 28) (s : State) : Host.Outcome State Fault Refusal :=
  let l := s.focus.launch
  perform s (within (l < 2 ^ 14) (
    match s.launch l with
    | none => idle s
    | some L =>
      when (cfgLive L && !touchedBusy s L) s
        (let C := L.cfg
         let last := match C.by_ with
           | some _ => true
           | none => (match readImage s L.home L.packet L.source with | some im => (nextStream im (C.page + 1)).isNone | none => true)
         if rsv != 0 then rejectStream s l C.index C.page 0 1
         else if C.header.isSome && C.left != 0 then rejectStream s l C.index C.page 0 4
         else if !C.words.tail.isEmpty then rejectStream s l (C.index + 1) C.page 0 6
         else match completeBroken s L last with
           | some (p, check, slot) => rejectStream s l C.index p slot check
           | none =>
             let s1 := (writtenOf s L).foldl (fun s p => s.modTile p.2.1 (fun T => T.modCtx p.2.2 takeStaged)) s
             match C.by_ with
             | some _ => .go (s1.setCfg l { C with done := true, words := [], index := C.index + 1 }) []
             | none => let r := configureFrom s1 l (C.page + 1); .go r.1 r.2)))

/-- A word of the stream that is no command: a reserved op (R126). -/
def rejectWord (l : Nat) (s : State) : Act :=
  match s.launch l with
  | none => idle s
  | some L => when (cfgLive L) s (rejectStream s l L.cfg.index L.cfg.page 0 0)

/-! ### cfgs (R177) -/

/-- The pieces of the words of a stream in LV memory, up to a fault of reading one (R51, R177). -/
def readWords (s : State) (c : Ctx) (tlb : List Xlat) : Nat → Word → List (List Piece) × Option (Nat × Word × Option Nat)
  | 0, _ => ([], none)
  | n + 1, a =>
    match lvAccess s (clusterOf s.focus.tile) c tlb a 4 false with
    | .error f => ([], some (f.cause, f.addr, f.pri))
    | .ok (ps, _) =>
      let r := readWords s c tlb n (a + 4)
      (ps :: r.1, r.2)

/-- cfgs (R177): waits as drain does, delivers its stream, waits for its end; then goes on, or traps: configuration rejected, or
the fault of reading it. -/
def execCfgs (a b : Reg) (s : State) : Host.Outcome State Fault Refusal :=
  let t := s.focus.tile
  let T := s.tile t
  let l := focusLaunch s
  let n := (s.x b).toNat
  seqOp s [a, b] (
    if (s.x a).toNat % 4 != 0 then rangeTrap s (s.x a) (s.x a)
    else if n < 1 || n > 2 ^ 20 then rangeTrap s (s.x b) (s.x a)
    else match s.launch l with
      | none => idle s
      | some L =>
        match L.cfg.by_ with
        | none =>
          let r := readWords s T.selected T.tlb n (s.x a)
          let ps := r.1.flatten
          when (drained s t && T.seq.queue.isEmpty && L.phase = .running && ps.all (servable s (dieOf t))) s
            (.go ((mergeRead s (dieOf t) ps).setCfg l { Cfg.reset with
               words := r.1.map (fun w => BitVec.ofNat 32 (leNat (w.flatMap s.pieceBytes))), fault := r.2, by_ := some t }) [])
        | some t1 =>
          let clear := s.setCfg l Cfg.reset
          if t1 != t then idle s
          else if L.cfg.done then .go (next clear) []
          else if L.cfg.rejected then trapAct clear 0x12 (BitVec.ofNat 64 L.cfg.index) (s.x a)
          else match L.cfg.words, L.cfg.fault with
            | [], some f => accTrap clear { cause := f.1, addr := f.2.1, pri := f.2.2 } (s.x a)
            | _, _ => idle s)

end Sys2Proof.Machine
end

