-- ==== Sys2Proof/Machine/Frame.lean ====
section
/-! DEFINITION. The save frame of a page (R276 to R279): what a readout writes there, and the tile that a restore makes of it. -/

namespace Sys2Proof.Machine

/-! ### Parts of a frame (R277) -/

/-- Address of frame f of a die. -/
def frameAddr (D : Die) (f : Nat) : Nat := D.spbase + f * 0x1C000

/-- Does a context hold a block? -/
def ctxPresent (T : Tile) (c : Nat) : Bool := (T.ctx c).block.loaded
/-- Blocks of 64 barriers with any target. -/
def barBlocks (T : Tile) : List Nat := (List.range 16).filter (fun b => (List.range 64).any (fun i => (T.bar (64 * b + i)).target != 0))
/-- A number with the bits of a list. -/
def maskOf (l : List Nat) : Nat := l.foldl (fun n b => n ||| 2 ^ b) 0

/-! ### The dynamic list (R279) -/

/-- An entry of the dynamic list: its descriptor, the address of a held store or atomic, its payload as a number. -/
structure Dyn where
  kind : Nat
  index : Nat
  where_ : Nat
  level : Nat
  null : Bool
  vec : Bool
  sub : Nat
  extra : Nat
  addr : Option Word
  payload : Nat
deriving DecidableEq, Repr

/-- Its 8-byte descriptor. -/
def Dyn.word (e : Dyn) : Nat :=
  e.kind * 2 ^ 56 + e.index % 128 * 2 ^ 49 + e.where_ % 4 * 2 ^ 47 + e.level % 8 * 2 ^ 44 + e.null.toNat * 2 ^ 43 + e.vec.toNat * 2 ^ 42 +
    e.sub % 1024 * 2 ^ 32 + e.extra % 2 ^ 32
/-- Bytes of its payload. -/
def Dyn.width (e : Dyn) : Nat := if e.vec then 64 else 8
/-- Its bytes: descriptor, address, payload. -/
def Dyn.bytes (e : Dyn) : List Byte :=
  leBytes 8 e.word ++ (match e.addr with | some a => leBytes 8 a.toNat | none => []) ++ leBytes e.width e.payload
/-- Where its payload begins. -/
def Dyn.skip (e : Dyn) : Nat := if e.addr.isSome then 16 else 8
/-- Length of a list of entries. -/
def dynSize (l : List Dyn) : Nat := l.foldl (fun n e => n + e.skip + e.width) 0

/-- Size code of a number of bytes, as the element sizes of R300. DESIGN CHOICE, log entry 24. -/
def sizeCode (n : Nat) : Nat := if n = 1 then 0 else if n = 2 then 1 else if n = 4 then 2 else if n = 8 then 3 else 4

/-- The entry of a token. -/
def tokDyn (kind index where_ sub extra : Nat) (t : Tok) : Dyn :=
  { kind := kind, index := index, where_ := where_, level := t.level, null := t.null, vec := t.kind = .vector, sub := sub, extra := extra,
    addr := none, payload := t.bits.toNat }
/-- The entry of a token whose extra field the manual does not describe. -/
def plainDyn (kind index where_ sub : Nat) (t : Tok) : Dyn := tokDyn kind index where_ sub (Config.listExtra kind index sub).toNat t
/-- The entry of a number. -/
def numDyn (kind index sub extra : Nat) (null vec : Bool) (v : Nat) : Dyn :=
  { kind := kind, index := index, where_ := 0, level := 0, null := null, vec := vec, sub := sub, extra := extra, addr := none, payload := v }

/-- The entry of a held store or atomic: size code, mod, scope and operation in extra. -/
def heldDyn (c : Ctx) (h : Held) (i : Nat) : Dyn :=
  let f := slotFields (c.block.word h.slot)
  let amo : Nat := match h.amo with | some (_, scope) => scope * 2 ^ 8 + f.imm.toNat % 16 * 2 ^ 11 | none => 0
  { kind := 6, index := h.slot, where_ := 0, level := 0, null := false, vec := 8 < h.data.length, sub := i,
    extra := sizeCode h.data.length + f.mod.toNat * 2 ^ 4 + amo, addr := some h.addr, payload := leNat h.data }

/-- The entries of the state of a slot: running value, sgate's token, scount's n, with the null mark of what an rpt or wjoin has collected, tokens
collected; then, numbered after the items that R279
names, how far a pass has come: tokens sent, passes, the level of a terminator, whether it sends. The items are numbered in the order of R279;
the format of a running value is not given. DESIGN CHOICE, log entry 24. -/
def slotDyn (slot : Nat) (st : SlotSt) : List Dyn :=
  st.acc.zipIdx.map (fun x => numDyn 7 slot x.2 1 false true (Config.listValue x.1).toNat) ++
  (match st.held with | some t => [tokDyn 7 slot 0 0 2 t] | none => []) ++
  (if st.n = 0 && !st.nul then [] else [numDyn 7 slot 0 3 st.nul false st.n]) ++
  (st.toks ++ st.toksR ++ st.out).zipIdx.map (fun x => tokDyn 7 slot 0 x.2 4 x.1) ++
  (if st.sent = 0 then [] else [numDyn 7 slot 0 7 false false st.sent]) ++
  (if st.passes = 0 then [] else [numDyn 7 slot 0 8 false false st.passes]) ++
  (match st.term with | some k => [numDyn 7 slot 0 9 false false k] | none => []) ++
  (if st.active then [numDyn 7 slot 0 10 false false 1] else [])

/-- The entries of the held round. -/
def roundDyn (c : Ctx) (r : Round) : List Dyn :=
  r.latch.map (fun x => plainDyn 1 (x.1 / 4) (x.1 % 4) 0 x.2) ++
  r.transit.zipIdx.map (fun x => plainDyn 2 x.1.box x.1.tok.kind.net x.2 x.1.tok) ++
  r.gw.map (fun x => numDyn 5 x.1 0 0 x.2.isNone false (match x.2 with | some v => v.toNat | none => 0)) ++
  r.vw.map (fun x => numDyn 5 x.1 0 0 x.2.isNone true (match x.2 with | some v => v.toNat | none => 0)) ++
  r.stores.zipIdx.map (fun x => heldDyn c x.1 x.2) ++
  r.order.map (fun x => numDyn 7 x.1 0 0 (r.orderNul.contains x.1) false x.2) ++
  r.slotSt.flatMap (fun x => slotDyn x.1 x.2) ++
  r.loads.zipIdx.map (fun x => numDyn 7 x.1.slot x.2 5 false (8 < x.1.got.length) (leNat x.1.got)) ++
  r.fired.map (fun x => numDyn 7 x 0 6 false false 1)

/-- The tokens at the seam port of a tile (R202): those that wait, those that the held round has taken, those that it exports. -/
def seamToks (T : Tile) : List SeamTok :=
  T.seam ++ (match T.round with | some r => r.seamTaken ++ r.exports.map (·.tok) | none => [])

/-- The entries of a port: its tokens, its writes, the tokens that it recorded as the round began (R267). -/
def portDyn (p : Nat) (P : Port) : List Dyn :=
  P.toks.zipIdx.map (fun x => plainDyn 3 p 0 x.2 x.1) ++
  P.buf.zipIdx.map (fun x => numDyn 3 p (P.toks.length + x.2) 0 false (8 < x.1.data.length) (leNat x.1.data)) ++
  P.saved.toks.zipIdx.map (fun x => plainDyn 3 p 0 (P.toks.length + P.buf.length + x.2) x.1)

/-- The entries of a tile: the held round, the tokens and writes of its ports, the tokens at its seam port (R279). -/
def dynAll (T : Tile) : List Dyn :=
  (match T.round with | some r => roundDyn (T.ctx r.ctx) r | none => []) ++
  T.ports.flatMap (fun p => portDyn p.1 p.2) ++
  (seamToks T).zipIdx.map (fun x => plainDyn 4 x.1.index x.1.pos x.2 x.1.tok)

/-- The first entries of a list that fit in a number of bytes. -/
def fitting : Nat → List Dyn → List Dyn
  | _, [] => []
  | n, e :: r => if e.skip + e.width ≤ n then e :: fitting (n - (e.skip + e.width)) r else []

/-- The dynamic list of a tile: the entries that fit in the 0x3000 bytes of a frame; the manual does not say what becomes of others, which
stay as saved. DESIGN CHOICE, log entry 24. -/
def dynList (T : Tile) : List Dyn := fitting 0x3000 (dynAll T)

/-! ### What a readout writes (R277, R278) -/

/-- Bytes transferred (R277, R278). -/
def frameLength (T : Tile) : Nat :=
  0x1000 + 0xC00 * ((List.range 8).filter (ctxPresent T)).length + 0x200 * (barBlocks T).length + dynSize (dynList T) + 0x10000

/-- The sequencer's state as the header gives it. -/
def Phase.code : Phase → Nat | .idle => 0 | .running => 1 | .stopped => 2

/-- The 64-byte header (R278). -/
def frameHeader (T : Tile) (ctxid page cycle : Nat) : List Byte :=
  let held := match T.round with | some r => r.ctx + 2 ^ 7 | none => 0
  leBytes 2 1 ++ leBytes 2 0 ++ leBytes 4 (frameLength T) ++ leBytes 3 ctxid ++ leBytes 1 page ++
    leBytes 1 (maskOf ((List.range 8).filter (ctxPresent T))) ++ leBytes 1 held ++
    leBytes 1 (maskOf ((List.range 8).filter (fun c => (T.ctx c).stopped.isSome))) ++ leBytes 1 T.seq.phase.code ++
    leBytes 2 (maskOf (barBlocks T)) ++ leBytes 2 0 ++ leBytes 4 (dynSize (dynList T)) ++ leBytes 8 cycle ++ leBytes 32 0

/-- Eight-byte words from an offset of a frame on. -/
def frameWords (key off : Nat) (ws : List Word) : List (Nat × Byte) := putBytes (key + off) (ws.flatMap (fun w => leBytes 8 w.toNat))

/-- The sequencer's registers of a frame, from 0x40 on. -/
def seqWords (T : Tile) : List Word :=
  let q := T.seq
  [q.pcWord] ++ (List.range 31).map (fun i => q.x.get 0 (i + 1)) ++ [q.lk, BitVec.ofNat 64 q.ctxsel, (if q.mode then 1 else 0),
    BitVec.ofNat 64 (q.tvec.toNat * 4), BitVec.ofNat 64 (q.tepc.toNat * 4), q.tcause.zeroExtend 64, q.tval, q.tscratch, T.rseed]

/-- The registers of a context. -/
def ctxWords (c : Ctx) : List Word :=
  [c.ctxid.zeroExtend 64, c.fstat.zeroExtend 64, c.tbase, c.pasid.zeroExtend 64, c.hotbase, c.hotlen.zeroExtend 64,
   c.hotnext.zeroExtend 64, c.hotovr.zeroExtend 64]

/-- The word of a stall counter. -/
def stallWord (x : Nat × Nat) : Word := BitVec.ofNat 64 (x.1 % 4 * 2 ^ 32 + x.2 % 2 ^ 32)

/-- The stochastic state of a context now: that of the held round where it is the round's (R277). -/
def stoNow (T : Tile) (c : Nat) : Tbl Word :=
  match T.round with | some r => if r.ctx = c then r.sto else (T.ctx c).sto | none => (T.ctx c).sto

/-- The parts of a frame that stand only for a context holding a block. -/
def blockWrites (key : Nat) (T : Tile) (c : Nat) : List (Nat × Byte) :=
  let C := T.ctx c
  frameWords key (0x1000 + 0x400 * c) ((List.range 128).map C.block.word) ++
  (List.range 64).flatMap (fun e => putBytes (key + 0x3000 + 0x200 * c + 8 * e)
    ((List.range 3).flatMap (fun i => leBytes 2 (C.block.fields.get 0 (e * 4 + i)).toNat) ++ leBytes 2 0)) ++
  frameWords key (0x4000 + 0x400 * c) ((List.range 128).map (fun i => stallWord (C.stall.get (0, 0) i))) ++
  frameWords key (0x6000 + 0x200 * c) ((List.range 64).map (fun e => (stoNow T c).get 0 e))

/-- A number that may be absent. -/
def optNum (x : Option Nat) : Nat := match x with | some v => v + 1 | none => 0
/-- What such a number stands for. -/
def numOpt (n : Nat) : Option Nat := if n = 0 then none else some (n - 1)

/-- A port's program as its part of a frame tells it. -/
def progNums (P : Port) : List Nat :=
  match P.prog with
   | some g => [g.base.toNat, g.spad.toNat, g.write.toNat, g.ctx, g.slot, g.pos, g.esz, g.psz, g.nlev, g.stops.toNat, g.rdr, g.rel.toNat,
       g.pub.toNat, g.rlv] ++ g.n ++ g.s.map (·.toNat)
   | none => []

/-- What a port's part of a frame tells: its program, current and recorded positions with the stream cursors (R267), hotness and blocked-cycle
counters. -/
def portNums (P : Port) : List Nat :=
  progNums P ++ [P.c, P.issued, P.saved.c, P.saved.issued, P.delivered, P.starved, P.hwmblk, P.winblk, optNum P.read, P.cursor.toNat,
    optNum P.saved.read, optNum P.saved.mark]

/-- The 128 bytes of a port in a frame. -/
def portBytes (P : Port) : List Byte := (List.range 128).map (Config.portByte (portNums P))

/-- The address entry of a queued store: the size code in bits [6:0], bit 56 of the address in bit 7, its bits [55:0] above (R277). DESIGN CHOICE,
log entry 24. -/
def queueWord (a : Word) (n : Nat) : Word := BitVec.ofNat 64 (bits a 55 0 * 256 + bits a 56 56 * 128 + sizeCode n)
/-- The address that such an entry holds. -/
def queueAddr (w : Word) : Word := BitVec.ofNat 64 (bits w 63 8 + bits w 7 7 * 2 ^ 56)

/-- The store queue of a frame: for each entry, oldest first, the address entry, then the data (R277). -/
def queueWords (q : List SeqStore) : List Word :=
  (q.flatMap (fun e => [queueWord e.addr e.data.length, BitVec.ofNat 64 (leNat e.data)])) ++
    List.replicate (32 - 2 * q.length) 0

/-- The bytes written to the save frame of a page (R277). The layout of a port's part is not given: its bytes are a free function of what it
tells. -/
def frameWrites (m : Memory) (key t : Nat) (T : Tile) (ctxid page cycle : Nat) : List (Nat × Byte) :=
  let sto0 : Tbl Word := match T.round with | some r => r.stoStart | none => []
  putBytes key (frameHeader T ctxid page cycle) ++ frameWords key 0x40 (seqWords T) ++ frameWords key 0x200 (queueWords T.seq.queue) ++
  (List.range 8).flatMap (fun c => frameWords key (0x300 + 0x40 * c) (ctxWords (T.ctx c))) ++
  (List.range 8).flatMap (fun c => putBytes (key + 0x500 + 0x20 * c) ((List.range 16).flatMap (fun q => leBytes 2 ((T.ctx c).block.part q)))) ++
  (List.range 4).flatMap (fun p => putBytes (key + 0x600 + 0x80 * p) (portBytes (T.port p))) ++ frameWords key 0x800 ((List.range 64).map (fun k => T.g.get 0 k)) ++
  (List.range 16).flatMap (fun k => putBytes (key + 0xA00 + 64 * k) (leBytes 64 (T.v.get 0 k).toNat)) ++
  frameWords key 0xE00 ((List.range 64).map (fun e => sto0.get 0 e)) ++
  ((List.range 8).filter (ctxPresent T)).flatMap (blockWrites key T) ++
  (barBlocks T).flatMap (fun b => frameWords key (0x7000 + 0x200 * b) ((List.range 64).map (fun i => (T.bar (64 * b + i)).word))) ++
  putBytes (key + 0x9000) ((dynList T).flatMap Dyn.bytes) ++ putBytes (key + 0xC000) (m.bytes (privKey t 0) 0x10000)

/-! ### What a restore reads (R275) -/

/-- Word i of a frame part. -/
def frameWord (m : Memory) (key off : Nat) : Word := BitVec.ofNat 64 (m.nat (key + off) 8)

/-- The phase that a header gives. -/
def phaseOf (n : Nat) : Phase := match n with | 0 => .idle | 1 => .running | _ => .stopped

/-- Bytes of a size code. -/
def sizeOf (code : Nat) : Nat := match code with | 0 => 1 | 1 => 2 | 2 => 4 | 3 => 8 | _ => 64

/-- Where a store goes whose address or size the frame gives: translated anew in a context, on a cluster, where they are not as saved (R53);
as saved where no translation lets it go. -/
def piecesFrom (s : State) (k : Nat) (c : Ctx) (old : List Piece) (a : Word) (n : Nat) (same : Bool) : List Piece :=
  let spad : Option Nat := old.head?.bind (fun (p : Piece) => if keyKind p.key = 1 then some (keyIndex p.key) else none)
  if same then old
  else if bit a 63 then []
  else match (match spad with | some i => spadAccess i (a.toNat % 2 ^ 21) n | none => (lvAccess s k c [] a n true).map (fun (x : List Piece × List Used) => x.1)) with
    | .ok ps => ps
    | .error _ => old

/-- The sequencer from a frame. How many stores are queued, and the count of accesses, come from the saved image. -/
def seqFrom (s : State) (k key : Nat) (c : Ctx) (q : Seq) : Seq :=
  let m := s.mem
  let w (i : Nat) : Word := frameWord m key (0x40 + 8 * i)
  let store (e : SeqStore) (i : Nat) : SeqStore :=
    let x := frameWord m key (0x200 + 16 * i)
    let n := sizeOf (bits x 6 0)
    let same := x = queueWord e.addr e.data.length
    let a := if same then e.addr else queueAddr x
    { e with addr := a, data := m.bytes (key + 0x208 + 16 * i) (if same then e.data.length else min 8 n),
             piece := (piecesFrom s k c [e.piece] a (min 8 n) same).headD e.piece }
  { q with queue := q.queue.zipIdx.map (fun x => store x.1 x.2), phase := phaseOf (m.nat (key + 15) 1), pc := (w 0).extractLsb' 2 14,
           x := (List.range 31).map (fun i => (i + 1, w (i + 1))), lk := w 32, ctxsel := (w 33).toNat % 8, mode := (w 34).getLsbD 0,
           tvec := (w 35).extractLsb' 2 14, tepc := (w 36).extractLsb' 2 14, tcause := (w 37).truncate 32 &&& 0xC000FFFF, tval := w 38,
           tscratch := w 39 }

/-- The slot words, fields and header of a context from a frame, and its stall counters and stochastic state. -/
def blockFrom (m : Memory) (key c : Nat) : Block :=
  let half (off : Nat) : BitVec 16 := BitVec.ofNat 16 (m.nat (key + off) 2)
  { slots := (List.range 128).filterMap (fun i =>
      let w := frameWord m key (0x1000 + 0x400 * c + 8 * i)
      if w = 0 then none else some (i, w)),
    fields := (List.range 64).flatMap (fun e => (List.range 3).filterMap (fun i =>
      let v := half (0x3000 + 0x200 * c + 8 * e + 2 * i)
      if v = 0 then none else some (e * 4 + i, v))),
    header := (List.range 9).map (fun q => (q, half (0x500 + 0x20 * c + 2 * q))) }

/-- The stochastic state of a context after its last committed round: of the context of a held round, the state at the round's start. -/
def stoFrom (m : Memory) (key : Nat) (T : Tile) (c : Nat) : Tbl Word :=
  let held : Bool := match T.round with | some r => r.ctx = c | none => false
  (List.range 64).map (fun e => (e, frameWord m key ((if held = true then 0xE00 else 0x6000 + 0x200 * c) + 8 * e)))

/-- A context from a frame. -/
def ctxFrom (m : Memory) (key : Nat) (T : Tile) (c : Nat) : Ctx :=
  let w (i : Nat) : Word := frameWord m key (0x300 + 0x40 * c + 8 * i)
  let C := T.ctx c
  let C1 : Ctx :=
    { C with ctxid := (w 0).truncate 24, fstat := (w 1).truncate 6, tbase := w 2 &&& 0x0000FFFFFFFF0000, pasid := (w 3).truncate 20,
             hotbase := w 4 &&& 0x01FFFFFFFFFFFFF0, hotlen := (w 5).truncate 32, hotnext := (w 6).truncate 32, hotovr := (w 7).truncate 32 }
  let C2 : Ctx := { C1 with stopped := if (m.nat (key + 14) 1).testBit c then some (C.stopped.getD (.cause 0 [])) else none }
  if (m.nat (key + 12) 1).testBit c then
    { C2 with block := blockFrom m key c,
              stall := (List.range 128).filterMap (fun i =>
                let x := frameWord m key (0x4000 + 0x400 * c + 8 * i)
                if x = 0 then none else some (i, (bits x 33 32, bits x 31 0))),
              sto := stoFrom m key T c }
  else { C2 with block := Block.empty, stall := [], sto := [] }

/-- A barrier from its word (R169). -/
def barFrom (w : Word) : Bar := { phase := bit w 63, bytes := bit w 62, count := bits w 59 30, target := bits w 29 0, flipped := none }

/-- The entry that stands at a place of a frame's list. -/
def dynAt (m : Memory) (key : Nat) : Dyn :=
  let w : Word := BitVec.ofNat 64 (m.nat key 8)
  let held : Bool := bits w 63 56 = 6
  { kind := bits w 63 56, index := bits w 55 49, where_ := bits w 48 47, level := bits w 46 44, null := bit w 43, vec := bit w 42, sub := bits w 41 32,
    extra := bits w 31 0, addr := if held then some (BitVec.ofNat 64 (m.nat (key + 8) 8)) else none,
    payload := m.nat (key + (if held then 16 else 8)) (if bit w 42 then 64 else 8) }

/-- The entries of the bytes left of a frame's list, at most as many as given. -/
def readDyn (m : Memory) : Nat → Nat → Nat → List Dyn
  | 0, _, _ => []
  | i + 1, key, left =>
    let e := dynAt m key
    let n := e.skip + e.width
    if left < n then [] else e :: readDyn m i (key + n) (left - n)

/-- The entries of a tile: those of the frame's list, whose length the header gives, and as saved those that found no room in it. -/
def entriesFrom (m : Memory) (key : Nat) (T : Tile) : List Dyn :=
  readDyn m 768 (key + 0x9000) (min 0x3000 (m.nat (key + 20) 4)) ++ (dynAll T).drop (dynList T).length

/-- Put an entry into a list by its order within its kind, after those of the same place. -/
def Dyn.into (e : Dyn) : List Dyn → List Dyn
  | [] => [e]
  | f :: r => if e.sub < f.sub then e :: f :: r else f :: e.into r
/-- Entries in the order that they give. -/
def bySub (es : List Dyn) : List Dyn := es.foldl (fun l e => e.into l) []

/-- The network of a number (R279). -/
def kindOfNet (n : Nat) : Kind := match n with | 0 => .scalar | 1 => .vector | _ => .bit

/-- A token as its entry holds it: what it derives from is as saved. -/
def tokFrom (t : Option Tok) (e : Dyn) : Tok :=
  let t0 : Tok := t.getD { kind := .scalar, level := 0, null := false, bits := 0, deps := [] }
  { t0 with kind := if decide (t0.kind = .vector) = e.vec then t0.kind else if e.vec then .vector else .scalar,
            level := e.level, null := e.null, bits := BitVec.ofNat 512 e.payload }
/-- Tokens as their entries hold them. -/
def toksFrom (l : List Tok) (es : List Dyn) : List Tok := es.zipIdx.map (fun x => tokFrom l[x.2]? x.1)
/-- A token of a seam port as its entry holds it. -/
def seamTokFrom (x : SeamTok) (e : Dyn) : SeamTok := { x with index := e.index, pos := e.where_, tok := tokFrom (some x.tok) e }
/-- Tokens of a seam port as their entries hold them. -/
def seamFrom (l : List SeamTok) (es : List Dyn) : List SeamTok := (l.zip es).map (fun p => seamTokFrom p.1 p.2)

/-- A lane of a running value: as saved where its payload is as written. -/
def laneFrom (x : Option (Bool × Nat × Nat × Nat)) (e : Dyn) : Bool × Nat × Nat × Nat :=
  match x with
  | some v => if e.payload = (Config.listValue v).toNat then v else Config.valueRead e.payload
  | none => Config.valueRead e.payload

/-- The state of a slot from its entries. -/
def slotFrom (st : SlotSt) (es : List Dyn) : SlotSt :=
  let item (i : Nat) : List Dyn := bySub (es.filter (fun e => e.extra = i))
  let num (i : Nat) : Nat := match item i with | e :: _ => e.payload | [] => 0
  let four := item 4
  let a := st.toks.length
  let b := st.toksR.length
  { st with acc := (item 1).zipIdx.map (fun x => laneFrom st.acc[x.2]? x.1),
            held := match item 2 with | e :: _ => some (tokFrom st.held e) | [] => none,
            n := num 3, nul := (item 3).any (·.null), sent := num 7, passes := num 8,
            term := match item 9 with | e :: _ => some e.payload | [] => none, active := !(item 10).isEmpty,
            toks := toksFrom st.toks (four.take a), toksR := toksFrom st.toksR ((four.drop a).take b), out := toksFrom st.out (four.drop (a + b)) }

/-- The states of slots: those saved, and of other slots that the list names, as a round begins. -/
def slotsFrom (l : Tbl SlotSt) (es : List Dyn) : Tbl SlotSt :=
  let own := es.filter (fun e => [1, 2, 3, 4, 7, 8, 9, 10].contains e.extra)
  let put (st : SlotSt) (i : Nat) : SlotSt := slotFrom st (own.filter (fun e => e.index = i))
  ((own.map (·.index)).eraseDups.filter (fun i => (l.find i).isNone)).foldl (fun m i => m.put i (put SlotSt.reset i))
    (l.map (fun x => (x.1, put x.2 x.1)))

/-- A held store or atomic from its entry. -/
def heldFrom (s : State) (k : Nat) (C : Ctx) (h : Held) (e : Dyn) : Held :=
  let e0 := heldDyn C h e.sub
  let a := e.addr.getD h.addr
  let n := if e.extra % 16 = e0.extra % 16 then h.data.length else sizeOf (e.extra % 16)
  { h with slot := e.index, addr := a, data := leBytes n e.payload,
           pieces := piecesFrom s k C h.pieces a n (decide (a = h.addr ∧ n = h.data.length)),
           amo := if e.extra / 2 ^ 8 = e0.extra / 2 ^ 8 then h.amo else h.amo.map (fun _ => (amoCode (e.extra / 2 ^ 11 % 16) h.signed, e.extra / 2 ^ 8 % 8)) }

/-- The held round from its entries, those of the seam port after those that wait there, and its stochastic state now and at its start. What
they do not hold (a token's next box and what it derives from, the number and context of the round) is that of the round saved. -/
def roundFrom (s : State) (k key : Nat) (C : Ctx) (r : Round) (es seam : List Dyn) : Round :=
  let of (i : Nat) : List Dyn := bySub (es.filter (fun e => e.kind = i))
  let item (i : Nat) : List Dyn := bySub ((of 7).filter (fun e => e.extra = i))
  let value {n : Nat} (e : Dyn) : Option (BitVec n) := if e.null then none else some (BitVec.ofNat n e.payload)
  let sto (off : Nat) : Tbl Word := (List.range 64).map (fun e => (e, frameWord s.mem key (off + 8 * e)))
  let nulls := ((item 0).filter (·.null)).map (·.index)
  { r with latch := (of 1).foldl (fun m e => m.put (e.index * 4 + e.where_) (tokFrom (r.latch.find (e.index * 4 + e.where_)) e)) [],
           transit := (r.transit.zip (of 2)).map (fun p =>
             { p.1 with box := p.2.index, tok := { tokFrom (some p.1.tok) p.2 with kind := kindOfNet p.2.where_ } }),
           gw := ((of 5).filter (fun e => !e.vec)).foldl (fun m e => m.put e.index (value e)) [],
           vw := ((of 5).filter (fun e => e.vec)).foldl (fun m e => m.put e.index (value e)) [],
           stores := (r.stores.zip (of 6)).map (fun p => heldFrom s k C p.1 p.2),
           order := (item 0).foldl (fun m e => m.put e.index e.payload) [],
           orderNul := if nulls.all (r.orderNul.contains ·) && r.orderNul.all (nulls.contains ·) then r.orderNul else nulls,
           slotSt := slotsFrom r.slotSt (of 7),
           loads := (r.loads.zip (item 5)).map (fun p => { p.1 with slot := p.2.index, got := leBytes p.1.got.length p.2.payload }),
           fired := ((item 6).filter (fun e => e.payload != 0)).map (·.index),
           seamTaken := seamFrom r.seamTaken seam,
           exports := (r.exports.zip (seam.drop r.seamTaken.length)).map (fun p => { p.1 with tok := seamTokFrom p.1.tok p.2 }),
           sto := sto (0x6000 + 0x200 * r.ctx), stoStart := sto 0xE00 }

/-- A port from its part of a frame: as saved where that is as written, else what the frame's bytes tell. -/
def portPart (m : Memory) (key p : Nat) (P : Port) : Port :=
  let bs := m.bytes (key + 0x600 + 0x80 * p) 128
  if bs = portBytes P then P
  else
    let n := (progNums P).length
    let num (i : Nat) : Nat := Config.portRead bs (n + i)
    { P with prog := P.prog.map (fun _ => parsePort (leBytes 64 (num 12))), c := num 0, issued := num 1,
             saved := { P.saved with c := num 2, issued := num 3, read := numOpt (num 10), mark := numOpt (num 11) },
             delivered := num 4, starved := num 5, hwmblk := num 6, winblk := num 7, read := numOpt (num 8), cursor := BitVec.ofNat 64 (num 9) }

/-- A port's tokens, writes and recorded tokens from their entries. -/
def portFrom (P : Port) (es : List Dyn) : Port :=
  let a := P.toks.length
  let b := P.buf.length
  { P with toks := toksFrom P.toks (es.take a),
           buf := (P.buf.zip (es.drop a)).map (fun p => { p.1 with data := leBytes p.1.data.length p.2.payload }),
           saved := { P.saved with toks := toksFrom P.saved.toks (es.drop (a + b)) } }

/-- A port as a restore makes it: its translations, and the fault of an early one of a read port, are made anew (R50, R53). -/
def portRestored (m : Memory) (key p : Nat) (P : Port) (es : List Dyn) : Port :=
  { portFrom (portPart m key p P) es with tlb := [], window := none, fault := match P.prog with
    | some g => if g.write then P.fault else none
    | none => none }

/-- A tile from its frame and its image, on a cluster (R275, R277, R278): present contexts, stopped contexts, the held round, the phase of the
sequencer and the blocks of barriers are those that the header names. Translations are made anew (R53). -/
def tileFrom (s : State) (k key : Nat) (T : Tile) : Tile :=
  let m := s.mem
  let es := entriesFrom m key T
  let seam := bySub (es.filter (fun e => e.kind = 4))
  let round := if (m.nat (key + 13) 1).testBit 7 then T.round else none
  let blocks := (List.range 16).filter (fun b => (m.nat (key + 16) 2).testBit b)
  let ctx (c : Nat) : Ctx := ctxFrom m key T c
  { T with seq := seqFrom s k key (ctx (bits (frameWord m key 0x148) 2 0)) T.seq, rseed := frameWord m key 0x180,
           g := (List.range 64).map (fun i => (i, frameWord m key (0x800 + 8 * i))),
           v := (List.range 16).map (fun i => (i, BitVec.ofNat 512 (m.nat (key + 0xA00 + 64 * i) 64))),
           ctxs := (List.range 8).map (fun c => (c, ctx c)),
           bars := blocks.flatMap (fun b => (List.range 64).map (fun i => (64 * b + i, barFrom (frameWord m key (0x7000 + 0x200 * b + 8 * i))))),
           round := round.map (fun r => roundFrom s k key (ctx r.ctx) r es (seam.drop T.seam.length)),
           ports := T.ports.map (fun p => (p.1, portRestored m key p.1 p.2 (bySub (es.filter (fun e => e.kind = 3 && e.index = p.1))))),
           seam := seamFrom T.seam seam, tlb := [] }

end Sys2Proof.Machine
end

