-- ==== Sys2Proof/Machine/Copy.lean ====
section
/-! DEFINITION. The copy engine inside the consist (R347 to R356): spaces of a copy, cp.bulk and cp.mcast. -/

namespace Sys2Proof.Machine

/-! ### Spaces (R354) -/

/-- What comes of an access of a copy: it goes on, waits for a home (R75), is blocked at a stream's marks (R290, R292), or faults. -/
inductive Reach (α : Type)
  | got (s : State) (x : α)
  | wait
  | block (handle : Nat) (writing : Bool)
  | fault (f : AccFault)

/-- The global tile number of an issuing tile. -/
def issuer (k tile : Nat) : Nat := k * 4 + tile

/-- Translate an LV access of a command: through the cluster TLB and walker (R48), in the context that the issuing tile has
selected (log entry 16). -/
def engineLv (s : State) (k tile : Nat) (a : Word) (n : Nat) (wr : Bool) : Except AccFault (List Piece × State) :=
  match lvAccess s k (s.tile (issuer k tile)).selected (s.cluster k).tlb a n wr with
  | .error f => .error f
  | .ok (ps, us) => .ok (ps, s.noteCluster k us)

/-- A number of a fault in a space. -/
def rangeFault (cause : Nat) (a : Word) : AccFault := { cause := cause, addr := a, pri := none }

/-- Bytes of an accumulator word at a width code (R354). -/
def accBytes (width : Nat) : Nat := if width = 2 then 8 else 4

/-- The encoding of an accumulator (R354): rounded with rne; INT32 as 32 bits. -/
def accEncode (width : Nat) (x : Val) : Nat × Flags :=
  match width with
  | 0 => round .f16 x 0
  | 1 => round .f32 x 0
  | 2 => round .f64 x 0
  | _ => ((x.snum % 2 ^ 32).toNat, 0)

/-- The accumulator that an encoding gives. -/
def accDecode (width enc : Nat) : Val :=
  match width with
  | 0 => decodeFmt .f16 (enc % 2 ^ 16)
  | 1 => decodeFmt .f32 (enc % 2 ^ 32)
  | 2 => decodeFmt .f64 (enc % 2 ^ 64)
  | _ => Val.ofInt (signedOf 32 enc)

/-- An element of a bank. -/
def Bank.elem (b : Bank) (i : Nat) : Val := Val.held (b.acc.get (Val.hold .zero) i)

/-- A byte of accumulator space: bank, then byte in the bank (R354). -/
def accByte (m : Matrix) (a : Nat) : Byte × Flags :=
  let b := m.bank (a / 2 ^ 15 % 4)
  let n := accBytes b.width
  let e := accEncode b.width (b.elem (a % 2 ^ 15 / n))
  (BitVec.ofNat 8 (e.1 / 256 ^ (a % n)), e.2)

/-- n bytes of accumulator space and the flags of their rounding. -/
def accRead (m : Matrix) (a n : Nat) : List Byte × Flags :=
  let l := (List.range n).map (fun i => accByte m (a + i))
  (l.map (·.1), flAll (l.map (·.2)))

/-- Write one element: the bytes that the write covers over those it holds. -/
def accPut (m : Matrix) (bank i a : Nat) (bs : List Byte) : Matrix :=
  let b := m.bank bank
  let n := accBytes b.width
  let old := leBytes n (accEncode b.width (b.elem i)).1
  let base := bank * 2 ^ 15 + i * n
  let new := (List.range n).map (fun j => if a ≤ base + j && base + j < a + bs.length then bs.getD (base + j - a) 0 else old.getD j 0)
  m.modBank bank (fun b => { b with acc := b.acc.put i (Val.hold (accDecode b.width (leNat new))) })

/-- Write bytes of one bank (R354): values are replaced; tags, bounds and thresholds stay. -/
def accWrite (m : Matrix) (a : Nat) (bs : List Byte) : Matrix :=
  let bank := a / 2 ^ 15 % 4
  let n := accBytes (m.bank bank).width
  let lo := a % 2 ^ 15 / n
  let hi := (a % 2 ^ 15 + bs.length - 1) / n
  if bs.isEmpty then m else (List.range (hi + 1 - lo)).foldl (fun m j => accPut m bank (lo + j) a bs) m

/-- Read n bytes of a space at an address (R354). -/
def spaceRead (s : State) (k tile space : Nat) (a : Word) (n : Nat) : Reach (List Byte × Flags) :=
  match space with
  | 0 =>
    if bit a 63 then
      let l := (s.cluster k).launchNo
      match s.stream l (streamHandle a) with
      | none => .fault (rangeFault 9 a)
      | some st =>
        match st.decideRead (streamOff a) n with
        | .fault c => .fault (rangeFault c a)
        | .block => .block (streamHandle a) false
        | .pass => match streamRead s (some (dieOfCluster k)) l (streamHandle a) (streamOff a) n with
          | some (s1, bs) => .got s1 (bs, 0)
          | none => .wait
    else match engineLv s k tile a n false with
      | .error f => .fault f
      | .ok (ps, s1) =>
        if ps.all (servable s (dieOfCluster k)) then .got (mergeRead s1 (dieOfCluster k) ps) (ps.flatMap s.pieceBytes, 0) else .wait
  | 1 =>
    (match spadAccess k a.toNat n with
     | .error f => .fault f
     | .ok _ => .got s (spadBytes s k a.toNat n, 0))
  | _ => .got s (accRead (s.cluster k).mx a.toNat n)

/-- Stores of a list of pieces by an engine (R65): none where a home must wait. -/
def enginePieces (s : State) (t : Nat) (addr : Word) : List Piece → List Byte → Option (State × List (Nat × Byte))
  | [], _ => some (s, [])
  | p :: r, bs =>
    match performStore s t none p (bs.take p.size) addr with
    | none => none
    | some (s1, w) => (enginePieces s1 t addr r (bs.drop p.size)).map (fun q => (q.1, w ++ q.2))

/-- Write bytes of a space at an address (R354). -/
def spaceWrite (s : State) (k tile space : Nat) (a : Word) (bs : List Byte) : Reach (List (Nat × Byte)) :=
  match space with
  | 0 =>
    if bit a 63 then
      let l := (s.cluster k).launchNo
      match s.stream l (streamHandle a) with
      | none => .fault (rangeFault 9 a)
      | some st =>
        match st.decideWrite (streamOff a) bs.length with
        | .fault c => .fault (rangeFault c a)
        | .block => .block (streamHandle a) true
        | .pass => match streamWrite s (some (dieOfCluster k)) l (streamHandle a) (streamOff a) bs with
          | some (s1, ws) => .got s1 ws
          | none => if streamReached s (some (dieOfCluster k)) l then .block (streamHandle a) true else .wait
    else match engineLv s k tile a bs.length true with
      | .error f => .fault f
      | .ok (ps, s1) =>
        match enginePieces s1 (issuer k tile) a ps bs with
        | some (s2, ws) => .got s2 ws
        | none => .wait
  | 1 =>
    (match spadAccess k a.toNat bs.length with
     | .error f => .fault f
     | .ok _ => .got s (putBytes (spadKey k a.toNat) bs))
  | _ => .got (s.modCluster k (fun K => { K with mx := accWrite K.mx a.toNat bs })) []

/-! ### cp.bulk (R347, R354) -/

/-- The descriptor of cp.bulk (R347). -/
structure Bulk where
  src : Word
  dst : Word
  len : Nat
  ss : Nat
  ds : Nat
deriving DecidableEq, Repr

/-- Its fields. -/
def parseBulk (d : List Byte) : Bulk :=
  { src := BitVec.ofNat 64 (leAt d 0 8), dst := BitVec.ofNat 64 (leAt d 8 8), len := leAt d 16 4, ss := leAt d 20 1, ds := leAt d 21 1 }

/-- The 32 bytes of a command's descriptor. -/
def descriptor (s : State) (k : Nat) (x : Cmd) : List Byte := (x.desc.getD (spadBytes s k (x.a.toNat % 2 ^ 21) 64)).take 32
/-- The operand checks of every copy command (R349). -/
def descOk (x : Cmd) : Bool := x.a.toNat % 2 ^ 21 % 32 == 0 && x.b == 0

/-- Does an access of accumulator space stay inside it? -/
def accInside (space : Nat) (a : Word) (len : Nat) : Bool := space != 2 || a.toNat + len ≤ 2 ^ 17
/-- Are the limits of a cp.bulk descriptor kept (R347, R349)? -/
def bulkOk (d : List Byte) : Bool :=
  let b := parseBulk d
  1 ≤ b.len && b.ss ≤ 2 && b.ds ≤ 2 && leAt d 22 10 == 0 && accInside b.ss b.src b.len && accInside b.ds b.dst b.len

/-- Do the banks that a side touches hold complete tiles (R354)? -/
def banksReady (m : Matrix) (space : Nat) (a : Word) (len : Nat) : Bool :=
  space != 2 || (List.range 4).all (fun i => !(a.toNat / 2 ^ 15 ≤ i && i ≤ (a.toNat + len - 1) / 2 ^ 15) || (m.bank i).tag = .complete)

/-- Address of a byte of a copy: a stream address counts its offset modulo 2^48 (R41), a scratchpad offset does not wrap (R42). -/
def copyAddr (space : Nat) (a : Word) (off : Nat) : Word :=
  match space with
  | 0 => if bit a 63 then streamAdd a (BitVec.ofNat 64 off) else a + BitVec.ofNat 64 off
  | 1 => BitVec.ofNat 64 (a.toNat % 2 ^ 21 + off)
  | _ => a + BitVec.ofNat 64 off

/-- Do source and destination overlap in one space, so that the source is read whole, as it stood at the start, before anything is written
(R354)? -/
def bulkWhole (b : Bulk) : Bool :=
  b.ss = b.ds &&
  (match b.ss with
   | 0 =>
     if bit b.src 63 && bit b.dst 63 then
       streamHandle b.src = streamHandle b.dst &&
         (gap (streamOff b.dst) (streamOff b.src) < b.len || gap (streamOff b.src) (streamOff b.dst) < b.len)
     else overlap b.src.toNat b.len b.dst.toNat b.len
   | 1 => overlap (b.src.toNat % 2 ^ 21) b.len (b.dst.toNat % 2 ^ 21) b.len
   | _ => overlap b.src.toNat b.len b.dst.toNat b.len)

/-- The banks that a side of a copy touches, a bit each (R354). -/
def sideBanks (space : Nat) (a : Word) (len : Nat) : Nat :=
  if space != 2 then 0
  else (List.range 4).foldl (fun n i => if a.toNat / 2 ^ 15 ≤ i && i ≤ (a.toNat + len - 1) / 2 ^ 15 then n ||| 2 ^ i else n) 0
/-- The banks of both sides. -/
def bulkBanks (b : Bulk) : Nat := sideBanks b.ss b.src b.len ||| sideBanks b.ds b.dst b.len

/-- Record bytes 8 to 63 of cp.bulk (R354). -/
def bulkRec (bytes : Nat) (fl : Flags) (a : Word) : List Byte :=
  leBytes 4 bytes ++ leBytes 1 fl.toNat ++ leBytes 3 0 ++ leBytes 8 a.toNat

/-! ### Granules (R77) -/

/-- How many naturally aligned 64-byte granules n bytes from an address on lie in (R77). -/
def granCount (a n : Nat) : Nat := ceilDiv (a % 64 + n) 64
/-- Where the g-th of them begins in the copy. -/
def granOff (a g : Nat) : Nat := g * 64 - a % 64
/-- How many bytes of the copy it holds. -/
def granLen (a n g : Nat) : Nat := min ((g + 1) * 64 - a % 64) n - granOff a g

/-- Bytes performed of a command that goes on. -/
def Cmd.bytes (x : Cmd) : Nat := match x.stage with | .begun n => n | _ => 0

/-- A command waits at a stream's marks with one of its accesses: a blocked party of R306 from the first time on. -/
def blockCmd (s : State) (k tile : Nat) (x : Cmd) (key : Nat) (h : Nat) (w : Bool) : State :=
  let since := match x.blocked.find key with | some b => if b.1 = h then b.2.1 else s.now | none => s.now
  s.stage k tile { x with blocked := x.blocked.put key (h, since, w) } (.begun x.bytes)

/-- What comes of one access of a command, kept under a key: it goes on; or the command stays as it is while a home must wait, is blocked, or
faults (R290, R292, R352). -/
def access {α : Type} (s : State) (k tile : Nat) (x : Cmd) (key : Nat) (record : Flags → Word → List Byte) (r : Reach α)
    (got : State → Cmd → α → State × List (Nat × Byte)) : State × List (Nat × Byte) :=
  match r with
  | .got s1 y => got s1 { x with blocked := x.blocked.del key, since := s.now } y
  | .wait => (s.stage k tile x (.begun x.bytes), [])
  | .block h w => (blockCmd s k tile x key h w, [])
  | .fault f => (faultCmd s k tile x 3 f x.bytes (record x.accFlags f.addr), [])

/-- Read a granule of a source, once (R356), and go on from there. -/
def readPart (s : State) (k tile : Nat) (x : Cmd) (ss : Nat) (src : Word) (len g : Nat) (record : Flags → Word → List Byte)
    (got : State → Cmd → State × List (Nat × Byte)) : State × List (Nat × Byte) :=
  if g ≥ granCount src.toNat len || (x.src.find g).isSome then (s.stage k tile x (.begun x.bytes), [])
  else access s k tile x (2 * g) record (spaceRead s k tile ss (copyAddr ss src (granOff src.toNat g)) (granLen src.toNat len g))
    (fun s1 x r => got s1 { x with src := x.src.put g r.1, accFlags := x.accFlags ||| r.2 })

/-- The whole of a source, once every granule of it has been read. -/
def Cmd.whole (x : Cmd) (src : Word) (len : Nat) : Option (List Byte) :=
  ((List.range (granCount src.toNat len)).mapM (fun g => x.src.find g)).map List.flatten

/-- n bytes of a source at an offset of the copy, once their granules have been read. -/
def Cmd.part (x : Cmd) (src : Word) (off n : Nat) : Option (List Byte) :=
  (List.range n).mapM (fun i =>
    let g := (src.toNat % 64 + off + i) / 64
    (x.src.find g).bind (fun bs => bs[off + i - granOff src.toNat g]?))

/-- The stores that a command has sent to other dies since a request number are its own (R399). -/
def claimReqs (no seq : Nat) (s : State) : State :=
  s.modPkg (fun p => { p with reqs := p.reqs.map (fun r => if no ≤ r.id then { r with cmd := some seq } else r) })

/-- The domain endpoint that the key of an LV address names, where it is not there (R351, R408). -/
def endpointMissing (s : State) (k tile : Nat) (a : Word) (wr : Bool) : Option Nat :=
  match lvPiece s k (s.tile (issuer k tile)).selected (s.cluster k).tlb wr a.toNat with
  | .ok x =>
    let key := xlatKey x a.toNat
    if keyKind key = 4 && !endpointThere s (domainSpot key).1 then some (domainSpot key).1 else none
  | .error _ => none

/-- Does a command that has not made an access yet name memory of an endpoint that is not there with a side of it (R351, R408)? -/
def sideMissing (s : State) (k tile : Nat) (x : Cmd) (space : Nat) (a : Word) (len : Nat) (wr : Bool) : Bool :=
  space = 0 && !bit a 63 && x.src.isEmpty && x.fin.isEmpty &&
    (List.range (granCount a.toNat len)).any (fun g => (endpointMissing s k tile (copyAddr 0 a (granOff a.toNat g)) wr).isSome)

/-! ### cp.bulk -/

/-- A copy that has performed a granule ends with its last. -/
def bulkNext (s : State) (k tile : Nat) (x : Cmd) (b : Bulk) : State :=
  if granCount b.dst.toNat b.len ≤ x.fin.length then endCmd s k tile x 0 (bulkRec b.len x.accFlags 0) else s.stage k tile x (.begun x.bytes)

/-- Write a granule of a copy, once its bytes have been read, or the whole of a source that the destination overlaps (R354). -/
def bulkWrite (s : State) (k tile : Nat) (x : Cmd) (b : Bulk) (g : Nat) : State × List (Nat × Byte) :=
  let off := granOff b.dst.toNat g
  let n := granLen b.dst.toNat b.len g
  if g ≥ granCount b.dst.toNat b.len || x.fin.contains g || (bulkWhole b && (x.whole b.src b.len).isNone) then (bulkNext s k tile x b, [])
  else match x.part b.src off n with
    | none => (s.stage k tile x (.begun x.bytes), [])
    | some bs => access s k tile x (2 * g + 1) (bulkRec x.bytes) (spaceWrite s k tile b.ds (copyAddr b.ds b.dst off) bs) (fun s1 x ws =>
        (bulkNext (claimReqs s.pkg.reqNo x.seq s1) k tile { x with fin := x.fin ++ [g], stage := .begun (x.bytes + n) } b, ws))

/-- cp.bulk (R347, R354): its banks are judged once, as it starts, and held to its last access; its granules are read and written one by one,
in any order (R77). -/
def execCpBulk (cluster : Nat) : CopyTurn CopyPart → State → Host.Outcome State Fault Refusal
  | ⟨tile, pick, part⟩, s => engineAt 1 1 false true cluster tile pick s (fun s x0 =>
    let d := descriptor s cluster x0
    let b := parseBulk d
    let m := (s.cluster cluster).mx
    if !descOk x0 || !bulkOk d then (endCmd s cluster tile x0 0x11 (bulkRec 0 0 0), [])
    else if x0.banks = 0 && !(banksReady m b.ss b.src b.len && banksReady m b.ds b.dst b.len) then
      (endCmd s cluster tile x0 0x30 (bulkRec 0 0 0), [])
    else if sideMissing s cluster tile x0 b.ss b.src b.len false || sideMissing s cluster tile x0 b.ds b.dst b.len true then
      (endCmd s cluster tile x0 0x38 (bulkRec 0 0 0), [])
    else
      let x : Cmd := { x0 with banks := bulkBanks b }
      match part with
      | .read g => readPart s cluster tile x b.ss b.src b.len g (bulkRec x.bytes) (fun s1 x => (s1.stage cluster tile x (.begun x.bytes), []))
      | .write g _ => bulkWrite s cluster tile x b g)

/-! ### cp.mcast (R355, R356) -/

/-- The descriptor of cp.mcast (R355). -/
structure Mcast where
  src : Word
  dst : Nat
  len : Nat
  mask : Nat
  ss : Nat
  rtile : Nat
  bar : Option Nat
deriving DecidableEq, Repr

/-- Its fields. -/
def parseMcast (d : List Byte) : Mcast :=
  let b := leAt d 20 2
  { src := BitVec.ofNat 64 (leAt d 0 8), dst := leAt d 8 4, len := leAt d 12 4, mask := leAt d 16 2, ss := leAt d 18 1,
    rtile := leAt d 19 1, bar := if b / 2 ^ 15 = 1 then some (b % 1024) else none }

/-- Are its limits kept (R349, R355)? -/
def mcastOk (d : List Byte) (size : Nat) : Bool :=
  let m := parseMcast d
  m.dst < 2 ^ 21 && 1 ≤ m.len && m.dst + m.len ≤ 2 ^ 21 && m.mask != 0 && m.mask < 2 ^ size && m.ss ≤ 1 && m.rtile < 4 &&
  leAt d 20 2 / 1024 % 32 == 0 && leAt d 22 10 == 0

/-- The receivers of a mask. -/
def receivers (L : Launch) (mask : Nat) : List Nat :=
  ((List.range L.consist.length).filter (fun p => mask.testBit p)).map (fun p => L.consist.getD p 0)

/-- One granule arrives at a receiver: its bytes count at the barrier in the next cycle (R169, R356). -/
def countBytes (s : State) (k rtile : Nat) (bar : Option Nat) (n : Nat) : State :=
  match bar with
  | some i => s.modTile (k * 4 + rtile) (fun T => { T with counts := T.counts ++ [(s.now + 1, i, n)] })
  | none => s

/-- The bytes that a tile's receivers count in the cycle in hand, at its end: after every bar.init of the cycle (R356, R366). -/
def Tile.countNow (T : Tile) (now : Nat) : Tile :=
  (T.counts.filter (fun c => c.1 ≤ now)).foldl (fun T c => T.arrive now c.2.1 c.2.2 true)
    { T with counts := T.counts.filter (fun c => now < c.1) }

/-- A granule reaches a receiver: it is counted, and its die follows what the sender's has seen (R75, R356). -/
def mcastTo (k : Nat) (m : Mcast) (n : Nat) (s : State) (r : Nat) : State :=
  let s1 := countBytes s r m.rtile m.bar n
  if dieOfCluster r = dieOfCluster k then s1 else mergeClock s1 (dieOfCluster r) (s.die (dieOfCluster k)).clock

/-- The bytes of a multicast that every receiver has. -/
def mcastBytes (m : Mcast) (count : Nat) (fin : List Nat) : Nat :=
  ((List.range (granCount m.dst m.len)).map (fun g =>
    if (List.range count).all (fun i => fin.contains (i * 2 ^ 32 + g)) then granLen m.dst m.len g else 0)).foldl (· + ·) 0

/-- A multicast that has performed a granule write ends with its last. -/
def mcastNext (s : State) (k tile : Nat) (x : Cmd) (m : Mcast) (count : Nat) : State :=
  if granCount m.dst m.len * count ≤ x.fin.length then endCmd s k tile x 0 (leBytes 2 m.mask)
  else s.stage k tile x (.begun (mcastBytes m count x.fin))

/-- Write a granule of a multicast at one receiver, whose home has applied what the sender's die has seen (R75): an event of its own (R356). -/
def mcastWrite (s : State) (k tile : Nat) (x : Cmd) (m : Mcast) (rs : List Nat) (g i : Nat) : State × List (Nat × Byte) :=
  let off := granOff m.dst g
  let n := granLen m.dst m.len g
  match rs[i]? with
  | none => (mcastNext s k tile x m rs.length, [])
  | some r =>
    if g ≥ granCount m.dst m.len || x.fin.contains (i * 2 ^ 32 + g) ||
        !(dieOfCluster r = dieOfCluster k || caughtUp s (dieOfCluster k) (.die (dieOfCluster r))) then (mcastNext s k tile x m rs.length, [])
    else match x.part m.src off n with
      | none => (s.stage k tile x (.begun x.bytes), [])
      | some bs =>
        (mcastNext (mcastTo k m n s r) k tile { x with fin := x.fin ++ [i * 2 ^ 32 + g], since := s.now } m rs.length, putBytes (spadKey r (m.dst + off)) bs)

/-- cp.mcast (R355, R356): each granule of the source is read once, and written at every receiver. -/
def execCpMcast (cluster : Nat) : CopyTurn CopyPart → State → Host.Outcome State Fault Refusal
  | ⟨tile, pick, part⟩, s => engineAt 1 2 false true cluster tile pick s (fun s x =>
    match engineLaunch s cluster with
    | none => (endCmd s cluster tile x 0x11 [], [])
    | some (_, L) =>
      let d := descriptor s cluster x
      let m := parseMcast d
      if !descOk x || !mcastOk d L.consist.length then (endCmd s cluster tile x 0x11 [], [])
      else if sideMissing s cluster tile x m.ss m.src m.len false then (endCmd s cluster tile x 0x38 [], [])
      else match part with
        | .read g => readPart s cluster tile x m.ss m.src m.len g (fun _ _ => leBytes 2 m.mask) (fun s1 x => (s1.stage cluster tile x (.begun x.bytes), []))
        | .write g i => mcastWrite s cluster tile x m (receivers L m.mask) g i)

end Sys2Proof.Machine
end

