-- ==== Sys2Proof/Machine/Ports.lean ====
section
/-! DEFINITION. Stream ports at work (R50, R57, R58, R200, R290 to R292, R301 to R303, R307, R411), blocked accesses, spilling
(R295), the deadlock detector (R306) and the host's apertures (R305). -/

namespace Sys2Proof.Machine

/-! ### Accesses of a port -/

/-- A fault of a write port (R303): it voids the round of the port's context that runs, or waits for the next one. -/
def portFault (s : State) (t p cause : Nat) (a : Word) (pri : Option Nat) : State :=
  let T := s.tile t
  let P := T.port p
  match P.prog with
  | none => s
  | some g =>
    if roundOf T g.ctx then fabricFault s t 0 p 2 cause a pri
    else s.setTile t (T.setPort p { P with fault := some (cause, a, pri) })

/-- A port notes a translation that it used: in its TLB of 8 entries (R48), and for the window, unless the old home of the page has
redirected the access (R50, R60). -/
def Port.noted (P : Port) (g : PortProg) (a : Word) (u : Used) : Port :=
  { P with tlb := tlbNote 8 P.tlb u, window := if u.2 then none else some (windowOf g a, u.1) }

/-- A write port notes the translation that a write used: on a new-home hint the window is looked up again (R60). -/
def Port.redirect (P : Port) (u : Used) : Port :=
  { P with tlb := tlbNote 8 P.tlb u, window := if u.2 then none else P.window,
           committed := if u.2 then P.committed.map (fun w => { w with xlat := none }) else P.committed,
           buf := if u.2 then P.buf.map (fun w => { w with xlat := none }) else P.buf }

/-- A port and its cluster note a translation that it used (R48). -/
def notePort (s : State) (t p : Nat) (g : PortProg) (a : Word) (u : Used) : State :=
  (s.modTile t (fun T => T.modPort p (fun P => P.noted g a u))).noteCluster (clusterOf t) [u]

/-- Has the port left its page window with counts still to flush (R58)? -/
def Port.mustFlush (P : Port) (g : PortProg) (a : Word) : Bool :=
  match P.page with
  | some w => w != windowOf g a && (P.delivered != 0 || P.starved != 0)
  | none => false

/-- Count an access of a page window (R58): both counters saturate. DEDUCED, log entry 45. -/
def Port.visit (P : Port) (g : PortProg) (a : Word) : Port :=
  { P with page := some (windowOf g a), delivered := sat32 (P.delivered + 1) }

/-- Elements waiting in a port (R57). -/
def Port.waiting (P : Port) : Nat := (P.toks.filter (fun x => x.level = 0)).length

/-- The tokens of iteration c with its value (R301). -/
def portTokens (g : PortProg) (c : Nat) (bs : List Byte) : List Tok :=
  let kind : Kind := if g.esz = 4 then .vector else .scalar
  dataTok kind (BitVec.ofNat 512 (leNat bs)) [] :: (if g.stopLevel c = 0 then [] else [stopTok kind (g.stopLevel c) []])

/-- The access of iteration `issued` has returned: its tokens join the port's (R57, R301). -/
def Port.got (P : Port) (g : PortProg) (bs : List Byte) : Port :=
  { P with toks := P.toks ++ portTokens g P.issued bs, issued := P.issued + 1, since := none }

/-- Has a read port an access to make: its program goes on, fewer than 32 elements wait, and nothing holds it back (R57, R290)? -/
def Port.fetching (P : Port) (g : PortProg) : Bool :=
  !g.write && !P.loan && P.issued < g.total && P.waiting < 32 && P.hwmBlocked.isNone

/-- Does the next access of a read port belong to the round in hand: everything fetched before it has been delivered, and the round still
takes tokens (R50, R303, R307)? -/
def portDue (T : Tile) (P : Port) (g : PortProg) : Bool := roundOf T g.ctx && P.toks.isEmpty && !P.shareClosed

/-- Is the fault that a port holds one of the window of an LV address (R50), or of that very address? -/
def holdsFault (P : Port) (g : PortProg) (a : Word) : Bool :=
  match P.fault with
  | some (_, b, _) => if !g.spad && !g.isStream then windowOf g a = windowOf g b else a = b
  | none => false

/-- An access of a read port meets a fault: it voids the round that the access belongs to; met by an access ahead of the rounds, it is held
until one of them comes to it (R50, R303). -/
def readFault (s : State) (t p : Nat) (cause : Nat) (a : Word) (pri : Option Nat) : State :=
  let T := s.tile t
  let P := T.port p
  match P.prog with
  | none => s
  | some g =>
    if portDue T P g then fabricFault (s.setTile t (T.setPort p { P with fault := none })) t 0 p 2 cause a pri
    else s.setTile t (T.setPort p { P with fault := some (cause, a, pri) })

/-- The stream cursor after a read through a port's reader (R290). -/
def Stream.readTo (st : Stream) (k e : Nat) : Stream :=
  match st.readers.find k with
  | some r => if serialLt 48 r.cursor e then { st with readers := st.readers.put k { r with cursor := e } } else st
  | none => st

/-- A port issues its next access and the response returns, with what committed rounds of the tile have still to write (R67, R290, R301). -/
def portFetch (s : State) (t p : Nat) (P : Port) (g : PortProg) : Act :=
  let a := g.addr P.issued
  let n := eszBytes g.esz
  let held := committedStores s t
  let put (s : State) (P : Port) : State := s.modTile t (fun T => T.setPort p P)
  match (if holdsFault P g a then P.fault else none) with
  | some (cause, _, pri) => when (portDue (s.tile t) P g) s (.go (readFault s t p cause a pri) [])
  | none =>
    if g.spad then
      match spadAccess (clusterOf t) a.toNat n with
      | .error f => .go (readFault s t p f.cause f.addr none) []
      | .ok ps => when (settledBytes s t ps (byteNames ps a n)) s
          (.go (put s (P.got g (overlay held (byteNames ps a n) (ps.flatMap s.pieceBytes)))) [])
    else if g.isStream then
      let l := (s.tile t).launchNo
      let h := streamHandle a
      if !streamReached s (some (dieOf t)) l then idle s
      else match s.stream l h with
      | none => .go (readFault s t p 9 a none) []
      | some st =>
        match st.decideRead (streamOff a) n with
        | .fault c => .go (readFault s t p c a none) []
        | .block => .go (put s { P with hwmBlocked := some s.now }) []
        | .pass =>
          match streamRead s (some (dieOf t)) l h (streamOff a) n with
          | none => idle s
          | some (s1, bs) =>
            let moved := (s1.stream l h).map (fun st => st.readTo g.rdr ((streamOff a + n) % M48))
            let s2 := match moved with
              | some st => if s1.stream l h = some st then s1 else s1.markStream (some (dieOf t)) l h st
              | none => s1
            .go (put s2 (P.got g (overlay held (byteNames [] a n) bs))) []
    else when (!P.mustFlush g a) s (
      match portPiece s t P g (P.windowed g a) a with
      | .error f => .go (readFault s t p f.cause f.addr f.pri) []
      | .ok (q, u) =>
        let names := byteNames [q] a n
        when (servable s (dieOf t) q && settledBytes s t [q] names) s
          (.go (mergeRead (notePort (put s ((P.got g (overlay held names (s.pieceBytes q))).visit g a)) t p g a u) (dieOf t) [q]) []))

/-- Source number of the tokens of a port, above those of slots. -/
def portSrc (p : Nat) : Nat := 256 + p

/-- The offset after the last element read through a port, once the element of iteration c has been delivered (R302). -/
def readAfter (P : Port) (g : PortProg) : Nat :=
  let e := (streamOff (g.addr P.c) + eszBytes g.esz) % M48
  match P.read with
  | some r => if serialLt 48 r e then e else r
  | none => e

/-- The port delivers its next token to the round of its context (R200, R307). A seed token, which is marked, is no element of
the program (R27). -/
def portDeliver (s : State) (t p : Nat) (P : Port) (g : PortProg) : Act :=
  let T := s.tile t
  match T.round, P.toks with
  | some r, x :: rest =>
    let c := T.ctx r.ctx
    when (r.ctx = g.ctx && !P.shareClosed && posFree r c g.slot g.pos && r.canInject x.kind (portSrc p)) s
      (let close := g.stops && g.rlv != 0 && x.level ≥ g.rlv
       let element := x.level = 0 && x.deps.isEmpty
       let P1 := { P with toks := rest, c := if element then P.c + 1 else P.c, shareClosed := close,
                          read := if element && g.isStream then some (readAfter P g) else P.read }
       let y : Transit := { src := portSrc p, out := 0, index := g.slot, pos := g.pos, page := none, tok := { x with deps := [] },
                            box := srcBox (portSrc p), way := srcWay (portSrc p), born := s.now, since := s.now }
       .go (s.setTile t { (T.setPort p P1) with round := some { r with transit := r.transit ++ [y] } }) [])
  | _, _ => idle s

/-- A port access returns, or the port delivers its next token in order (R57, R200, R301). -/
def execPortReadResponse (tile port : Nat) (fetch : Bool) (s : State) : Host.Outcome State Fault Refusal :=
  perform s (within (tile < tileCount && port < 4) (
    let T := s.tile tile
    let P := T.port port
    match P.prog with
    | none => idle s
    | some g =>
      if g.write || !T.live then idle s
      else if fetch then
        when (P.fetching g) s
          (portFetch s tile port P g)
      else portDeliver s tile port P g))

/-! ### Write ports (R302, R411) -/

/-- The head write has been performed, or dropped. -/
def Port.wrote (P : Port) (cursor : Word) : Port :=
  { P with committed := P.committed.tail, c := P.c + 1, cursor := cursor, winBlocked := none }

/-- May a write that a port holds be performed: every write of earlier rounds has been, every held store of its own round that comes
before it by an edge, and the port's own writes before it (R66, R67, R302)? -/
def writeDue (s : State) (t p : Nat) (w : PortWrite) : Bool :=
  !s.olderWrites t w.no && !((s.tile t).drain.any (fun h => h.no = w.no && w.deps.contains h.place)) &&
  !roundPending s t (fun x => x.no = w.no && (x.port = some p || (x.port.isNone && w.deps.contains x.place)))

/-- A write port makes the implicit HWM advance that is due (R73, R302), or performs the next write of its committed rounds. -/
def execPortWritePerform (tile port : Nat) (s : State) : Host.Outcome State Fault Refusal :=
  perform s (within (tile < tileCount && port < 4) (
    let T := s.tile tile
    let P := T.port port
    let put (s : State) (P : Port) : State := settleTile (s.modTile tile (fun T => T.setPort port P)) tile
    if publishDue s tile port then .go (portPublish s tile port) []
    else match P.prog, P.committed with
    | some g, w :: _ =>
      let n := w.data.length
      when (P.winBlocked.isNone && P.fault.isNone && writeDue s tile port w) s (
        if g.spad then
          match spadAccess (clusterOf tile) w.addr.toNat n with
          | .error f => .go (portFault s tile port f.cause f.addr none) []
          | .ok _ => .go (put s (P.wrote P.cursor)) (putBytes (spadKey (clusterOf tile) w.addr.toNat) w.data)
        else if g.isStream then
          let l := T.launchNo
          let h := streamHandle w.addr
          let o := streamOff w.addr
          if !streamReached s (some (dieOf tile)) l then idle s
          else match writeDecision s l h o n with
          | .block => .go (s.setTile tile (T.setPort port { P with winBlocked := some s.now })) []
          | .fault _ => .go (put (s.record (lateRec s tile g.ctx 0 port 2 w.addr)) (P.wrote P.cursor)) []
          | .pass =>
            match streamWrite s (some (dieOf tile)) l h o w.data with
            | none => idle s
            | some (s1, ws) => .go (put s1 (P.wrote (BitVec.ofNat 64 ((o + n) % M48)))) ws
        else when (!P.mustFlush g w.addr) s (
          match portPiece s tile P g w.xlat w.addr with
          | .error f => .go (portFault s tile port f.cause f.addr f.pri) []
          | .ok (q, u) =>
            match performStore s tile (some { no := w.no, place := 0, port := some port, ctx := g.ctx, slot := 0, bySeq := false }) q w.data w.addr with
            | none => idle s
            | some (s1, ws) => .go (put (s1.noteCluster (clusterOf tile) [u])
                ((((s1.tile tile).port port).wrote P.cursor).redirect u |>.visit g w.addr)) ws))
    | _, _ => idle s))

/-! ### Hotness (R58) -/

/-- May a port flush: it has left its window, its program has ended, with the launch or before it, or a counter has reached 2^31? -/
def Port.flushDue (P : Port) (g : PortProg) (ends : Bool) : Bool :=
  (P.delivered != 0 || P.starved != 0) &&
  (P.delivered ≥ 2 ^ 31 || P.starved ≥ 2 ^ 31 || P.ended || ends ||
    (match P.page with
     | some w => w != windowOf g (g.addr (if g.write then P.c else P.issued))
     | none => false))

/-- The 16 bytes of a hotness record: before the first access of a window, the window is that of the next access. -/
def hotRecord (P : Port) (g : PortProg) : List Byte :=
  let page := P.page.getD (windowOf g (g.addr (if g.write then P.c else P.issued))) * 2 ^ boundSpan g.psz / 2 ^ 14
  leBytes 8 (g.psz * 2 ^ 61 + page % 2 ^ 43 * 2 ^ 14) ++ leBytes 4 P.delivered ++ leBytes 4 P.starved

/-- A port flushes its hotness counters as one record, or drops the flush (R58). The manual does not say through which TLB the record's
address is translated: it is the tile's. DESIGN CHOICE, log entry 84. -/
def execHotnessFlush (tile port : Nat) (s : State) : Host.Outcome State Fault Refusal :=
  perform s (within (tile < tileCount && port < 4) (
    let T := s.tile tile
    let P := T.port port
    match P.prog with
    | none => idle s
    | some g =>
      let ends := match s.launch T.launchNo with | some L => L.phase = .ending | none => false
      when (P.flushDue g ends) s (
        let c := T.ctx g.ctx
        let clear (T : Tile) : Tile := T.setPort port { P with delivered := 0, starved := 0, page := none }
        let lose (c : Ctx) : Ctx := { c with hotovr := if c.hotovr = 0xFFFFFFFF then c.hotovr else c.hotovr + 1 }
        let drop : Act := .go (s.setTile tile ((clear T).modCtx g.ctx lose)) []
        let i := if c.hotnext.toNat < c.hotlen.toNat then c.hotnext.toNat else 0
        let a : Word := c.hotbase + BitVec.ofNat 64 (16 * i)
        if c.hotbase = 0 || c.hotlen = 0 then drop
        else match lvAccess s (clusterOf tile) c T.tlb a 16 true with
          | .error _ => drop
          | .ok ([q], _) =>
            (match performStore s tile none q (hotRecord P g) a with
             | none => idle s
             | some (s1, ws) =>
               let lost := (s.pieceBytes q).any (· != 0) && Config.hotUnread s.now
               .go (s1.modTile tile (fun _ => (clear (s1.tile tile)).modCtx g.ctx (fun c =>
                 { (if lost then lose c else c) with hotnext := BitVec.ofNat 32 ((i + 1) % c.hotlen.toNat) }))) ws)
          | .ok _ => drop)))

/-! ### Blocked parties (R290, R292, R295, R306) -/

/-- Handle and size of a blocked read of a party. -/
def blockedRead (s : State) (t : Nat) (who : Party) : Option (Nat × Nat × Nat) :=
  let T := s.tile t
  match who with
  | .port p =>
    (match (T.port p).prog with
     | some g => if (T.port p).hwmBlocked.isSome then some (streamHandle g.base, streamOff (g.addr (T.port p).issued), eszBytes g.esz) else none
     | none => none)
  | .load i => T.round.bind (fun r => (r.loads[i]?).bind (fun l =>
      if l.blocked.isSome then some (streamHandle l.addr, streamOff l.nextAddr, l.nextSize) else none))
  | .drain => none

/-- A party goes on after a wait ahead of HWM. -/
def clearRead (T : Tile) (who : Party) : Tile :=
  match who with
  | .port p => T.modPort p (fun P => { P with hwmBlocked := none })
  | .load i => { T with round := T.round.map (fun r => { r with loads := r.loads.modify i (fun l => { l with blocked := none }) }) }
  | .drain => T

/-- A blocked stream read goes on once HWM covers it, or is decided anew once T has passed it (R290, R298). -/
def execStreamReadUnblock (tile : Nat) (who : Party) (s : State) : Host.Outcome State Fault Refusal :=
  perform s (within (tile < tileCount) (
    match blockedRead s tile who with
    | none => idle s
    | some (h, o, n) =>
      match s.stream (s.tile tile).launchNo h with
      | none => .go (s.modTile tile (fun T => clearRead T who)) []
      | some st => when (st.decideRead o n != .block) s (.go (s.modTile tile (fun T => clearRead T who)) [])))

/-- Handle, offset and size of a blocked write of a party. -/
def blockedWrite (s : State) (t : Nat) (who : Party) : Option (Nat × Nat × Nat) :=
  let T := s.tile t
  match who with
  | .port p =>
    (match (T.port p).winBlocked, (T.port p).committed with
     | some _, w :: _ => some (streamHandle w.addr, streamOff w.addr, w.data.length)
     | _, _ => none)
  | .drain =>
    (match T.drain with
     | x :: _ => if x.blocked.isSome then some (streamHandle x.addr, streamOff x.addr, pieceAt (streamOff x.addr) x.data.length) else none
     | [] => none)
  | .load _ => none

/-- A party goes on after a wait at the window. -/
def clearWrite (T : Tile) (who : Party) : Tile :=
  match who with
  | .port p => T.modPort p (fun P => { P with winBlocked := none })
  | .drain => { T with drain := T.drain.modify 0 (fun x => { x with blocked := none }) }
  | .load _ => T

/-- A blocked stream write goes on once the window has room, or is decided anew once T has passed it (R292, R298). -/
def execStreamWriteUnblock (tile : Nat) (who : Party) (s : State) : Host.Outcome State Fault Refusal :=
  perform s (within (tile < tileCount) (
    match blockedWrite s tile who with
    | none => idle s
    | some (h, o, n) =>
      when (writeDecision s (s.tile tile).launchNo h o n != .block) s (.go (s.modTile tile (fun T => clearWrite T who)) [])))

/-- The parties of a tile that are blocked at marks: handle, since when, writing. -/
def tileBlocked (T : Tile) : List (Nat × Nat × Bool) :=
  (List.range 4).flatMap (fun p =>
    let P := T.port p
    match P.prog with
    | some g => (P.hwmBlocked.map (fun c => (streamHandle g.base, c, false))).toList ++
        (P.winBlocked.map (fun c => (streamHandle g.base, c, true))).toList
    | none => []) ++
  (match T.round with
   | some r => r.loads.filterMap (fun l => l.blocked.map (fun c => (streamHandle l.addr, c, false)))
   | none => []) ++
  T.drain.filterMap (fun x => x.blocked.map (fun c => (streamHandle x.addr, c, true)))

/-- The blocked parties of a launch (R306). -/
def blockedParties (s : State) (L : Launch) : List (Nat × Nat × Bool) :=
  L.place.flatMap (fun t => tileBlocked (s.tile t)) ++
  L.consist.flatMap (fun k => (s.cluster k).chains.flatMap (fun c => c.2.started.flatMap (fun x => x.blocked.map (·.2))))

/-- A blocked stream's window is extended after its spill delay (R295). -/
def execSpill (launch handle : Nat) (s : State) : Host.Outcome State Fault Refusal :=
  perform s (within (launch < 2 ^ 14 && handle < 2 ^ 15) (
    match s.launch launch, s.stream launch handle with
    | some L, some st =>
      when (st.spill && st.extent < st.limit * st.frame &&
          (blockedParties s L).any (fun p => p.1 = handle && p.2.2 && p.2.1 + st.delay ≤ s.now)) s
        (.go (s.markStream none launch handle { st with extent := st.limit * st.frame }) [])
    | _, _ => idle s))

/-- The 16 two-byte handles of a deadlock record (R306). -/
def handleWords (hs : List Nat) : List Word :=
  let all := (hs.take 16 ++ List.replicate 16 0xFFFF).take 16
  (List.range 4).map (fun i => BitVec.ofNat 64 (leNat (((all.drop (4 * i)).take 4).flatMap (leBytes 2))))

/-- Insert into a rising list without repeats. -/
def insertUp (x : Nat) : List Nat → List Nat
  | [] => [x]
  | y :: r => if x < y then x :: y :: r else if x = y then y :: r else y :: insertUp x r

/-- The stream deadlock detector of a launch's home die fires (R306). DEDUCED, log entry 71. -/
def execStreamDeadlock (launch : Nat) (s : State) : Host.Outcome State Fault Refusal :=
  perform s (within (launch < 2 ^ 14) (
    match s.launch launch with
    | none => idle s
    | some L =>
      let span := 2 ^ (s.die L.home).dlint
      let ps := blockedParties s L
      when (!L.fired && L.progress + span ≤ s.now && ps.any (fun p => p.2.1 + span ≤ s.now)) s
        (let hs := ps.foldl (fun a p => insertUp p.1 a) []
         let r : Rec :=
           { amber := false, source := 2, voided := false, cause := 0x28, ctxid := L.ctxid.toNat, die := L.home, cluster := 0,
             tile := 0, page := 0, ctx := 0, slot := 0, port := 0, value := Config.faultValue 0x28 0,
             cycle := s.now - (s.die L.home).cycleBase, info := handleWords hs, seq := 0 }
         .go ((s.record r).modLaunch launch (fun L => { L with fired := true })) [])))

/-! ### Apertures (R305) -/

/-- An aperture. -/
def State.aperture (s : State) (j : Nat) : Aperture := s.pkg.apertures.get { bind := 0, err := 0 } j
/-- Put an aperture. -/
def State.setAperture (s : State) (j : Nat) (a : Aperture) : State := s.modPkg (fun p => { p with apertures := p.apertures.put j a })
/-- An access that an aperture refuses is counted. -/
def refuseAccess (s : State) (j : Nat) : State :=
  let a := s.aperture j
  s.setAperture j { a with err := sat32 (a.err + 1) }

/-- Launch, handle and stream that a bind value names, its generation matching. -/
def bindStream (s : State) (v : Word) : Option (Nat × Nat × Stream) :=
  let l := ctxIndex (bits v 55 32)
  match s.launch l with
  | some L => if L.ctxid.toNat = bits v 55 32 then (L.streams.find (bits v 14 0)).map (fun st => (l, bits v 14 0, st)) else none
  | none => none

/-- Does a bind value meet its conditions (R305): a stream of system scope, a window of at least L × F, a declared reader? -/
def bindOk (s : State) (v : Word) : Bool :=
  bit v 63 && bits v 58 56 = 0 &&
  (match bindStream s v with
   | some (_, _, st) => st.scope = 6 && 2 ^ bits v 29 24 ≥ st.limit * st.frame && (!bit v 62 || (st.readers.find (bits v 61 59)).isSome)
   | none => false)

/-- An aperture is bound (R305): a refused value loses its valid bit, and bits [58:56] read zero. -/
def bindAperture (s : State) (j : Nat) (value : Word) : State :=
  s.setAperture j { s.aperture j with bind := if bindOk s value then value else value &&& 0x78FFFFFFFFFFFFFF }

/-- System software binds an aperture (R305). -/
def execApertureBind (j : Nat) (value : Word) (s : State) : Host.Outcome State Fault Refusal :=
  perform s (within (j < 256) (.go (bindAperture s j value) []))

/-- The live binding of an aperture. -/
def apertureOf (s : State) (j : Nat) : Option (Word × Nat × Nat × Stream) :=
  let v := (s.aperture j).bind
  if bit v 63 then (bindStream s v).map (fun q => (v, q)) else none

/-- The producer of an aperture advances HWM, or is refused (R305). -/
def hwmAperture (s : State) (j : Nat) (value : Word) : State :=
  match apertureOf s j with
  | some (v, l, h, st) =>
    (match (if bit v 62 then none else st.advanceHwm (streamOff value)) with
     | some st1 => s.markStream none l h st1
     | none => refuseAccess s j)
  | none => refuseAccess s j

/-- The host's producer advances HWM (R305). -/
def execApertureHwm (j : Nat) (value : Word) (s : State) : Host.Outcome State Fault Refusal :=
  perform s (within (j < 256) (.go (hwmAperture s j value) []))

/-- The reader of an aperture releases, or is refused (R305). -/
def relAperture (s : State) (j : Nat) (value : Word) : State :=
  match apertureOf s j with
  | some (v, l, h, st) =>
    (match (if bit v 62 then st.releaseTo (bits v 61 59) (streamOff value) false else .behind) with
     | .ok st1 => s.markStream none l h st1
     | _ => refuseAccess s j)
  | none => refuseAccess s j

/-- The host's reader releases (R305). -/
def execApertureRel (j : Nat) (value : Word) (s : State) : Host.Outcome State Fault Refusal :=
  perform s (within (j < 256) (.go (relAperture s j value) []))

/-- The count of refused accesses is cleared. -/
def clearAperture (s : State) (j : Nat) : State := s.setAperture j { s.aperture j with err := 0 }

/-- A write clears the count of refused accesses (R305). -/
def execApertureErr (j : Nat) (s : State) : Host.Outcome State Fault Refusal :=
  perform s (within (j < 256) (.go (clearAperture s j) []))

/-- What the host reads at a register of an aperture (R305): bind, HWM, the release of its reader slot, T, the count of refused
accesses. -/
def apertureRegister (s : State) (j offset : Nat) : Word :=
  let v := (s.aperture j).bind
  let mark (f : Stream → Nat) : Word := match apertureOf s j with | some (_, _, _, st) => BitVec.ofNat 64 (f st) | none => 0
  match offset with
  | 0x00 => v
  | 0x08 => mark (·.hwm)
  | 0x10 => mark (fun st => match st.readers.find (bits v 61 59) with | some r => r.release | none => 0)
  | 0x18 => mark Stream.tail
  | 0x20 => BitVec.ofNat 64 (s.aperture j).err
  | _ => 0

/-- A host write to a register of an aperture (R305). -/
def apertureWrite (s : State) (j offset : Nat) (value : Word) : State :=
  match offset with
  | 0x00 => bindAperture s j value
  | 0x08 => hwmAperture s j value
  | 0x10 => relAperture s j value
  | 0x20 => clearAperture s j
  | _ => s

/-- The stream offset that a window offset addresses (R305). -/
def apertureOff (v : Word) (st : Stream) (a : Nat) : Nat := (st.tail + gap a st.tail % 2 ^ bits v 29 24) % M48

/-- A host read through a window: never blocks (R305). -/
def apertureRead (s : State) (j offset size : Nat) : Act :=
  let ones : Message := .hostData (List.replicate size 0xFF)
  match apertureOf s j with
  | some (v, l, h, st) =>
    let o := apertureOff v st offset
    (match (if st.decideRead o size = .pass then streamRead s none l h o size else none) with
     | some (s1, bs) => .go (s1.send (.hostData bs)) []
     | none => .go ((refuseAccess s j).send ones) [])
  | none => .go ((refuseAccess s j).send ones) []

/-- A host write through a window: dropped where it would block (R305). -/
def apertureStore (s : State) (j offset : Nat) (data : List Byte) : Act :=
  match apertureOf s j with
  | some (v, l, h, st) =>
    let o := apertureOff v st offset
    (match (if !bit v 62 && st.decideWrite o data.length = .pass then streamWrite s none l h o data else none) with
     | some (s1, ws) => .go s1 ws
     | none => .go (refuseAccess s j) [])
  | none => .go (refuseAccess s j) []

/-- A read of an aperture's data window. -/
def execApertureDataRead (j offset size : Nat) (s : State) : Host.Outcome State Fault Refusal :=
  perform s (within (j < 256) (apertureRead s j offset size))

/-- A write of an aperture's data window. -/
def execApertureDataWrite (j offset : Nat) (data : List Byte) (s : State) : Host.Outcome State Fault Refusal :=
  perform s (within (j < 256) (apertureStore s j offset data))

end Sys2Proof.Machine
end

