-- ==== Sys2Proof/Machine/Matrix.lean ====
section
/-! DEFINITION. The matrix engine at work: acceptance (R316, R329), the choice of a k-step (R325, R326), its values and its bound
(R311, R332, R333), the check against the threshold (R334 to R338), and the mtx commands (R327, R328, R345). -/

namespace Sys2Proof.Machine

/-! ### Formats and rates (R310, R329) -/

/-- Depth of a k-step by the format of A. -/
def mmaDepth (mod : Nat) : Nat :=
  match mod with | 8 | 9 => 1 | 0xA | 0xB => 2 | 0xE => 8 | _ => 4
/-- FMA per cycle by the format of A and the width of accumulation. -/
def mmaRate (mod width : Nat) : Nat :=
  if width = 2 then 256
  else match mod with | 8 => 256 | 9 => 512 | 0xA | 0xB => 2048 | 0xE => 8192 | _ => 4096
/-- B format of an imm. -/
def mmaBt (imm : Nat) : Nat := imm / 2 ^ 23 % 16
/-- Rounding code of an imm. -/
def mmaRnd (imm : Nat) : Nat := imm / 2 ^ 27
/-- Base priority of an imm (R314). -/
def mmaPrio (imm : Nat) : Nat := imm / 2 ^ 5 % 4
/-- Accumulation format at a width code below INT32. -/
def accFmt (width : Nat) : Fmt := match width with | 0 => .f16 | 1 => .f32 | _ => .f64
/-- Cycles of a k-step (R329). -/
def kstepCycles (q : Kstep) : Nat := mmaM q.imm * mmaN q.imm * mmaDepth q.amod / mmaRate q.amod q.width

/-! ### Acceptance (R316, R329) -/

/-- Accept the oldest fired k-step: its settings are captured (R332). -/
def Matrix.accept (m : Matrix) (p : Kstep → Bool) : Matrix :=
  match m.queue.findIdx? p with
  | none => m
  | some i => { m with queue := m.queue.modify i (fun q => { q with accepted := true, set := (m.bank (mmaBase q.imm)).set }) }

/-- The engine accepts a fired k-step two cycles later (R316, R329). -/
def execKstepAccept (cluster : Nat) (s : State) : Host.Outcome State Fault Refusal :=
  perform s (within (cluster < clusterCount) (
    let m := (s.cluster cluster).mx
    let due (q : Kstep) : Bool := !q.accepted && q.fired + 2 ≤ s.now
    when (m.queue.any due) s (.go (s.modCluster cluster (fun K => { K with mx := K.mx.accept due })) [])))

/-! ### The choice (R325, R326, R330) -/

/-- The candidates: for each node its oldest accepted k-step, its tile's clocks running. -/
def candidates (s : State) (k : Nat) : List Kstep :=
  let m := (s.cluster k).mx
  m.queue.filter (fun q => q.accepted && !q.started && tileRuns s (k * 4 + q.node.tile) &&
    (m.queue.find? (fun r => r.node = q.node && !r.started)) = some q)

/-- The wait of a node. -/
def Matrix.wait (m : Matrix) (n : Node) : Nat := match m.waits.find? (fun p => p.1 = n) with | some p => p.2 | none => 0
/-- Put the wait of a node. -/
def Matrix.setWait (m : Matrix) (n : Node) (w : Nat) : Matrix :=
  { m with waits := m.waits.filter (fun p => p.1 != n) ++ (if w = 0 then [] else [(n, w)]) }
/-- The level of a candidate (R325). -/
def Matrix.level (m : Matrix) (q : Kstep) : Nat := min 3 (mmaPrio q.imm + m.wait q.node / 4096)
/-- Order of nodes by (tile, context, slot). -/
def Node.key (n : Node) : Nat := n.tile * 2 ^ 10 + n.ctx * 2 ^ 7 + n.slot

/-- The candidate that rules 1 to 4 of R325 choose. -/
def Matrix.choose (m : Matrix) (qs : List Kstep) : Option Kstep :=
  let top := qs.foldl (fun n q => max n (m.level q)) 0
  let high := qs.filter (fun q => m.level q = top)
  let running := if top < 3 then high.find? (fun q => m.current = some q.node) else none
  match running with
  | some q => some q
  | none => high.foldl (fun (best : Option Kstep) q => match best with
      | none => some q
      | some b => if m.wait q.node > m.wait b.node || (m.wait q.node = m.wait b.node && q.node.key < b.node.key) then some q else some b) none

/-- May a k-step start in the entry in hand (R326)? -/
def Matrix.slotAllows (m : Matrix) (q : Kstep) : Bool :=
  let e := m.slotEntry m.entry
  let d := kstepCycles q
  slotTile e = q.node.tile && slotCtx e = q.node.ctx && (d ≤ m.left || (m.begun && d > slotCycles e && slotCycles e != 0))

/-- The k-step that runs. -/
def Matrix.running (m : Matrix) : Option Kstep := m.queue.find? (fun q => q.started)
/-- The engine starts a k-step (R325, R329): its node's wait is cleared. -/
def Matrix.start (m : Matrix) (q : Kstep) (now : Nat) : Matrix :=
  { m with queue := m.queue.map (fun x => if x = q then { x with started := true } else x), current := some q.node,
           busyUntil := now + kstepCycles q, begun := false }.setWait q.node 0

/-- The k-step that starts next, at a boundary (R325, R326). -/
def nextKstep (s : State) (k : Nat) : Option Kstep :=
  let m := (s.cluster k).mx
  if m.running.isSome || s.now < m.busyUntil then none
  else m.choose (if m.slotMode then (candidates s k).filter m.slotAllows else candidates s k)

/-! ### Values (R311) -/

/-- The elements of a panel's bytes, and the flags of their decoding (R100, R311). -/
def panelVals (code : Nat) (bytes : List Nat) : List Val × Flags :=
  if code = 0xE then q4xDecode bytes
  else
    let n := codeWidth code / 8
    ((chunksOf n (bytes.length / n) bytes).map (fun l => codeVal code (l.foldr (fun b acc => acc * 256 + b) 0)), 0)

/-- One accumulator after a k-step: the value, its flags, whether it was inexact. -/
def kstepElem (width mode : Nat) (acc : Val) (ps : List (Val × Val)) : Val × Flags × Bool :=
  let s := ps.foldl (fun (x : Val × Flags) p =>
    let m := vmul p.1 p.2
    let a := vadd x.1 m.1 mode
    (a.1, x.2 ||| m.2 ||| a.2)) (acc, 0)
  if width = 3 then (Val.ofInt (signedOf 32 (s.1.snum % 2 ^ 32).toNat), 0, false)
  else
    let q := roundAcc (accFmt width) s.1 mode
    (q.1, s.2 ||| q.2, q.2 &&& flNX != 0)

/-- The products' operands of element (r, c). -/
def kstepPairs (a b : List Val) (n kd r c : Nat) : List (Val × Val) :=
  (List.range kd).map (fun i => (a.getD (r * kd + i) .zero, b.getD (i * n + c) .zero))

/-- Every accumulator of a tile after a k-step, row by row. -/
def kstepAll (m : Matrix) (q : Kstep) (a b : List Val) : List (Val × Flags × Bool) :=
  let b0 := mmaBase q.imm
  let n := mmaN q.imm
  (List.range (mmaM q.imm)).flatMap (fun r => (List.range n).map (fun c =>
    kstepElem q.width (mmaRnd q.imm) (m.acc b0 n q.width r c) (kstepPairs a b n (mmaDepth q.amod) r c)))

/-- Put the accumulators of a tile, row by row, into its banks (R312). -/
def Matrix.putTile (m : Matrix) (b0 width mm n : Nat) (vals : List Val) : Matrix :=
  let bw := bankCols width
  (tileBankList b0 mm n width).foldl (fun m b =>
    let rel := b - b0
    let nbw := ceilDiv n bw
    let words : Tbl (Bool × Nat × Nat × Nat) := (List.range 64).flatMap (fun r => (List.range bw).filterMap (fun c =>
      let col := rel % nbw * bw + c
      if col < n then some (r * bw + c, (vals.getD ((rel / nbw * 64 + r) * n + col) .zero).hold) else none))
    m.modBank b (fun k => { k with acc := words })) m

/-! ### Bounds (R332, R333) -/

/-- The greatest magnitude of a list. -/
def maxAbs (l : List Val) : Val := l.foldl vmaxAbs .zero

/-- bnd and mx after a k-step: the values before rounding follow R332, non-finite values R333. -/
def kstepBound (bnd0 : BitVec 16) (q : Kstep) (a b : List Val) (rs : List (Val × Flags × Bool)) : BitVec 16 × BitVec 16 :=
  let accs := rs.map (fun r => r.1)
  if (a ++ b ++ accs).any (·.special) then (0xFFFF, 0xFFFF)
  else
    let p := (accFmt q.width).prec
    let e : Val := if mmaRnd q.imm = 0 then .fin false 1 (2 ^ p) else .fin false 2 (2 ^ p)
    let ri := maxAbs ((rs.filter (fun r => r.2.2)).map (fun r => r.1))
    let mA := maxAbs a
    let mB := maxAbs b
    let ea := bndVal q.set.ea
    let eb := bndVal q.set.eb
    let kd := Val.ofInt (mmaDepth q.amod)
    let t := bndAdd (bndAdd (bndVal bnd0) (bndMul e ri)) (bndMul kd (bndAdd (bndAdd (bndMul ea mB) (bndMul mA eb)) (bndMul ea eb)))
    (toBnd t, toBnd (maxAbs accs))

/-- Does a tile pass its threshold (R334)? -/
def passes (bnd mx : BitVec 16) (set : BndSet) : Bool :=
  (bnd = 0xFFFF && set.thr != 0xFFFF) ||
  (if set.rel then vlt (bndMul (bndVal set.thr) (bndVal mx)) (bndVal bnd) else vlt (bndVal set.thr) (bndVal bnd))

/-- What a passing tile raises (R334, R337). -/
inductive Passed | escalate | trap (reason : Nat)
deriving DecidableEq, Repr

/-- Escalation or trap (R334): steps are those the node has taken in its run, operand says that R333 arose from an operand.
Where several reasons hold, the operand comes first, then the order of R337 (DEDUCED, log entry 22). -/
def judgePass (q : Kstep) (steps : Nat) (operand : Bool) : Passed :=
  let top := q.width ≥ 2
  let next := tileBanks (mmaM q.imm) (mmaN q.imm) (q.width + 1)
  if operand then .trap 3
  else if top then .trap 0
  else if steps ≥ q.set.lim then .trap 1
  else if mmaBase q.imm + next > 4 then .trap 2
  else .escalate

/-- What a k-step leaves: the engine, the round's flags, bnd and mx, and whether an operand was non-finite. -/
structure KstepDone where
  mx : Matrix
  flags : Flags
  bnd : BitVec 16
  max : BitVec 16
  operand : Bool

/-- Perform a k-step on its tile (R311, R332, R333). -/
def performKstep (m : Matrix) (q : Kstep) : KstepDone :=
  let b0 := mmaBase q.imm
  let A := panelVals q.amod q.a
  let B := panelVals (mmaBt q.imm) q.b
  let rs := kstepAll m q A.1 B.1
  let m1 := m.putTile b0 q.width (mmaM q.imm) (mmaN q.imm) (rs.map (fun r => r.1))
  let bd := if q.width = 3 then ((m.bank b0).bnd, (m.bank b0).mx) else kstepBound (m.bank b0).bnd q A.1 B.1 rs
  let m2 := m1.modBank b0 (fun k => { k with bnd := bd.1, mx := bd.2 })
  { mx := { m2 with queue := m2.queue.erase q, performed := m2.performed + 1 }.finishGroups,
    flags := if q.width = 3 then 0 else A.2 ||| B.2 ||| flAll (rs.map (fun r => r.2.1)),
    bnd := bd.1, max := bd.2, operand := (A.1 ++ B.1).any (·.special) }

/-! ### The k-step (R311, R318, R325, R334 to R338) -/

/-- The round that a k-step was fired in, if it is in hand. -/
def roundOfKstep (s : State) (k : Nat) (q : Kstep) : Bool :=
  match (s.tile (k * 4 + q.node.tile)).round with
  | some r => r.ctx = q.node.ctx && r.no = q.round
  | none => false

/-- Flags of a k-step: for its round before the commit, into fstat after it (R311). -/
def kstepFlags (s : State) (k : Nat) (q : Kstep) (fl : Flags) : State :=
  s.modTile (k * 4 + q.node.tile) (fun T =>
    if roundOfKstep s k q then { T with round := T.round.map (fun r => { r with flags := r.flags ||| fl }) }
    else T.modCtx q.node.ctx (fun c => { c with fstat := c.fstat ||| fl }))

/-- The mma nodes of a context with the gang and split fields of an immediate. -/
def gangSlots (c : Ctx) (imm : Nat) : List Nat :=
  c.block.slots.filterMap (fun w =>
    if slotOp w.2 = 0x89 && gangFields (slotFields w.2).imm.toNat = gangFields imm then some w.1 else none)

/-- Void the round of a tile and the rounds bound with it by a gang (R324), without a record. -/
def voidSet (s : State) (t ctx : Nat) : State :=
  ((gangOf s t ctx).filter (inSet s t ctx)).foldl (fun s p => voidRound s p.1) (voidRound s t)

/-- A node's width rises by a step (R336). -/
def Ctx.stepUp (c : Ctx) (slot : Nat) : Ctx := { c with steps := c.steps.put slot (c.steps.get 0 slot + 1) }

/-- Escalation (R336): the rounds are voided, the widths rise, the count grows. -/
def escalate (s : State) (k : Nat) (q : Kstep) : State :=
  let t := k * 4 + q.node.tile
  let gang := if (q.imm / 512) % 4 != 0 then peersOf s t (gangFields q.imm) else []
  let s1 := (voidSet s t q.node.ctx).modTile t (fun T => T.modCtx q.node.ctx (fun c => c.stepUp q.node.slot))
  let s2 := gang.foldl (fun s p =>
    s.modTile p.1 (fun T => T.modCtx p.2 (fun c => (gangSlots c q.imm).foldl Ctx.stepUp c))) s1
  (s2.modCluster k (fun K => { K with mx := { K.mx with escalations := sat32 (K.mx.escalations + 1) } })).count (tmKey 2 (dieOfCluster k) 0 0) 1

/-- The value field of a bound trap's record (R337). -/
def trapValue (q : Kstep) (reason : Nat) (bnd mx : BitVec 16) : Word :=
  BitVec.ofNat 64 (reason * 2 ^ 53 + q.set.rel.toNat * 2 ^ 52 + q.width * 2 ^ 50 + mmaBase q.imm * 2 ^ 48 + q.set.thr.toNat * 2 ^ 32 +
    mx.toNat * 2 ^ 16 + bnd.toNat)

/-- The bound trap (R337): the rounds are voided with their records, the context stops, and a resume leaves out the next check of
the node that trapped (R338). -/
def boundTrap (s : State) (k : Nat) (q : Kstep) (reason : Nat) (bnd mx : BitVec 16) : State :=
  let t := k * 4 + q.node.tile
  let s1 := fabricFault s t q.node.slot 0 6 0x27 (trapValue q reason bnd mx) none
  let s2 := s1.modTile t (fun T => T.modCtx q.node.ctx (fun c => { c with stopped := some (.cause 0x27 [q.node.slot]) }))
  (s2.modCluster k (fun K => { K with mx := { K.mx with traps := sat32 (K.mx.traps + 1) } })).count (tmKey 2 (dieOfCluster k) 1 0) 1

/-- A k-step performed and checked. -/
def runKstep (s : State) (k : Nat) (q : Kstep) : State :=
  let d := performKstep (s.cluster k).mx q
  let s1 := kstepFlags (s.modMx k (fun _ => d.mx)) k q d.flags
  if q.width = 3 || !q.check || !roundOfKstep s k q || !passes d.bnd d.max q.set then s1
  else match judgePass q (((s.tile (k * 4 + q.node.tile)).ctx q.node.ctx).steps.get 0 q.node.slot) d.operand with
    | .escalate => escalate s1 k q
    | .trap reason => boundTrap s1 k q reason d.bnd d.max

/-- A boundary of the engine (R311, R325, R329): the k-step that runs is performed whole as its cycles end, else the one that the engine
chooses starts. DEDUCED, log entry 23. -/
def execKstep (cluster : Nat) (s : State) : Host.Outcome State Fault Refusal :=
  perform s (within (cluster < clusterCount) (
    match (s.cluster cluster).mx.running with
    | some q => when ((s.cluster cluster).mx.busyUntil ≤ s.now) s (.go (runKstep s cluster q) [])
    | none =>
      match nextKstep s cluster with
      | none => idle s
      | some q => .go (s.modCluster cluster (fun K => { K with mx := K.mx.start q s.now })) []))

/-! ### The SLOT walk (R326) -/

/-- The walk at the end of an entry: a replacement is taken up and restarts it at entry 0; else the next entry, or entry 0 at
the table's end. -/
def Matrix.nextEntry (m : Matrix) : Matrix :=
  match m.newTable with
  | some t => { m with table := t, newTable := none }.enter 0
  | none => if m.entry + 1 < 64 && slotCycles (m.slotEntry (m.entry + 1)) != 0 then m.enter (m.entry + 1) else m.enter 0

/-- The SLOT walk reaches the end of an entry (R326), once a k-step that overran it has ended. -/
def execSlotEntryBoundary (cluster : Nat) (s : State) : Host.Outcome State Fault Refusal :=
  perform s (within (cluster < clusterCount) (
    let m := (s.cluster cluster).mx
    when (m.slotMode && m.left = 0 && m.running.isNone && m.busyUntil ≤ s.now) s
      (.go (s.modCluster cluster (fun K => { K with mx := K.mx.nextEntry })) [])))

/-! ### Commands (R327, R328) -/

/-- A matrix command ends: record bytes 8 to 15 echo x[a]. -/
def endMtx (s : State) (k tile : Nat) (x : Cmd) (status : Nat) : State := endCmd s k tile x status (leBytes 8 x.a.toNat)

/-- mx.mode (R327): from the next k-step boundary. -/
def execMxMode (cluster tile : Nat) (s : State) : Host.Outcome State Fault Refusal :=
  engineOp 4 1 true false cluster tile s (fun s x =>
    let m := (s.cluster cluster).mx
    if x.a.toNat > 1 || x.b != 0 then (endMtx s cluster tile x 0x11, [])
    else if m.running.isSome || s.now < m.busyUntil then (s, [])
    else if x.a = 0 && (matrixContexts s cluster).length > 4 then (endMtx s cluster tile x 0x20, [])
    else
      let m1 : Matrix := if x.a = 0 then { m with slotMode := false } else { m with slotMode := true }.enter 0
      (endMtx (s.modCluster cluster (fun K => { K with mx := m1 })) cluster tile x 0, []))

/-- The 64 entries of a SLOT table in the scratchpad. -/
def readTable (s : State) (k off : Nat) : List (BitVec 32) :=
  (List.range 64).map (fun i => BitVec.ofNat 32 (leNat (spadBytes s k (off + 4 * i) 4)))

/-- Has a context of a cluster mma nodes? -/
def hasMma (s : State) (k tile ctx : Nat) : Bool := ((s.tile (k * 4 + tile)).ctx ctx).block.slots.any (fun w => slotOp w.2 = 0x89)

/-- Is a replacement table acceptable (R327)? -/
def tableOk (s : State) (k : Nat) (t : List (BitVec 32)) : Bool :=
  t.all (fun e => bits e 10 0 = 0) && (t.takeWhile (fun e => slotCycles e != 0)).all (fun e => hasMma s k (slotTile e) (slotCtx e))

/-- mx.slot (R327): taken up at the next entry boundary; in PRIO mode no entry runs, and the table is replaced at once.
DEDUCED, log entry 58. -/
def execMxSlot (cluster tile : Nat) (s : State) : Host.Outcome State Fault Refusal :=
  engineOp 4 2 true false cluster tile s (fun s x =>
    let off := x.a.toNat % 2 ^ 21
    if off % 64 != 0 || off + 256 > 2 ^ 21 || x.b != 0 then (endMtx s cluster tile x 0x11, [])
    else
      let t := readTable s cluster off
      if !tableOk s cluster t then (endMtx s cluster tile x 0x21, [])
      else
        let put (m : Matrix) : Matrix := if m.slotMode then { m with newTable := some t } else { m with table := t, newTable := none }
        (endMtx (s.modCluster cluster (fun K => { K with mx := put K.mx })) cluster tile x 0, []))

/-- Empty the tiles of the named banks that hold complete ones. -/
def Matrix.free (m : Matrix) (mask : Nat) : Matrix :=
  (List.range 4).foldl (fun m b =>
    let k := m.bank b
    if mask.testBit b && k.tag = .complete then m.onTile k.first (fun k => { k with tag := Tag.empty, readOut := false }) else m) m

/-- mx.free (R327): it waits while a copy command holds one of the tiles (R354). -/
def execMxFree (cluster tile : Nat) (s : State) : Host.Outcome State Fault Refusal :=
  engineOp 4 3 false false cluster tile s (fun s x =>
    let m := (s.cluster cluster).mx
    let mask := x.a.toNat
    if mask ≥ 16 || x.b != 0 then (endMtx s cluster tile x 0x11, [])
    else if (List.range 4).any (fun b => mask.testBit b && (m.bank b).tag = .open_) then (endMtx s cluster tile x 0x22, [])
    else if (List.range 4).any (fun b => mask.testBit b && (m.bank b).tag = .complete && (s.cluster cluster).copyHolds (m.bank b).first) then (s, [])
    else (endMtx (s.modMx cluster (fun m => m.free mask)) cluster tile x 0, []))

/-- Tag of a bank as a number. -/
def Tag.code : Tag → Nat | .empty => 0 | .open_ => 1 | .complete => 2
/-- Bytes 4 + b and 8 + b of the image for a bank (R328). -/
def bankByte (k : Bank) : Nat := if k.tag = .empty then 0 else k.tag.code + k.first * 4 + k.width * 16
/-- Owner byte. -/
def ownerByte (k : Bank) : Nat := if k.tag = .empty then 0 else k.owner.tile * 8 + k.owner.ctx

/-- The 64-byte state image (R328, R345). -/
def matrixImage (m : Matrix) : List Byte :=
  let banks := (List.range 4).map m.bank
  leBytes 1 m.slotMode.toNat ++ leBytes 1 m.entry ++ leBytes 2 0 ++ banks.flatMap (fun k => leBytes 1 (bankByte k)) ++
    banks.flatMap (fun k => leBytes 1 (ownerByte k)) ++ leBytes 4 0 ++ leBytes 8 m.performed ++ leBytes 8 m.idle ++
    banks.flatMap (fun k => leBytes 2 k.bnd.toNat ++ leBytes 2 k.mx.toNat ++ leBytes 2 k.set.obnd.toNat) ++
    leBytes 4 m.escalations ++ leBytes 4 m.traps

/-- mx.rd (R327, R328): a snapshot between k-steps. -/
def execMxRd (cluster tile : Nat) (s : State) : Host.Outcome State Fault Refusal :=
  engineOp 4 4 false false cluster tile s (fun s x =>
    let off := x.a.toNat % 2 ^ 21
    if off % 64 != 0 || x.b != 0 then (endMtx s cluster tile x 0x11, [])
    else if (s.cluster cluster).mx.running.isSome then (s, [])
    else (endMtx s cluster tile x 0, putBytes (spadKey cluster off) (matrixImage (s.cluster cluster).mx)))

end Sys2Proof.Machine
end

