-- ==== Sys2Proof/Machine/Control.lean ====
section
/-! DEFINITION. System software's control of a launch (R272): preempt with its readout and save frames (R273 to R279), restore, resume
and kill. -/

namespace Sys2Proof.Machine

/-! ### The launch-control register (R272) -/

/-- The op field. -/
def ctlOp (w : Word) : Nat := bits w 63 60
/-- The context identifier. -/
def ctlCtxid (w : Word) : Nat := bits w 55 32
/-- The page. -/
def ctlPage (w : Word) : Nat := bits w 3 0
/-- Are the reserved fields zero, the page field included where the op takes no page? -/
def ctlReserved (w : Word) : Bool := bits w 59 56 = 0 && bits w 31 4 = 0 && (ctlOp w = 3 || ctlPage w = 0)

/-- A write of the launch-control register with an op: busy, then bad op and reserved fields, then the context, the page, a die that does not hold
the page, as no such context, a launch that accepts only kill; then the operation. R272 gives the results no order. DESIGN CHOICE, log entry 101.
The write of another op is another row's. -/
def controlOp (op die : Nat) (word : Word) (s : State) (body : Nat → Launch → Act) : Host.Outcome State Fault Refusal :=
  perform s (within (die < dieCount) (
    let fail (r : Nat) : Act := .go (setResult s die r) []
    if (s.die die).busy then idle s
    else if ctlOp word < 1 || ctlOp word > 4 then fail 2
    else if ctlOp word != op then idle s
    else if !ctlReserved word then fail 2
    else
      let l := ctxIndex (ctlCtxid word)
      match s.launch l with
      | none => fail 1
      | some L =>
        if L.ctxid.toNat != ctlCtxid word then fail 1
        else if op = 3 && ctlPage word ≥ L.pages then fail 2
        else if controlDie L (ctlPage word) != die then fail 1
        else if L.dead && op != 4 then fail 3
        else body l L))

/-- Has a tile a record that holds no slot yet? Its source stays stopped (R280), and a pre-emption comes after it (R284). -/
def unplaced (s : State) (t : Nat) : Bool := (s.die (dieOf t)).waiting.any (fun r => r.cluster = clusterOf t % 40 && r.tile = t % 4)

/-! ### Preempt (R273, R276) -/

/-- The save frame of a page that has none. -/
def noSaved : Saved := { frame := 0, cycle := 0, tile := 0, image := Tile.reset }

/-- Free save frames of a die, ascending. -/
def freeFrames (D : Die) : List Nat := (List.range D.spcount).filter (fun f => !(D.framesUsed.contains f))

/-- Gate or ungate the tiles of a list. -/
def gateTiles (s : State) (ts : List Nat) (v : Bool) : State := ts.foldl (fun s t => s.modTile t (fun T => { T with gated := v })) s

/-- preempt (R273 step 1, R276): each page gets a save frame and its tile's clocks are gated; busy until the readout ends. -/
def execPreempt (die : Nat) (word : Word) (s : State) : Host.Outcome State Fault Refusal :=
  controlOp 1 die word s (fun l L =>
    let free := freeFrames (s.die L.home)
    if !(L.phase = .configuring || L.phase = .waved || L.phase = .running) || !L.saved.isEmpty then .go (setResult s die 3) []
    else if free.length < L.pages then .go (setResult s die 4) []
    else if L.place.any (unplaced s) then idle s
    else
      let fs := free.take L.pages
      let saved := (List.range L.pages).map (fun q =>
        let t := L.place.getD q 0
        ({ frame := fs.getD q 0, cycle := s.now - (s.die (dieOf t)).cycleBase, tile := t, image := s.tile t } : Saved))
      let s1 := gateTiles s (L.consist.flatMap (fun k => (List.range 4).map (k * 4 + ·))) true
      let s2 := s1.modDie L.home (fun D => { D with framesUsed := D.framesUsed ++ fs })
      .go ((s2.modDie die (fun D => { D with busy := true })).setLaunch l { L with saved := saved }) [])

/-! ### Readout (R273 steps 2 to 4) -/

/-- The place where the scratchpad of a consist position stands while its launch is read out. -/
def savedSpad (l pos : Nat) : Nat := regionKey 7 (l * 16 + pos) 0

/-- A tile as it is saved: a cfgs in progress is abandoned (R274). -/
def savedImage (T : Tile) (abandon : Bool) : Tile :=
  { T with gated := false, ctxs := if abandon then T.ctxs.map (fun c => (c.1, { c.2 with staged := none })) else T.ctxs }

/-- The readout of a preempted launch ends (R273): frames written, clusters saved, zeroed (R28) and freed, busy cleared. -/
def execReadoutComplete (launch : Nat) (s : State) : Host.Outcome State Fault Refusal :=
  perform s (within (launch < 2 ^ 14) (
    match s.launch launch with
    | none => idle s
    | some L =>
      when (!L.saved.isEmpty && L.phase != .readOut && L.consist.all (readoutReady s) &&
          (L.phase != .configuring || L.cfg.index = 0)) s
        (let abandon := L.cfg.by_.isSome
         let home := s.die L.home
         let saved := (List.range L.pages).map (fun q =>
           let x := L.saved.getD q noSaved
           { x with image := savedImage (s.tile (L.place.getD q 0)) abandon })
         let ws := (List.range L.pages).flatMap (fun q =>
           let x := saved.getD q noSaved
           frameWrites s.mem (sramKey L.home (frameAddr home x.frame)) (L.place.getD q 0) x.image L.ctxid.toNat q x.cycle)
         let spads := (List.range L.consist.length).flatMap (fun i => copyRegion s.mem (spadKey (L.consist.getD i 0) 0) (savedSpad launch i) (2 ^ 21))
         let L1 : Launch :=
           { L with phase := .readOut, resumeTo := L.phase, saved := saved, savedClusters := L.consist.map s.cluster, consist := [],
                    place := [], cfg := if abandon then Cfg.reset else L.cfg }
         .go (setResult ((freeClusters s L.consist).setLaunch launch L1) (controlDie L 0) 0) (ws ++ spads ++ clearSpads s.mem L.consist))))

/-! ### Restore (R275) -/

/-- restore (R275): the page set is placed again through the allocator, once clusters are free, and every tile and cluster comes back
from the save frames; the home die follows what the dies that held it have seen (R75). A launch read out between two pages goes on with the
remaining steps of its configuration (R29). DEDUCED, log entry 56. -/
def execRestore (die : Nat) (word : Word) (s : State) : Host.Outcome State Fault Refusal :=
  controlOp 2 die word s (fun l L =>
    if L.phase != .readOut then .go (setResult s die 3) []
    else match chooseClusters s L.home L.savedClusters.length with
      | none => idle s
      | some cs =>
        let home := s.die L.home
        let key (q : Nat) : Nat := sramKey L.home (frameAddr home (L.saved.getD q noSaved).frame)
        let place := (List.range L.pages).map (fun q => cs.getD (q / L.density) 0 * 4 + q % L.density)
        let s0 := mergeClock s L.home (L.saved.foldl (fun c x => clockJoin c (s.die (dieOf x.tile)).clock) [])
        let s1 := (List.range cs.length).foldl (fun s i =>
          s.modCluster (cs.getD i 0) (fun K => clusterFrom K (L.savedClusters.getD i Cluster.reset))) s0
        let s2 := (List.range L.pages).foldl (fun s q =>
          let x := L.saved.getD q noSaved
          let t := place.getD q 0
          s.setTile t ((tileFrom s (clusterOf t) (key q) x.image).moveTo (clusterOf x.tile) (clusterOf t))) s1
        let L1 := (List.range cs.length).foldl (fun L i => rehome L i (cs.getD i 0))
          { L with phase := L.resumeTo, consist := cs, place := place, saved := [], savedClusters := [] }
        let s3 := (s2.setLaunch l L1).modDie L.home (fun D =>
          { D with framesUsed := D.framesUsed.filter (fun f => !(L.saved.any (fun x => x.frame = f))) })
        let ws := (List.range cs.length).flatMap (fun i => copyRegion s.mem (savedSpad l i) (spadKey (cs.getD i 0) 0) (2 ^ 21)) ++
          (List.range L.pages).flatMap (fun q => putBytes (privKey (place.getD q 0) 0) (s.mem.bytes (key q + 0xC000) 0x10000)) ++
          (s.mem.filter (fun c => keyKind c.1 = 7 && keyIndex c.1 / 16 = l)).map (fun c => (c.1, (0 : Byte)))
        let moved := (List.range L.pages).any (fun q => (L.saved.getD q noSaved).tile != place.getD q 0)
        let r := if moved then launchReport s3 L1 5 else (s3, [])
        let q := if between L1 then configureFrom r.1 l L1.cfg.page else (r.1, [])
        .go (setResult q.1 die 0) (ws ++ r.2 ++ q.2))

/-! ### Resume (R183, R269, R272, R352) -/

/-- A stopped context replays its voided round; one that awaits a PRI answer goes on waiting (R269). -/
def resumeCtx (c : Ctx) : Ctx :=
  match c.stopped with
  | some (.cause _ un) => { c with stopped := none, unchecked := un }
  | _ => c

/-- A command that a slate cause stopped goes on with the granules it has not performed (R352); a red.est whose claim or chunk timed out
(R399) goes on in its session. -/
def resumeCmd (x : Cmd) : Cmd :=
  match x.stage, x.desc with
  | .faulted 0x2A _ n, some d => { x with stage := if x.eng = 2 && x.cmd = 2 then .session d else .begun n }
  | .faulted _ _ n, _ => { x with stage := .begun n }
  | _, _ => x
/-- The chain of a resumed page starts commands again. -/
def resumeChain (c : Chain) : Chain := { c with stopped := false, started := c.started.map resumeCmd }

/-- A sequencer with a trap pending (R183): the instruction executes again, or execution goes on past it after the check of R154. A
trap taken in system mode is not resumed into itself. -/
def resumeSeq (s : State) (t : Nat) : State :=
  let q := (s.tile t).seq
  if q.phase != .stopped || q.mode then s
  else if q.tcause.getLsbD 30 = false then s.modSeq t (fun q => { q with phase := .running, pc := q.tepc })
  else if q.tepc = 0x3FFF then takeTrap s t 3 0x10000 (s.xaAt t 0xFFFC) true
  else s.modSeq t (fun q => { q with phase := .running, pc := q.tepc + 1 })

/-- resume (R272): every stopped part of the page goes on. -/
def execResume (die : Nat) (word : Word) (s : State) : Host.Outcome State Fault Refusal :=
  controlOp 3 die word s (fun _ L =>
    match L.place[ctlPage word]? with
    | none => .go (setResult s die 3) []
    | some t =>
      if unplaced s t then idle s
      else
        let s1 := s.modTile t (fun T => { T with ctxs := T.ctxs.map (fun c => (c.1, resumeCtx c.2)) })
        let s2 := s1.modCluster (clusterOf t) (fun K =>
          [1, 2, 3, 4].foldl (fun K e => K.setChain e (t % 4) (resumeChain (K.chain e (t % 4)))) K)
        .go (setResult (resumeSeq s2 t) die 0) [])

/-! ### Kill (R272, R352, R383) -/

/-- A killed context. -/
def killCtx (c : Ctx) : Ctx := { c with run := none, stopped := none, staged := none }
/-- A port of a killed tile. -/
def killPort (p : Port) : Port :=
  { p with buf := [], toks := [], loan := false, committed := p.committed.filter (fun w => !bit w.addr 63) }
/-- A killed tile: no round, run or instruction goes on; stores to the launch's own streams, which end with it, are dropped.
DEDUCED, log entry 57. -/
def killTile (T : Tile) : Tile :=
  { T with round := none, arrivals := [], seq := { T.seq with phase := .idle, loads := [], task := none }, seam := [],
           ctxs := T.ctxs.map (fun c => (c.1, killCtx c.2)), drain := T.drain.filter (fun h => !bit h.addr 63),
           ports := T.ports.map (fun p => (p.1, killPort p.2)) }

/-- Commands that have not started are discarded; of the started ones, those that wait without bound. They complete with the kill, without a
record (R180, R352). -/
def killChain (c : Chain) : Chain :=
  let gone := (c.started.filter Cmd.parked).map (·.seq) ++ (List.range (c.next - c.first)).map (c.first + ·)
  gone.foldl Chain.finish { c with head := c.tail, first := c.next, notes := [], stopped := false }

/-- The timelines of the chains of a cluster follow what has completed (R172, R180). -/
def Cluster.followChains (K : Cluster) : Cluster := K.chains.foldl (fun K c => K.completeTl (c.1 + 44) c.2.upTo) K

/-- A task that runs no more. -/
def stopTask (x : Task) : Task := { x with running := false }
/-- A killed cluster: its graph is over. -/
def killCluster (K : Cluster) : Cluster :=
  let K1 : Cluster := { K with final := true, tasks := K.tasks.map (fun x => (x.1, stopTask x.2)),
                               chains := K.chains.map (fun c => (c.1, killChain c.2)), mx := { K.mx with queue := [], gathers := [] } }
  K1.followChains

/-- End a launch with no further round or instruction; retirement follows with status 6. -/
def killLaunch (s : State) (l : Nat) : State :=
  match s.launch l with
  | none => s
  | some L =>
    let s1 := L.consist.foldl (fun s k =>
      (List.range 4).foldl (fun s j => s.modTile (k * 4 + j) killTile) (s.modCluster k killCluster)) s
    let s2 := (dropPreempt s1 L).modDie L.home (fun D => { D with framesUsed := D.framesUsed.filter (fun f => !(L.saved.any (fun x => x.frame = f))) })
    s2.setLaunch l { L with phase := .ending, status := 6, dead := true, session := none, reds := [], cfg := Cfg.reset, saved := [] }

/-- kill (R272): it follows the placing of every record of the launch (R285). -/
def execKill (die : Nat) (word : Word) (s : State) : Host.Outcome State Fault Refusal :=
  controlOp 4 die word s (fun l L => when (!(L.place.any (unplaced s))) s (.go (setResult (killLaunch s l) die 0) []))

end Sys2Proof.Machine
end

