-- ==== Sys2Proof/Machine/FabCmp.lean ====
section
/-! DEFINITION. Compares and predicates of the fabric (R219). -/

namespace Sys2Proof.Machine

/-- The compares of R219 on encodings of a type: 0 equal, 1 not equal, 2 less, 3 less or equal. A signalling NaN raises NV in
all four, any NaN in the last two. -/
def compareCode (c which a b : Nat) : Bool × Flags :=
  match fmtOf c with
  | none =>
    let x := intOf c a
    let y := intOf c b
    ((match which with | 0 => x == y | 1 => x != y | 2 => decide (x < y) | _ => decide (x ≤ y)), 0)
  | some f =>
    let x := decodeFmt f a
    let y := decodeFmt f b
    let nan := x.isNan || y.isNan
    let fl := flIf (x.isSnan || y.isSnan || (nan && which ≥ 2)) flNV
    ((match which with
      | 0 => veq x y | 1 => !veq x y | 2 => vlt x y | _ => vlt x y || veq x y), fl)

/-- A compare of two scalar tokens. -/
def compareOp (op which : Nat) (f : FabWord) (s : State) : Host.Outcome State Fault Refusal :=
  bitOp op f s (fun l r => compareCode (typeOf f) which (l.low (codeWidth (typeOf f))) (r.low (codeWidth (typeOf f))))

/-- ceq (R219). -/
def execFabCeq (f : FabWord) (s : State) : Host.Outcome State Fault Refusal :=
  compareOp 0x28 0 f s
/-- cne (R219). -/
def execFabCne (f : FabWord) (s : State) : Host.Outcome State Fault Refusal :=
  compareOp 0x29 1 f s
/-- clt (R219). -/
def execFabClt (f : FabWord) (s : State) : Host.Outcome State Fault Refusal :=
  compareOp 0x2A 2 f s
/-- cle (R219). -/
def execFabCle (f : FabWord) (s : State) : Host.Outcome State Fault Refusal :=
  compareOp 0x2B 3 f s
/-- pand (R219). -/
def execFabPand (f : FabWord) (s : State) : Host.Outcome State Fault Refusal :=
  bitOp 0x2C f s (fun l r => (l.bits.getLsbD 0 && r.bits.getLsbD 0, 0))
/-- por (R219). -/
def execFabPor (f : FabWord) (s : State) : Host.Outcome State Fault Refusal :=
  bitOp 0x2D f s (fun l r => (l.bits.getLsbD 0 || r.bits.getLsbD 0, 0))
/-- pnot (R219). -/
def execFabPnot (f : FabWord) (s : State) : Host.Outcome State Fault Refusal :=
  bitOp 0x2E f s (fun l _ => (!l.bits.getLsbD 0, 0))
/-- pxor (R219). -/
def execFabPxor (f : FabWord) (s : State) : Host.Outcome State Fault Refusal :=
  bitOp 0x2F f s (fun l r => (l.bits.getLsbD 0 ^^ r.bits.getLsbD 0, 0))

end Sys2Proof.Machine
end

