-- ==== Sys2Proof/Machine/FabControl.lean ====
section
/-! DEFINITION. Exits, nulls and barrier arrivals of the fabric (R242 to R244). -/

namespace Sys2Proof.Machine

/-- exit (R242): a refusing predicate does not count; a null, a stop or a null predicate counts as done. R210 decides the
run from the levels and the end bit. -/
def execFabExit (f : FabWord) (s : State) : Host.Outcome State Fault Refusal :=
  let imm := f.imm.toNat
  fabric 0x90 f s (fun e =>
    match e.operands with
    | none => .wait
    | some h =>
      if !(h.pred.any (·.null)) && refuses f 0x90 h.pred then .ok e.consume
      else
        let null := (h.vals ++ h.pred.toList).any (·.null)
        let ends := !null && (if h.l.level = 0 then imm / 8 % 2 = 1 else imm % 8 != 0 && h.l.level ≥ imm % 8)
        { e.consume with r := { e.consume.r with ends := e.r.ends || ends } }.count)

/-- null (R243): null tokens for data and null, the rule of R196 for a stop token. -/
def execFabNull (f : FabWord) (s : State) : Host.Outcome State Fault Refusal :=
  fabric 0x91 f s (fun e => e.table (fun _ e => e) (fun e h => e.consume.emitNull h.deps))

/-- bar (R244): a data firing holds one arrival for commit. -/
def execFabBar (f : FabWord) (s : State) : Host.Outcome State Fault Refusal :=
  fabric 0x92 f s (fun e => e.table (fun _ e => e) (fun e h =>
    e.consume.count.andThen (fun e1 =>
      { e1 with r := { e1.r with bars := e1.r.bars ++ [f.imm.toNat % 1024] } }.send 1 (bitTok true h.deps))))

end Sys2Proof.Machine
end

