-- ==== Sys2Proof/Machine/FabInt.lean ====
section
/-! DEFINITION. Integer opcodes of the fabric (R218), and their rules on one lane, which the vector opcodes share (R223). -/

namespace Sys2Proof.Machine

/-- A rule on two integers of a type, its result modulo 2^w (R218). -/
def intLane (c : Nat) (fn : Int → Int → Int) : LaneFn := fun a b z => (intBits c (fn (intOf c a) (intOf c b)), 0, z)
/-- A rule on bits. -/
def bitLane (c : Nat) (fn : Nat → Nat → Nat) : LaneFn := fun a b z => (fn a b % 2 ^ codeWidth c, 0, z)
/-- A saturating rule (R108, R218): NV when clamped. -/
def satLane (c : Nat) (fn : Int → Int → Int) : LaneFn := fun a b z =>
  let r := sat c (fn (intOf c a) (intOf c b))
  (intBits c r.1, flIf r.2 flNV, z)
/-- mulh: the high half of the product (R218). -/
def mulhInt (c : Nat) (a b : Int) : Int := a * b / (2 ^ codeWidth c : Nat)
/-- div with the corners of R147 at width w (R218). -/
def divInt (c : Nat) (a b : Int) : Int := if codeSigned c then divS (codeWidth c) a b else divU (codeWidth c) a.toNat b.toNat
/-- rem with the corners of R147 at width w (R218). -/
def remInt (c : Nat) (a b : Int) : Int := if codeSigned c then remS (codeWidth c) a b else remU a.toNat b.toNat
/-- shl (R218): the count modulo w. -/
def shlLane (c : Nat) : LaneFn := bitLane c (fun a b => a <<< (b % codeWidth c))
/-- shr (R218): sign fill for a signed type. -/
def shrLane (c : Nat) : LaneFn := fun a b z => (intBits c (intOf c a >>> (b % codeWidth c)), 0, z)
/-- abs (R218): the operand for an unsigned type. -/
def absInt (a : Int) : Int := a.natAbs

/-- add (R218). -/
def execFabAdd (f : FabWord) (s : State) : Host.Outcome State Fault Refusal :=
  scalarOp 0x10 f s (intLane (typeOf f) (fun a b => a + b))
/-- sub (R218). -/
def execFabSub (f : FabWord) (s : State) : Host.Outcome State Fault Refusal :=
  scalarOp 0x11 f s (intLane (typeOf f) (fun a b => a - b))
/-- addi (R218). -/
def execFabAddi (f : FabWord) (s : State) : Host.Outcome State Fault Refusal :=
  scalarOp 0x12 f s (intLane (typeOf f) (fun a _ => a + signedOf 30 f.imm.toNat))
/-- mul (R218). -/
def execFabMul (f : FabWord) (s : State) : Host.Outcome State Fault Refusal :=
  scalarOp 0x13 f s (intLane (typeOf f) (fun a b => a * b))
/-- mulh (R218). -/
def execFabMulh (f : FabWord) (s : State) : Host.Outcome State Fault Refusal :=
  scalarOp 0x14 f s (intLane (typeOf f) (mulhInt (typeOf f)))
/-- div (R218). -/
def execFabDiv (f : FabWord) (s : State) : Host.Outcome State Fault Refusal :=
  scalarOp 0x15 f s (intLane (typeOf f) (divInt (typeOf f)))
/-- rem (R218). -/
def execFabRem (f : FabWord) (s : State) : Host.Outcome State Fault Refusal :=
  scalarOp 0x16 f s (intLane (typeOf f) (remInt (typeOf f)))
/-- and (R218). -/
def execFabAnd (f : FabWord) (s : State) : Host.Outcome State Fault Refusal :=
  scalarOp 0x17 f s (bitLane (typeOf f) (fun a b => a &&& b))
/-- or (R218). -/
def execFabOr (f : FabWord) (s : State) : Host.Outcome State Fault Refusal :=
  scalarOp 0x18 f s (bitLane (typeOf f) (fun a b => a ||| b))
/-- xor (R218). -/
def execFabXor (f : FabWord) (s : State) : Host.Outcome State Fault Refusal :=
  scalarOp 0x19 f s (bitLane (typeOf f) (fun a b => a ^^^ b))
/-- shl (R218). -/
def execFabShl (f : FabWord) (s : State) : Host.Outcome State Fault Refusal :=
  scalarOp 0x1A f s (shlLane (typeOf f))
/-- shr (R218). -/
def execFabShr (f : FabWord) (s : State) : Host.Outcome State Fault Refusal :=
  scalarOp 0x1B f s (shrLane (typeOf f))
/-- min (R218). -/
def execFabMin (f : FabWord) (s : State) : Host.Outcome State Fault Refusal :=
  scalarOp 0x1C f s (intLane (typeOf f) (fun a b => if a ≤ b then a else b))
/-- max (R218). -/
def execFabMax (f : FabWord) (s : State) : Host.Outcome State Fault Refusal :=
  scalarOp 0x1D f s (intLane (typeOf f) (fun a b => if a ≥ b then a else b))
/-- abs (R218). -/
def execFabAbs (f : FabWord) (s : State) : Host.Outcome State Fault Refusal :=
  scalarOp 0x1E f s (intLane (typeOf f) (fun a _ => absInt a))
/-- neg (R218). -/
def execFabNeg (f : FabWord) (s : State) : Host.Outcome State Fault Refusal :=
  scalarOp 0x1F f s (intLane (typeOf f) (fun a _ => -a))
/-- clz (R218). -/
def execFabClz (f : FabWord) (s : State) : Host.Outcome State Fault Refusal :=
  scalarOp 0x20 f s (bitLane (typeOf f) (fun a _ => clzNat (codeWidth (typeOf f)) a))
/-- ctz (R218). -/
def execFabCtz (f : FabWord) (s : State) : Host.Outcome State Fault Refusal :=
  scalarOp 0x21 f s (bitLane (typeOf f) (fun a _ => ctzNat (codeWidth (typeOf f)) a))
/-- popc (R218). -/
def execFabPopc (f : FabWord) (s : State) : Host.Outcome State Fault Refusal :=
  scalarOp 0x22 f s (bitLane (typeOf f) (fun a _ => popNat (codeWidth (typeOf f)) a))
/-- adds (R218). -/
def execFabAdds (f : FabWord) (s : State) : Host.Outcome State Fault Refusal :=
  scalarOp 0x23 f s (satLane (typeOf f) (fun a b => a + b))
/-- subs (R218). -/
def execFabSubs (f : FabWord) (s : State) : Host.Outcome State Fault Refusal :=
  scalarOp 0x24 f s (satLane (typeOf f) (fun a b => a - b))
/-- sadd (R151, R218). -/
def execFabSadd (f : FabWord) (s : State) : Host.Outcome State Fault Refusal :=
  scalarOp 0x25 f s (fun a b z => ((streamAdd (BitVec.ofNat 64 a) (BitVec.ofNat 64 b)).toNat, 0, z))

end Sys2Proof.Machine
end

