-- ==== Sys2Proof/Machine/FabMove.lean ====
section
/-! DEFINITION. Moves, constants and registers of the fabric (R216, R217). -/

namespace Sys2Proof.Machine

/-- A slot that sends one token at round start (R203, R216, R217): once in a round. -/
def sourceOp (op : Nat) (f : FabWord) (s : State) (fn : Fab → Kind × Vec) : Host.Outcome State Fault Refusal :=
  fabric op f s (fun e =>
    if e.st.active || !e.space then .wait
    else (e.setSt { e.st with active := true }).emit (dataTok (fn e).1 (fn e).2 []))

/-- The value of const (R217). -/
def constValue (f : FabWord) : Nat :=
  let w := codeWidth (typeOf f)
  match typeOf f with
  | 0x8 => f.imm.toNat * 2 ^ 34
  | 0x9 => f.imm.toNat * 4
  | 0xA | 0xB => f.imm.toNat % 2 ^ 16
  | 0xC | 0xD => f.imm.toNat % 2 ^ 8
  | c => if codeSigned c then ((signedOf 30 f.imm.toNat) % (2 ^ w : Nat)).toNat else f.imm.toNat % 2 ^ w

/-- mov (R216). -/
def execFabMov (f : FabWord) (s : State) : Host.Outcome State Fault Refusal :=
  tokenOp 0x01 f s (fun e h => (.scalar, h.l.word.zeroExtend 512, 0, e.sto))
/-- vmov (R216). -/
def execFabVmov (f : FabWord) (s : State) : Host.Outcome State Fault Refusal :=
  tokenOp 0x07 f s (fun e h => (.vector, h.l.bits, 0, e.sto))
/-- const (R217). -/
def execFabConst (f : FabWord) (s : State) : Host.Outcome State Fault Refusal :=
  sourceOp 0x02 f s (fun _ => (.scalar, widen (typeOf f) (constValue f)))
/-- grd (R203, R216): the register as the last committed round left it. -/
def execFabGrd (f : FabWord) (s : State) : Host.Outcome State Fault Refusal :=
  sourceOp 0x03 f s (fun e => (.scalar, (e.T.g.get 0 (f.imm.toNat % 64)).zeroExtend 512))
/-- vrd (R203, R216). -/
def execFabVrd (f : FabWord) (s : State) : Host.Outcome State Fault Refusal :=
  sourceOp 0x04 f s (fun e => (.vector, e.T.v.get 0 (f.imm.toNat % 16)))
/-- The operand that a selector token chooses (R216). -/
def selected3 (h : Held3) : Tok := if (h.pred.getD (bitTok false [])).bits.getLsbD 0 then h.l else h.r
/-- sel (R216). -/
def execFabSel (f : FabWord) (s : State) : Host.Outcome State Fault Refusal :=
  tokenOp 0x05 f s (fun e h => (.scalar, (selected3 h).word.zeroExtend 512, 0, e.sto))
/-- vsel (R216). -/
def execFabVsel (f : FabWord) (s : State) : Host.Outcome State Fault Refusal :=
  tokenOp 0x06 f s (fun e h => (.vector, (selected3 h).bits, 0, e.sto))

end Sys2Proof.Machine
end

