-- ==== Sys2Proof/Machine/FabVec.lean ====
section
/-! DEFINITION. Vector opcodes of the fabric (R223 to R225). -/

namespace Sys2Proof.Machine

/-- The rule of a lane: the integer one for an integer type, else the float one (R223). -/
def typeLane (c : Nat) (i fl : LaneFn) : LaneFn := if codeInt c then i else fl
/-- A rule on two encodings without rounding. -/
def pureLane (fn : Nat → Nat → Nat × Flags) : LaneFn := fun a b z => let q := fn a b; (q.1, q.2, z)
/-- A lane mask (R223): all ones if the compare holds. -/
def maskLane (c which : Nat) : LaneFn := fun a b z =>
  let q := compareCode c which a b
  (if q.1 then 2 ^ codeWidth c - 1 else 0, q.2, z)

/-- One level of the pairwise tree of R112: each pair of values summed with round_acc. -/
def treeLevel (fm : Fmt) (mode : Nat) : List Val → Word → List Val × Flags × Word
  | a :: b :: r, z =>
    let x := vadd a b (effMode fm mode)
    let d := drawFor fm mode z
    let q := roundAcc fm x.1 mode d.2
    let t := treeLevel fm mode r d.1
    (q.1 :: t.1, x.2 ||| q.2 ||| t.2.1, t.2.2)
  | l, z => (l, 0, z)

/-- The levels of the tree down to two values, then the last sum with round (R112, R225). -/
def treeSum (fm : Fmt) (mode : Nat) : Nat → List Val → Word → Nat × Flags × Word
  | 0, l, z => roundLane fm mode (l.headD .zero, 0) z
  | n + 1, l, z =>
    match l with
    | [a, b] => roundLane fm mode (vadd a b (effMode fm mode)) z
    | l =>
      let q := treeLevel fm mode l z
      let t := treeSum fm mode n q.1 q.2.2
      (t.1, q.2.1 ||| t.2.1, t.2.2)

/-- vhsum (R225): integers wrap; floats take the tree. -/
def hsum (c mode v : Nat) (z : Word) : Nat × Flags × Word :=
  let ls := lanesOf (codeWidth c) v
  if codeInt c then (intBits c ((ls.map (intOf c)).foldl (· + ·) 0), 0, z)
  else treeSum (fmtFor c) mode 8 (ls.map (decodeFmt (fmtFor c))) z

/-- vhmax (R225): the greatest lane, by max or fmax. -/
def hmax (c v : Nat) : Nat × Flags :=
  match lanesOf (codeWidth c) v with
  | [] => (0, 0)
  | a :: r =>
    if codeInt c then (r.foldl (fun m x => if intOf c x > intOf c m then x else m) a, 0)
    else r.foldl (fun m x => let q := minMax c true m.1 x; (q.1, m.2 ||| q.2)) (minMax c true a a)

/-- vadd (R223). -/
def execFabVadd (f : FabWord) (s : State) : Host.Outcome State Fault Refusal :=
  vectorOp 0x40 f s (typeLane (typeOf f) (intLane (typeOf f) (fun a b => a + b)) (floatLane (typeOf f) (rndOf f) (addExact (typeOf f) (rndOf f))))
/-- vsub (R223). -/
def execFabVsub (f : FabWord) (s : State) : Host.Outcome State Fault Refusal :=
  vectorOp 0x41 f s (typeLane (typeOf f) (intLane (typeOf f) (fun a b => a - b)) (floatLane (typeOf f) (rndOf f) (subExact (typeOf f) (rndOf f))))
/-- vmul (R223). -/
def execFabVmul (f : FabWord) (s : State) : Host.Outcome State Fault Refusal :=
  vectorOp 0x42 f s (typeLane (typeOf f) (intLane (typeOf f) (fun a b => a * b)) (floatLane (typeOf f) (rndOf f) vmul))
/-- The operand values of the lanes of a vector fused opcode. -/
def vectorPairs (f : FabWord) (h : Held3) : List (Val × Val) :=
  let fm := fmtFor (typeOf f)
  ((lanesOf fm.width h.l.bits.toNat).map (decodeFmt fm)).zip ((lanesOf fm.width h.r.bits.toNat).map (decodeFmt fm))
/-- vfma (R222, R223). -/
def execFabVfma (f : FabWord) (s : State) : Host.Outcome State Fault Refusal :=
  fusedOp 0x43 f s true (vectorPairs f) vmul
/-- vmin (R223). -/
def execFabVmin (f : FabWord) (s : State) : Host.Outcome State Fault Refusal :=
  vectorOp 0x44 f s (typeLane (typeOf f) (intLane (typeOf f) (fun a b => if a ≤ b then a else b)) (pureLane (minMax (typeOf f) false)))
/-- vmax (R223). -/
def execFabVmax (f : FabWord) (s : State) : Host.Outcome State Fault Refusal :=
  vectorOp 0x45 f s (typeLane (typeOf f) (intLane (typeOf f) (fun a b => if a ≥ b then a else b)) (pureLane (minMax (typeOf f) true)))
/-- vabs (R223). -/
def execFabVabs (f : FabWord) (s : State) : Host.Outcome State Fault Refusal :=
  vectorOp 0x46 f s (typeLane (typeOf f) (intLane (typeOf f) (fun a _ => absInt a)) (absLane (typeOf f)))
/-- vneg (R223). -/
def execFabVneg (f : FabWord) (s : State) : Host.Outcome State Fault Refusal :=
  vectorOp 0x47 f s (typeLane (typeOf f) (intLane (typeOf f) (fun a _ => -a)) (negLane (typeOf f)))
/-- vhsum (R225). -/
def execFabVhsum (f : FabWord) (s : State) : Host.Outcome State Fault Refusal :=
  tokenOp 0x48 f s (fun e h =>
    let q := hsum (typeOf f) (rndOf f) h.l.bits.toNat e.sto
    (.scalar, widen (typeOf f) q.1, q.2.1, q.2.2))
/-- vhmax (R225). -/
def execFabVhmax (f : FabWord) (s : State) : Host.Outcome State Fault Refusal :=
  tokenOp 0x49 f s (fun e h =>
    let q := hmax (typeOf f) h.l.bits.toNat
    (.scalar, widen (typeOf f) q.1, q.2, e.sto))
/-- vbcast (R225). -/
def execFabVbcast (f : FabWord) (s : State) : Host.Outcome State Fault Refusal :=
  tokenOp 0x4A f s (fun e h =>
    let w := codeWidth (typeOf f)
    (.vector, packLanes w (List.replicate (512 / w) (h.l.low w)), 0, e.sto))
/-- vext (R225). -/
def execFabVext (f : FabWord) (s : State) : Host.Outcome State Fault Refusal :=
  tokenOp 0x4B f s (fun e h =>
    let w := codeWidth (typeOf f)
    (.scalar, widen (typeOf f) ((lanesOf w h.l.bits.toNat).getD (f.imm.toNat % 128) 0), 0, e.sto))
/-- vins (R225). -/
def execFabVins (f : FabWord) (s : State) : Host.Outcome State Fault Refusal :=
  tokenOp 0x4C f s (fun e h =>
    let w := codeWidth (typeOf f)
    (.vector, packLanes w ((lanesOf w h.l.bits.toNat).set (f.imm.toNat % 128) (h.r.low w)), 0, e.sto))
/-- vceq (R223). -/
def execFabVceq (f : FabWord) (s : State) : Host.Outcome State Fault Refusal :=
  vectorOp 0x4D f s (maskLane (typeOf f) 0)
/-- vclt (R223). -/
def execFabVclt (f : FabWord) (s : State) : Host.Outcome State Fault Refusal :=
  vectorOp 0x4E f s (maskLane (typeOf f) 2)
/-- vand (R223): over 512 bits. -/
def execFabVand (f : FabWord) (s : State) : Host.Outcome State Fault Refusal :=
  tokenOp 0x4F f s (fun e h => (.vector, h.l.bits &&& h.r.bits, 0, e.sto))
/-- vor (R223): over 512 bits. -/
def execFabVor (f : FabWord) (s : State) : Host.Outcome State Fault Refusal :=
  tokenOp 0x50 f s (fun e h => (.vector, h.l.bits ||| h.r.bits, 0, e.sto))
/-- vxor (R223): over 512 bits. -/
def execFabVxor (f : FabWord) (s : State) : Host.Outcome State Fault Refusal :=
  tokenOp 0x51 f s (fun e h => (.vector, h.l.bits ^^^ h.r.bits, 0, e.sto))
/-- vshl (R223). -/
def execFabVshl (f : FabWord) (s : State) : Host.Outcome State Fault Refusal :=
  vectorOp 0x52 f s (shlLane (typeOf f))
/-- vshr (R223). -/
def execFabVshr (f : FabWord) (s : State) : Host.Outcome State Fault Refusal :=
  vectorOp 0x53 f s (shrLane (typeOf f))
/-- vexp2 (R223). -/
def execFabVexp2 (f : FabWord) (s : State) : Host.Outcome State Fault Refusal :=
  vectorOp 0x54 f s (exp2Lane (typeOf f))
/-- vrcp (R223). -/
def execFabVrcp (f : FabWord) (s : State) : Host.Outcome State Fault Refusal :=
  vectorOp 0x55 f s (floatLane1 (typeOf f) (rndOf f) rcpExact)

end Sys2Proof.Machine
end

