-- ==== Sys2Proof/Machine/Remote.lean ====
section
/-! DEFINITION. The copy engine beyond the consist: cp.grp (R357 to R360, R368, R369), cp.amo and cp.enq with their tags, replies
and retransmissions (R361 to R366). -/

namespace Sys2Proof.Machine

/-! ### Endpoints -/

/-- The die of this package that a domain endpoint names, if there is one. -/
def dieOfEndpoint (s : State) (e : Nat) : Option Nat := firstIdx dieCount (fun d => (s.die d).endpoint = e)
/-- Is a die enabled? -/
def dieEnabled (s : State) (d : Nat) : Bool := (s.cap 1).getLsbD d

/-- The started commands of the copy chain of a tile. -/
def copyStarted (s : State) (k tile : Nat) : List Cmd := ((s.cluster k).chain 1 tile).started

/-- A command that reads its source first, granule by granule (R77): what it does once it has the bytes. -/
def withSource (s : State) (k tile : Nat) (x : Cmd) (ss : Nat) (src : Word) (len granule : Nat) (record : List Byte)
    (body : State → Cmd → List Byte → State × List (Nat × Byte)) : State × List (Nat × Byte) :=
  if sideMissing s k tile x ss src len false then (endCmd s k tile x 0x38 record, [])
  else readPart s k tile x ss src len granule (fun _ _ => record) (fun s1 x =>
    match x.whole src len with
    | some bs => body s1 x bs
    | none => (s1.stage k tile x (.begun 0), []))

/-! ### cp.grp (R358) -/

/-- Are the limits of a cp.grp descriptor kept? -/
def grpOk (d : List Byte) : Bool :=
  1 ≤ leAt d 12 4 && leAt d 12 4 ≤ 2 ^ 20 && leAt d 16 2 < 4096 && leAt d 18 1 ≤ 1 && leAt d 19 13 == 0

/-- Bits set in a mask, ascending. -/
def maskBits (m : BitVec 1024) : List Nat := (List.range 1024).filter (fun i => m.getLsbD i)

/-- The record of a group multicast (R359). -/
def grpRecord (g : Grp) (cycles : Nat) : List Byte :=
  let fails := (g.failed.foldl (fun (l : List (Nat × Nat)) p => insertBy p l) []).take 4
  leBytes 2 g.ok ++ leBytes 2 g.failed.length ++ leBytes 4 0 ++
    ((fails.flatMap (fun (p : Nat × Nat) => leBytes 8 (p.1 + p.2 * 2 ^ 16)) ++ List.replicate 32 0).take 32) ++ leBytes 8 cycles
where
  /-- Insert a failure by its endpoint. -/
  insertBy (p : Nat × Nat) : List (Nat × Nat) → List (Nat × Nat)
    | [] => [p]
    | q :: r => if p.1 < q.1 then p :: q :: r else q :: insertBy p r

/-- The end of a group multicast once no endpoint is awaited (R359). -/
def grpSettle (s : State) (k tile : Nat) (x : Cmd) (g : Grp) : State :=
  if g.waiting.isEmpty then endCmd s k tile x (if g.failed.isEmpty then 0 else 0x35) (grpRecord g (s.now - x.at_))
  else s.stage k tile x (.grp g)

/-- Bytes of payload of a message (R358). -/
def msgBytes : Nat := 256

/-- The messages of a group multicast that leave for one other package: its endpoints of the mask, and the data in pieces. -/
def grpMessages (package : Nat) (es : List Nat) (group off : Nat) (data : List Byte) : List Message :=
  (List.range (ceilDiv data.length msgBytes)).map (fun i => .grp package (es.foldl (fun m e => m ||| BitVec.ofNat 1024 (2 ^ e)) 0) group
    (off + i * msgBytes) data.length ((data.drop (i * msgBytes)).take msgBytes))

/-- What sends a group multicast out of the package: one copy to each other package of the mask (R358). -/
def sendGrp (s : State) (outside : List Nat) (group off : Nat) (data : List Byte) : State :=
  ((outside.map Config.packageOf).eraseDups.flatMap (fun p => grpMessages p (outside.filter (fun e => Config.packageOf e = p)) group off data)).foldl
    (fun s m => s.leave m.endpoint m) s

/-- Does a bit of a group mask name no endpoint, or a disabled one (R359, R368)? -/
def endpointAbsent (s : State) (e : Nat) : Bool :=
  match dieOfEndpoint s e with
  | some d => !dieEnabled s d
  | none => !endpointThere s e

/-- The receivers of a mask in this package, and in others. -/
def grpInside (s : State) (es : List Nat) : List Nat := es.filter (fun e => (dieOfEndpoint s e).any (dieEnabled s))
/-- The receivers in other packages. -/
def grpOutside (s : State) (es : List Nat) : List Nat := es.filter (fun e => (dieOfEndpoint s e).isNone && endpointThere s e)

/-- cp.grp (R358, R359, R368): the entry is that of the group table as the command started; a copy goes to each receiver of this package and to
each other package. -/
def execCpGrp (cluster : Nat) : CopyTurn Nat → State → Host.Outcome State Fault Refusal
  | ⟨tile, pick, granule⟩, s => engineAt 1 3 false true cluster tile pick s (fun s x =>
    let d := descriptor s cluster x
    let mask := x.groups.get 0 (leAt d 16 2)
    if !descOk x || !grpOk d || mask = 0 then (endCmd s cluster tile x 0x11 [], [])
    else withSource s cluster tile x (leAt d 18 1) (BitVec.ofNat 64 (leAt d 0 8)) (leAt d 12 4) granule [] (fun s1 x bs =>
      let es := maskBits mask
      let inside := grpInside s1 es
      let outside := grpOutside s1 es
      let s2 := s1.modPkg (fun p => { p with grps := p.grps ++ inside.map (fun e =>
        { cluster := cluster, tile := tile, endpoint := e, group := leAt d 16 2, off := leAt d 8 4, data := bs, seq := x.seq, judged := none,
          entry := 0, fin := [], clock := (s1.die (dieOfCluster cluster)).clock, source := none }) })
      (grpSettle (sendGrp s2 outside (leAt d 16 2) (leAt d 8 4) bs) cluster tile x
        { since := s1.now, waiting := inside ++ outside, ok := 0, failed := (es.filter (endpointAbsent s1)).map (fun e => (e, 5)) }, [])))

/-! ### The receiver (R357, R359, R360, R369) -/

/-- Bytes off to off + n - 1 of a receive entry. -/
def recvAt (e : BitVec 192) (off n : Nat) : Nat := bits e (8 * (off + n) - 1) (8 * off)

/-- Where an entry of a die puts a command's bytes: cluster, tile, whether in LV space, base, barrier (R357). -/
def recvPlace (d : Nat) (e : BitVec 192) : Nat × Nat × Bool × Word × Option Nat :=
  let fl := recvAt e 15 1
  (d * 40 + recvAt e 18 1, recvAt e 19 1 % 4, fl / 64 % 2 = 0, BitVec.ofNat 64 (recvAt e 0 8),
    if fl / 32 % 2 = 1 then some (recvAt e 16 2 % 1024) else none)

/-- A receiver judges a command (R359): its reason, 0 for accepted. An entry that names no cluster counts as not mapped, a scratchpad window
that leaves the scratchpad as a fault. DESIGN CHOICE, log entry 50. -/
def judgeGrp (s : State) (d group off len : Nat) : Nat :=
  let e := (s.die d).receive.get 0 group
  let ctxid := recvAt e 12 3
  let live := match s.launch (ctxIndex ctxid) with | some L => L.ctxid.toNat = ctxid && L.phase != .readOut | none => false
  let (k, j, lv, base, _) := recvPlace d e
  if recvAt e 15 1 / 128 = 0 || !live || recvAt e 18 1 ≥ 40 then 1
  else if off + len > recvAt e 8 4 then 2
  else if lv && (match engineLv s k j (base + BitVec.ofNat 64 off) len true with | .ok _ => false | .error _ => true) then 3
  else if !lv && (base.toNat % 2 ^ 21 + off + len > 2 ^ 21) then 3
  else 0

/-- A command is judged as its first message reaches a receiver: a rejected one writes nothing, an accepted one is pending (R357, R359). -/
def grpJudged (s : State) (i d : Nat) (m : GrpMsg) (r : Nat) : State :=
  let e := (s.die d).receive.get 0 m.group
  let s1 := s.modPkg (fun p => { p with grps := p.grps.modify i (fun m => { m with judged := some r, entry := e }) })
  if r = 0 then s1.modDie d (fun D => { D with pending := D.pending.put m.group (D.pending.get 0 m.group + 1) }) else s1

/-- Where the bytes of a command begin at its receiver on a die. -/
def GrpMsg.base (m : GrpMsg) (d : Nat) : Word :=
  let (_, _, lv, base, _) := recvPlace d m.entry
  copyAddr (if lv then 0 else 1) base m.off

/-- A granule of an accepted command is written at its receiver, as one event, and counted there (R369); the receiver's die has applied, and
follows, what the sender's had seen as it sent (R75). None: there is no such granule left, or a home must wait. -/
def grpWrite (s : State) (i d g : Nat) (m : GrpMsg) : Option (State × List (Nat × Byte)) :=
  let (k, j, lv, _, bar) := recvPlace d m.entry
  let space := if lv then 0 else 1
  let a := m.base d
  let n := granLen a.toNat m.data.length g
  if g ≥ granCount a.toNat m.data.length || m.fin.contains g || !covered s d m.clock then none
  else match spaceWrite s k j space (copyAddr space a (granOff a.toNat g)) ((m.data.drop (granOff a.toNat g)).take n) with
    | .got s1 ws =>
      some (mergeClock ((countBytes s1 k j bar n).modPkg (fun p => { p with grps := p.grps.modify i (fun m => { m with fin := m.fin ++ [g] }) })) d m.clock, ws)
    | _ => none

/-- Do packets of a command reach its receiver's die (R398)? -/
def grpReaches (s : State) (d : Nat) (m : GrpMsg) : Bool := m.source.isSome || routeOpen s (dieOfCluster m.cluster) d

/-- Has a command been judged, and, where accepted, written whole? -/
def GrpMsg.over_ (m : GrpMsg) (d : Nat) : Bool :=
  m.judged.any (fun r => r != 0 || granCount (m.base d).toNat m.data.length ≤ m.fin.length)

/-- A receiver has acknowledged a command: the entry counts it no longer (R357). -/
def grpAcked (s : State) (d : Nat) (m : GrpMsg) : State :=
  (s.modPkg (fun p => { p with grps := p.grps.erase m })).modDie d (fun D =>
    if m.judged = some 0 then { D with pending := D.pending.put m.group (D.pending.get 0 m.group - 1) } else D)

/-- Are the writes of a command visible, so that its receiver acknowledges (R359)? -/
def grpVisible (s : State) (d : Nat) (m : GrpMsg) : Bool :=
  let (k, j, _, _, _) := recvPlace d m.entry
  m.over_ d && !(inFlight s (issuer k j))

/-- A message of a group multicast reaches its receiver (R359): the first is judged, and each of an accepted command written; a command from
another package is acknowledged there once its writes are visible. -/
def execGrpMessage (message : GrpSource) (s : State) : Host.Outcome State Fault Refusal :=
  perform s (
    match message with
    | .inside i g =>
      (match s.pkg.grps[i]? with
       | none => idle s
       | some m =>
         match dieOfEndpoint s m.endpoint with
         | none => idle s
         | some d =>
           if !grpReaches s d m then idle s
           else if m.judged.isNone then
             let r := judgeGrp s d m.group m.off m.data.length
             let s1 := grpJudged s i d m r
             (match (if r = 0 then (s1.pkg.grps[i]?).bind (fun m => grpWrite s1 i d g m) else none) with
              | some (s2, ws) => .go s2 ws
              | none => .go s1 [])
           else if !m.over_ d then (match grpWrite s i d g m with | none => idle s | some (s1, ws) => .go s1 ws)
           else match m.source with
             | some e => when (grpVisible s d m) s (.go ((grpAcked s d m).leave e (.grpAck e m.endpoint m.group (m.judged.getD 0))) [])
             | none => idle s)
    | .failed i =>
      (match s.pkg.grps[i]? with
       | none => idle s
       | some m =>
         match dieOfEndpoint s m.endpoint with
         | none => idle s
         | some d =>
           let r := judgeGrp s d m.group m.off m.data.length
           when m.judged.isNone s (.go (grpJudged s i d m (if r = 0 then 6 else r)) []))
    | .outside source e group off data =>
      when ((dieOfEndpoint s e).isSome && earOpen s source) s (.go ((s.heard source).modPkg (fun p => { p with grps := p.grps ++
        [{ cluster := clusterCount, tile := 0, endpoint := e, group := group, off := off, data := data, seq := 0, judged := none, entry := 0,
           fin := [], clock := [], source := some source }] })) []))

/-- The group command of a chain that awaits an endpoint. -/
def awaiting (s : State) (k tile e : Nat) : Option (Cmd × Grp) :=
  (copyStarted s k tile).findSome? (fun x => match x.stage with
    | .grp g => if g.waiting.contains e then some (x, g) else none
    | _ => none)

/-- An endpoint has answered: counted as ok, or failed with a reason. -/
def Grp.heard (g : Grp) (e reason : Nat) : Grp :=
  let g1 : Grp := { g with waiting := g.waiting.filter (· != e) }
  if reason = 0 then { g1 with ok := g.ok + 1 } else { g1 with failed := g.failed ++ [(e, reason)] }

/-- An acknowledgement merges (R359): the receiver's judgement when it lies in this package, else what the message says. -/
def execGrpAck (cluster tile endpoint reason : Nat) (s : State) : Host.Outcome State Fault Refusal :=
  perform s (within (cluster < clusterCount && tile < 4) (
    match dieOfEndpoint s endpoint with
    | some d =>
      (match s.pkg.grps.find? (fun m => m.cluster = cluster && m.tile = tile && m.endpoint = endpoint && m.over_ d) with
       | none => idle s
       | some m =>
         when (grpVisible s d m && grpReaches s d m) s (
           let r := m.judged.getD 0
           let s1 := grpAcked s d m
           match (copyStarted s1 cluster tile).find? (fun x => x.seq = m.seq) with
           | some x =>
             (match x.stage with
              | .grp g => .go (if g.waiting.contains endpoint then grpSettle s1 cluster tile x (g.heard endpoint r) else s1) []
              | _ => .go s1 [])
           | none => .go s1 []))
    | none =>
      match awaiting s cluster tile endpoint with
      | some (x, g) => when (earOpen s endpoint) s (.go (grpSettle (s.heard endpoint) cluster tile x (g.heard endpoint reason)) [])
      | none => idle s))

/-- A value of 0 in rtmo or rint acts as 1 (R353). -/
def atLeast1 (n : Nat) : Nat := max 1 n

/-- An endpoint that has not answered in rtmo × (rmax + 1) cycles counts as failed (R359). -/
def execGrpNoResponse (cluster tile endpoint : Nat) (s : State) : Host.Outcome State Fault Refusal :=
  perform s (within (cluster < clusterCount && tile < 4) (
    let K := s.cluster cluster
    match awaiting s cluster tile endpoint with
    | some (x, g) =>
      when (g.since + atLeast1 K.rtmo * (K.rmax + 1) ≤ s.now) s (.go (grpSettle s cluster tile x (g.heard endpoint 4)) [])
    | none => idle s))

/-! ### Tags (R361) -/

/-- Is the next tag of a die free: not outstanding, and not ended fewer than 16,800 cycles ago? -/
def tagFree (s : State) (d : Nat) : Bool :=
  let D := s.die d
  !(D.tags.contains D.nextTag) && (match D.ended.find D.nextTag with | some c => c + 16800 ≤ s.now | none => true)

/-- A tag ends. -/
def endTag (s : State) (d tag : Nat) : State :=
  s.modDie d (fun D => { D with tags := D.tags.filter (· != tag), ended := D.ended.put tag s.now })

/-- Age of a request in units of 64 cycles, rounded up and saturating (R361). -/
def ageOf (s : State) (sent : Nat) : Nat := min 0xFFFF (ceilDiv (s.now - sent) 64)

/-- A request leaves: to a die of this package, or out of it. -/
def postAsk (s : State) (k tile : Nat) (enq : Bool) (r : Remote) : State :=
  match r.die with
  | some d => s.modPkg (fun p => { p with asks := p.asks ++ [{ cluster := k, tile := tile, die := d, enq := enq, req := r, moved := false }] })
  | none =>
    let src := (s.die (dieOfCluster k)).endpoint
    if enq then s.leave r.endpoint (.enq r.endpoint src r.tag r.retries (ageOf s r.sent) r.handle r.data)
    else s.leave r.endpoint (.amo r.endpoint src r.tag r.retries (ageOf s r.sent) r.op (r.size = 8) (domainSpot r.key).2 r.t r.c)

/-- A new request takes the next tag and leaves, or is held (R361). -/
def newAsk (s : State) (k tile : Nat) (x : Cmd) (enq : Bool) (r : Remote) : State :=
  let d := dieOfCluster k
  if tagFree s d then
    let tag := (s.die d).nextTag
    let r1 : Remote := { r with tag := tag, sent := s.now, since := s.now, held := false, refused := false, retries := 0 }
    let s1 := s.modDie d (fun D => { D with nextTag := (D.nextTag + 1) % 2 ^ 16, tags := D.tags ++ [tag] })
    postAsk (s1.stage k tile x (.remote r1)) k tile enq r1
  else s.stage k tile x (.remote { r with held := true, refused := false })

/-! ### cp.amo (R364) -/

/-- The request of a started command of a chain that satisfies p. -/
def remoteOf (s : State) (k tile : Nat) (p : Remote → Bool) : Option (Cmd × Remote) :=
  (copyStarted s k tile).findSome? (fun x => match x.stage with
    | .remote r => if p r then some (x, r) else none
    | _ => none)

/-- Is a request outstanding: sent, and not refused? -/
def Remote.out (r : Remote) : Bool := !r.held && !r.refused

/-- Are the limits of a cp.amo descriptor kept? -/
def amoDescOk (d : List Byte) : Bool :=
  leAt d 24 1 % 16 ≤ 11 && leAt d 24 1 < 32 && leAt d 25 5 < 2 ^ 21 && leAt d 25 5 % 8 == 0 && leAt d 30 2 == 0

/-- The die and endpoint of a key's home, for a request of a die: no die when it lies in another package; memory of the host or of a pool is
reached through the die itself. DESIGN CHOICE, log entry 50. -/
def keyEndpoint (s : State) (die : Nat) (p : Piece) : Option Nat × Nat :=
  match p.home with
  | .die h => (some h, (s.die h).endpoint)
  | _ => if keyKind p.key = 4 then (none, (domainSpot p.key).1) else (some die, (s.die die).endpoint)

/-- The request that a cp.amo descriptor makes of a translated piece. -/
def amoRemote (s : State) (from_ : Nat) (d : List Byte) (p : Piece) : Remote :=
  let (die, ep) := keyEndpoint s from_ p
  { tag := 0, sent := s.now, retries := 0, held := false, refused := false, since := s.now, die := die, endpoint := ep,
    addr := BitVec.ofNat 64 (leAt d 0 8), key := p.key, size := p.size, dup := p.dup, op := leAt d 24 1 % 16, t := BitVec.ofNat 64 (leAt d 8 8),
    c := BitVec.ofNat 64 (leAt d 16 8), res := leAt d 25 5, handle := 0, wait := false, data := [], moved := false }

/-- The record of a cp.amo (R364): the old value, the tag, the retransmissions, the home endpoint. -/
def amoRecord (v : Word) (tag retries endpoint : Nat) : List Byte :=
  leBytes 8 v.toNat ++ leBytes 2 tag ++ leBytes 1 retries ++ leBytes 1 0 ++ leBytes 2 (endpoint % 1024)

/-- cp.amo (R361, R364): alignment, translation and permission at the sender, then the request. -/
def execCpAmo (cluster : Nat) : CopyTurn Unit → State → Host.Outcome State Fault Refusal
  | ⟨tile, pick, _⟩, s => engineAt 1 4 false true cluster tile pick s (fun s x =>
    let d := descriptor s cluster x
    let a : Word := BitVec.ofNat 64 (leAt d 0 8)
    let n := if leAt d 24 1 / 16 % 2 = 1 then 8 else 4
    let op := leAt d 24 1 % 16
    if !descOk x || !amoDescOk d then (endCmd s cluster tile x 0x11 [], [])
    else if notLv a then (faultCmd s cluster tile x 3 (rangeFault 5 a) 0 [], [])
    else if a.toNat % n != 0 then (faultCmd s cluster tile x 3 (rangeFault 8 a) 0 [], [])
    else match endpointMissing s cluster tile a (op != 10), engineLv s cluster tile a n (op != 10) with
      | some e, _ => (endCmd s cluster tile x 0x38 (amoRecord 0 0 0 e), [])
      | none, .error f => (faultCmd s cluster tile x 3 f 0 [], [])
      | none, .ok ([p], s1) => (newAsk s1 cluster tile x false (amoRemote s1 (dieOfCluster cluster) d p), [])
      | none, .ok _ => (faultCmd s cluster tile x 3 (rangeFault 8 a) 0 [], []))

/-! ### cp.enq (R365) -/

/-- Are the limits of a cp.enq descriptor kept? -/
def enqDescOk (d : List Byte) : Bool :=
  1 ≤ leAt d 12 4 && leAt d 12 4 ≤ 2 ^ 20 && leAt d 16 1 ≤ 1 && leAt d 17 1 ≤ 1 && leAt d 18 14 == 0

/-- The die that a queue handle is sent to: the new home that a reply named, else the endpoint in the handle; none outside the package
(R365). -/
def enqDie (s : State) (d handle : Nat) : Option Nat :=
  match (s.die d).handleHome.find handle with
  | some h => some h
  | none => dieOfEndpoint s (handle / 2 ^ 12 % 1024)

/-- The record of a cp.enq (R365): the offset of the extent, the handle, the retransmissions. -/
def enqRecord (offset handle retries : Nat) : List Byte := leBytes 6 offset ++ leBytes 2 0 ++ leBytes 4 handle ++ leBytes 1 retries

/-- cp.enq (R365): the payload is read, then the request goes to the endpoint in the handle, or to the queue's new home. -/
def execCpEnq (cluster : Nat) : CopyTurn Nat → State → Host.Outcome State Fault Refusal
  | ⟨tile, pick, granule⟩, s => engineAt 1 5 false true cluster tile pick s (fun s x =>
    let d := descriptor s cluster x
    let handle := leAt d 8 4
    let ep := handle / 2 ^ 12 % 1024
    if !descOk x || !enqDescOk d then (endCmd s cluster tile x 0x11 [], [])
    else withSource s cluster tile x (leAt d 16 1) (BitVec.ofNat 64 (leAt d 0 8)) (leAt d 12 4) granule (enqRecord 0 handle 0) (fun s1 x bs =>
      let die := enqDie s1 (dieOfCluster cluster) handle
      if (match die with | some q => !dieEnabled s1 q | none => !endpointThere s1 ep) then
        (endCmd s1 cluster tile x 0x38 (enqRecord 0 handle 0), [])
      else
        (newAsk s1 cluster tile x true
          { tag := 0, sent := s1.now, retries := 0, held := false, refused := false, since := s1.now, die := die,
            endpoint := ep, addr := 0, key := 0, size := 0, dup := 0, op := 0, t := 0, c := 0, res := 0, handle := handle,
            wait := leAt d 17 1 % 2 = 1, data := bs, moved := false }, [])))

/-! ### At the target (R361, R362) -/

/-- A request refused because every cache entry is young: nothing was executed (R362). -/
def stBusy : Nat := 0x100
/-- A request refused because its frame migrates (R60, R363). -/
def stMigrating : Nat := 0x101
/-- Queue full (R365). -/
def stFull : Nat := 0x33
/-- INDETERMINATE (R362). -/
def stUnknown : Nat := 0x34

/-- Store a reply, evicting the oldest entry where there is no room (R361). -/
def cachePut (D : Die) (r : Reply1) : Die :=
  let kept := if D.replies.length < 4096 then D.replies
    else match D.replies.foldl (fun (m : Option Reply1) e => match m with | some x => if e.at_ < x.at_ then some e else m | none => some e) none with
      | some old => D.replies.erase old
      | none => D.replies
  { D with replies := kept ++ [r] }

/-- The decision of R362 at a die: run executes the request and gives status, value, state and writes; none: the home must
wait. Answers the status, the value, and the state. -/
def decide362 (s : State) (d src tag age : Nat) (run : Option (Nat × Word × State × List (Nat × Byte))) :
    Option (Nat × Word × State × List (Nat × Byte)) :=
  let D := s.die d
  match D.replies.find? (fun r => r.endpoint = src && r.tag = tag) with
  | some r => some (r.status, r.value, s, [])
  | none =>
    if age * 64 ≥ 8400 then some (stUnknown, 0, s, [])
    else if D.replies.length ≥ 4096 && D.replies.all (fun r => s.now < r.at_ + 8400) then some (stBusy, 0, s, [])
    else match run with
      | none => none
      | some (st, v, s1, ws) =>
        if st = stMigrating then some (st, v, s, [])
        else some (st, v, s1.modDie d (fun D => cachePut D { endpoint := src, tag := tag, status := st, value := v, at_ := s.now }), ws)

/-- Do packets go between a request's die and its sender's (R398)? -/
def Ask.reaches (q : Ask) (s : State) : Bool := routeOpen s (dieOfCluster q.cluster) q.die

/-- The new home of a redirected request, which the reply names (R60). -/
def Ask.newHome (q : Ask) : Option Nat := if q.moved then some q.die else none

/-- A reply on its way to a sender of this package. -/
def answer (s : State) (q : Ask) (status : Nat) (v : Word) : State :=
  s.modPkg (fun p => { p with answers := p.answers ++
    [{ cluster := q.cluster, tile := q.tile, tag := q.req.tag, status := status, value := v, home := q.newHome }] })

/-- Has a die a reply for a request (R362)? -/
def replied (s : State) (d src tag : Nat) : Bool := ((s.die d).replies.find? (fun r => r.endpoint = src && r.tag = tag)).isSome

/-- Execute an atomic at a home for a tile, asked from a die, dieCount for one outside (R79, R163, R364): migrating and not mapped as R60
says. -/
def runAmo (s : State) (asker t d key size dup op : Nat) (tv cv : Nat) : Option (Nat × Word × State × List (Nat × Byte)) :=
  match forwardKey s asker key with
  | .error 0xF => some (stMigrating, 0, s, [])
  | .error _ => some (4, 0, s, [])
  | .ok (k, _) =>
    (performAmo s t { key := k, size := size, home := (match keyHome s k with | .die _ => .die d | h => h), dup := dup } op (tv % 2 ^ (8 * size)) (cv % 2 ^ (8 * size))).map (fun q =>
      (0, BitVec.ofNat 64 q.1, q.2.1, if op = 10 then [] else q.2.2))

/-- Where the home of an atomic asked from a die redirects it (R60, R363): nowhere once the home has a reply for it. -/
def amoForward (s : State) (asker d src tag key : Nat) : Option Nat :=
  if replied s d src tag then none
  else match forwardKey s asker key with | .ok (k, true) => some k | _ => none

/-- A redirected atomic goes on to the new home with its tag and age (R363): a die of this package, memory of the host or of a pool, or
out of the package. -/
def redirectAmo (s : State) (i : Nat) (q : Ask) (k : Nat) : State :=
  let on (d : Nat) : State := s.modPkg (fun p => { p with asks := p.asks.modify i (fun q => { q with die := d, req := { q.req with key := k }, moved := true }) })
  match keyEndpoint s q.die { key := k, size := q.req.size, home := keyHome s k } with
  | (some d, _) => on d
  | (none, ep) =>
    let away (r : Remote) : Remote := { r with key := k, die := none, endpoint := ep, moved := true }
    let s1 := s.modPkg (fun p => { p with asks := p.asks.eraseIdx i })
    let s2 := match remoteOf s1 q.cluster q.tile (fun r => r.out && r.tag = q.req.tag) with
      | some (x, r) => s1.stage q.cluster q.tile x (.remote (away r))
      | none => s1
    postAsk s2 q.cluster q.tile false (away q.req)

/-- The die and key at which an atomic from outside is decided: those that it names, or the new home in this package that the old one names
(R60). -/
def outsideHome (s : State) (die src tag key : Nat) : Nat × Nat :=
  match amoForward s dieCount die src tag key with
  | some k => (match keyHome s k with | .die d => (d, k) | _ => (die, k))
  | none => (die, key)

/-- A remote atomic reaches its target die (R362), which redirects it where the page has moved (R60); on a duplicated page the other holders drop their copies first (R61). -/
def execAmoRequest (request : AmoSource) (s : State) : Host.Outcome State Fault Refusal :=
  perform s (
    match request with
    | .inside i =>
      (match s.pkg.asks[i]? with
       | none => idle s
       | some q =>
         when (!q.enq && q.reaches s) s (
           let r := q.req
           let src := (s.die (dieOfCluster q.cluster)).endpoint
           match amoForward s (dieOfCluster q.cluster) q.die src r.tag r.key with
           | some k => .go (redirectAmo s i q k) []
           | none =>
             match decide362 s q.die src r.tag (ageOf s r.sent)
               (runAmo s (dieOfCluster q.cluster) (issuer q.cluster q.tile) q.die r.key r.size r.dup r.op r.t.toNat r.c.toNat) with
             | none => .go (dropHolders s (issuer q.cluster q.tile) { key := r.key, size := r.size, home := .die q.die, dup := r.dup } r.addr) []
             | some (st, v, s1, ws) => .go (answer (s1.modPkg (fun p => { p with asks := p.asks.eraseIdx i })) q st v) ws))
    | .outside die source tag _ age op wide address t c =>
      within (die < dieCount && op < 12) (
        let key := if address / 2 ^ 37 % 2 = 1 then lpddrKey die (address % 2 ^ 37) else sramKey die (address % 2 ^ 37)
        let home := outsideHome s die source tag key
        let s0 := s.heard source
        if !earOpen s source then idle s
        else match decide362 s0 home.1 source tag age (runAmo s0 dieCount (home.1 * 160) home.1 home.2 (if wide then 8 else 4) 0 op t.toNat c.toNat) with
        | none => idle s
        | some (st, v, s1, ws) => .go (s1.leave source (.ualink source (leBytes 2 tag ++ leBytes 2 st ++ leBytes 8 v.toNat))) ws))

/-- Reserve, write and publish a payload of a sender on a die, or outside, as one operation (R304, R365). -/
def runEnq (s : State) (die : Option Nat) (d handle : Nat) (data : List Byte) : Option (Nat × Word × State × List (Nat × Byte)) :=
  let Q := (s.die d).queues.get Queue.reset (handle % 4096)
  match Q.bound with
  | none => some (0x32, 0, s, [])
  | some (l, h) =>
    if Q.gen != handle / 2 ^ 22 then some (0x32, 0, s, [])
    else match s.stream l h with
      | none => some (0x32, 0, s, [])
      | some st =>
        if data.length > st.extent then some (0x37, 0, s, [])
        else if gap (st.rsv + data.length) st.tf > st.extent then some (stFull, 0, s, [])
        else if st.outstanding ≥ 64 then none
        else
          let (st1, start) := st.reserve data.length
          match streamWrite (s.markStream die l h st1) die l h start data with
          | none => none
          | some (s1, ws) =>
            (s1.stream l h).bind (fun st2 => (st2.publish start data.length).map (fun st3 =>
              (0, BitVec.ofNat 64 start, s1.markStream die l h st3, ws)))

/-- The home of an enqueue after a forward entry of the queue (R60, R365): the generation is checked first. -/
def forwardedQueue (s : State) (d handle : Nat) : Option Nat :=
  let Q := (s.die d).queues.get Queue.reset (handle % 4096)
  if Q.gen = handle / 2 ^ 22 then Q.forward else none

/-- The die that decides an enqueue: the queue's new home, unless this one has a reply for it (R362, R365). -/
def enqTarget (s : State) (d src tag handle : Nat) : Nat :=
  if replied s d src tag then d else (forwardedQueue s d handle).getD d

/-- An enqueue reaches its home (R365): redirected, or decided under R362. -/
def execEnqRequest (request : EnqSource) (s : State) : Host.Outcome State Fault Refusal :=
  perform s (
    match request with
    | .inside i =>
      (match s.pkg.asks[i]? with
       | none => idle s
       | some q =>
         when (q.enq && q.reaches s) s (
           let r := q.req
           let src := (s.die (dieOfCluster q.cluster)).endpoint
           let d1 := enqTarget s q.die src r.tag r.handle
           if d1 != q.die then .go (s.modPkg (fun p => { p with asks := p.asks.modify i (fun q => { q with die := d1, moved := true }) })) []
           else
             match decide362 s q.die src r.tag (ageOf s r.sent) (runEnq s (some (dieOfCluster q.cluster)) q.die r.handle r.data) with
             | none => idle s
             | some (st, v, s1, ws) => .go (answer (s1.modPkg (fun p => { p with asks := p.asks.eraseIdx i })) q st v) ws))
    | .outside die source tag _ age handle data =>
      within (die < dieCount) (
        let d := enqTarget s die source tag handle
        let s0 := s.heard source
        if !earOpen s source then idle s
        else match decide362 s0 d source tag age (runEnq s0 none d handle data) with
        | none => idle s
        | some (st, v, s1, ws) => .go (s1.leave source (.ualink source (leBytes 2 tag ++ leBytes 2 st ++ leBytes 8 v.toNat))) ws))

/-! ### At the sender (R363) -/

/-- The record of a cp.amo (R364) or cp.enq (R365). -/
def remoteRecord (x : Cmd) (r : Remote) (v : Word) : List Byte :=
  if x.cmd = 4 then amoRecord v r.tag r.retries r.endpoint
  else enqRecord v.toNat r.handle r.retries

/-- Is a reply one after which the request is sent again (R363)? -/
def sendsAgain (r : Remote) (status : Nat) : Bool := status = stBusy || status = stMigrating || (status = stFull && r.wait)

/-- What the sender learns from a reply that names a new home (R60, R365): it drops what it has cached for the page of an atomic, and sends
later enqueues of the handle there. -/
def learnHome (s : State) (k tile : Nat) (x : Cmd) (r : Remote) (home : Option Nat) : State :=
  match home with
  | none => s
  | some d =>
    if x.cmd = 5 then s.modDie (dieOfCluster k) (fun D => { D with handleHome := D.handleHome.put r.handle d })
    else
      let c := ((s.tile (issuer k tile)).selected).ctxid.toNat
      s.modCluster k (fun K => { K with tlb := K.tlb.filter (fun y => !(y.ctxid = c && y.lo >>> y.span = r.addr.toNat >>> y.span)) })

/-- A request whose reply came from another home. -/
def Remote.homed (r : Remote) (s : State) (home : Option Nat) : Remote :=
  match home with | some d => { r with endpoint := (s.die d).endpoint } | none => r

/-- A reply for an outstanding request (R363, R364): sent again later, a fault, or the end of the command. -/
def replyArrives (s : State) (k tile : Nat) (x : Cmd) (r : Remote) (status : Nat) (v : Word) : State × List (Nat × Byte) :=
  let s1 := endTag s (dieOfCluster k) r.tag
  if sendsAgain r status then (s1.stage k tile x (.remote { r with refused := true, since := s.now }), [])
  else if status = 4 then (faultCmd s1 k tile x 3 (rangeFault 9 r.addr) 0 (remoteRecord x r v), [])
  else
    (endCmd s1 k tile x status (remoteRecord x r v),
     if x.cmd = 4 && status = 0 && r.op != 11 then putBytes (spadKey k r.res) (leBytes 8 v.toNat) else [])

/-- A reply for a tag that has ended is dropped and counted (R362). -/
def dropReply (s : State) (d : Nat) : State := s.modDie d (fun D => { D with staleReplies := sat32 (D.staleReplies + 1) })

/-- What a reply from another package brings: its new-home hint for a request that an old home sent out of the package (R60). -/
def learnMoved (s : State) (k tile : Nat) (x : Cmd) (r : Remote) : State :=
  if r.moved && x.cmd != 5 then learnHome s k tile x r (some 0) else s

/-- A reply reaches the sender (R362, R363): one of this package's targets, else what the message says. A reply for a tag that
has ended is dropped and counted. -/
def execAmoReply (cluster tile : Nat) (reply : Reply) (s : State) : Host.Outcome State Fault Refusal :=
  perform s (within (cluster < clusterCount && tile < 4) (
    let die := dieOfCluster cluster
    match s.pkg.answers.find? (fun a => a.cluster = cluster && a.tile = tile && a.tag = reply.tag) with
    | some a =>
      let s1 := s.modPkg (fun p => { p with answers := p.answers.erase a })
      (match remoteOf s cluster tile (fun r => r.out && r.tag = a.tag) with
       | some (x, r) =>
        if !((a.home.orElse (fun _ => r.die)).all (fun d => routeOpen s d die)) then idle s
        else
        let q := replyArrives (learnHome s1 cluster tile x r a.home) cluster tile x (r.homed s a.home) a.status a.value
        .go q.1 q.2
       | none => .go (dropReply s1 die) [])
    | none =>
      match remoteOf s cluster tile (fun r => r.out && r.die.isNone && r.tag = reply.tag) with
      | some (x, r) =>
        if !earOpen s r.endpoint then idle s
        else
          let q := replyArrives (learnMoved (s.heard r.endpoint) cluster tile x r) cluster tile x r reply.status reply.value
          .go q.1 q.2
      | none => when (!((s.die die).tags.contains reply.tag)) s (.go (dropReply s die) [])))

/-- rtmo expires (R363): the same request again, at most rmax times, then no response. -/
def execRetransmission (cluster tile : Nat) (s : State) : Host.Outcome State Fault Refusal :=
  perform s (within (cluster < clusterCount && tile < 4) (
    let K := s.cluster cluster
    match remoteOf s cluster tile (fun r => r.out && r.since + atLeast1 K.rtmo ≤ s.now) with
    | none => idle s
    | some (x, r) =>
      if r.retries < K.rmax then
        let r1 : Remote := { r with retries := r.retries + 1, since := s.now }
        .go (postAsk (s.stage cluster tile x (.remote r1)) cluster tile (x.cmd = 5) r1) []
      else .go (endCmd (endTag s (dieOfCluster cluster) r.tag) cluster tile x 0x36 (remoteRecord x r 0)) []))

/-- rint expires (R363): a refused request is sent again with a new tag. -/
def execRetryInterval (cluster tile : Nat) (s : State) : Host.Outcome State Fault Refusal :=
  perform s (within (cluster < clusterCount && tile < 4) (
    match remoteOf s cluster tile (fun r => r.refused && r.since + atLeast1 (s.cluster cluster).rint ≤ s.now) with
    | none => idle s
    | some (x, r) => .go (newAsk s cluster tile x (x.cmd = 5) r) []))

/-- A request held for its tag is released and sent (R361). -/
def execTagHoldExpiry (cluster tile : Nat) (s : State) : Host.Outcome State Fault Refusal :=
  perform s (within (cluster < clusterCount && tile < 4) (
    match remoteOf s cluster tile (fun r => r.held) with
    | none => idle s
    | some (x, r) => when (tagFree s (dieOfCluster cluster)) s (.go (newAsk s cluster tile x (x.cmd = 5) r) [])))

end Sys2Proof.Machine
end

