-- ==== Sys2Proof/Machine/Invalidate.lean ====
section
/-! DEFINITION. Invalidation (R53), host answers (R62, R63), requests between dies (R75) and writes to duplicated pages (R61). -/

namespace Sys2Proof.Machine

/-! ### Invalidation (R53, R63) -/

/-- Does a range under invalidation cover n bytes at an LV address of a context? -/
def Inval.hits (v : Inval) (ctxid a n : Nat) : Bool := v.ctxids.contains ctxid && overlap v.lo v.len a n

/-- Does it cover a cached translation? -/
def Inval.hitsXlat (v : Inval) (x : Xlat) : Bool := v.hits x.ctxid x.lo (2 ^ x.reach)

/-- A range joins those that a die invalidates. -/
def addInval (s : State) (v : Inval) (die : Nat) : State := s.modDie die (fun D => { D with invals := D.invals ++ [v] })

/-- System software writes the invalidation registers of a walker, for one die or for every die (R53). -/
def execInvalidate (die ctxid lo len : Nat) (everyDie : Bool) (s : State) : Host.Outcome State Fault Refusal :=
  perform s (within (die < dieCount) (
    let v : Inval := { ctxids := [ctxid], lo := lo, len := len, ats := none }
    .go (((if everyDie then List.range dieCount else [die])).foldl (fun s d => addInval s v d) s) []))

/-- Is an address an LV address, so that it was translated? -/
def translated (a : Word) (ps : List Piece) : Bool := !bit a 63 && !ps.isEmpty && ps.all (fun p => 2 ≤ keyKind p.key && keyKind p.key ≤ 5)

/-- Bytes of pieces. -/
def pieceSum (ps : List Piece) : Nat := (ps.map (·.size)).foldl (· + ·) 0

/-- The context identifiers of a tile. -/
def Tile.ids (T : Tile) : List Nat := (List.range 8).map (fun c => (T.ctx c).ctxid.toNat)

/-- The translated writes that a port holds. -/
def Port.pendingLv (T : Tile) (P : Port) : List (Nat × Nat × Nat) :=
  match P.prog with
  | some g => ((P.committed ++ P.buf).filter (·.xlat.isSome)).map (fun w => ((T.ctx g.ctx).ctxid.toNat, w.addr.toNat, w.data.length))
  | none => []

/-- The translated accesses that a tile, standing or read out, holds and that have not completed, as (context identifier, LV address, bytes):
those of its sequencer, its loads, its held and draining stores, the writes of its ports; of a load that has partly returned, the pieces left.
An access of the sequencer counts for every context of the tile. -/
def Tile.pendingLv (T : Tile) : List (Nat × Nat × Nat) :=
  let own (c : Nat) (a : Word) (ps : List Piece) : List (Nat × Nat × Nat) :=
    if translated a ps then [((T.ctx c).ctxid.toNat, a.toNat, pieceSum ps)] else []
  let seqs : List (Word × List Piece) := T.seq.loads.map (fun l => (l.addr + BitVec.ofNat 64 l.got.length, l.pieces)) ++ T.seq.queue.map (fun e => (e.addr, [e.piece]))
  (seqs.filter (fun p => translated p.1 p.2)).flatMap (fun p => T.ids.map (fun i => (i, p.1.toNat, pieceSum p.2))) ++
  (match T.round with
   | some r => r.loads.flatMap (fun l => own r.ctx (l.addr + BitVec.ofNat 64 l.got.length) l.pieces) ++ r.stores.flatMap (fun h => own r.ctx h.addr h.pieces)
   | none => []) ++
  T.drain.flatMap (fun h => own h.ctx h.addr h.pieces) ++ T.ports.flatMap (fun p => p.2.pendingLv T)

/-- The atomics of cp.amo that the tiles of a cluster have sent and that are not answered, each with its tile. -/
def pendingAmos (K : Cluster) : List (Nat × Nat × Nat) :=
  K.chains.flatMap (fun c => c.2.started.filterMap (fun x => match x.stage with
    | .remote r => if x.cmd = 4 then some (c.1 % 4, r.addr.toNat, r.size) else none
    | _ => none))

/-- The same of a tile where it stands, with its requests on their way and the atomics of its commands. -/
def pendingLv (s : State) (t : Nat) : List (Nat × Nat × Nat) :=
  (s.tile t).pendingLv ++
    ((pendingAmos (s.cluster (clusterOf t))).filter (fun q => q.1 = t % 4)).flatMap (fun q => (s.tile t).ids.map (fun i => (i, q.2))) ++
    (s.pkg.reqs.filter (fun r => r.tile = t)).flatMap (fun r => (s.tile t).ids.map (fun i => (i, r.addr.toNat, r.piece.size)))

/-- Tiles of a die. -/
def dieTiles (d : Nat) : List Nat := (List.range 160).map (d * 160 + ·)

/-- Does a launch that has been read out hold an atomic of a command that some test covers? -/
def savedAmos (L : Launch) (die : Nat) (hit : List (Nat × Nat × Nat) → Bool) : Bool :=
  (List.range L.savedClusters.length).any (fun i =>
    let K := L.savedClusters.getD i Cluster.reset
    L.saved.any (fun x => dieOf x.tile = die && hit (((pendingAmos K).filter (fun q => q.1 = x.tile % 4)).flatMap (fun q =>
      x.image.ids.map (fun c => (c, q.2))))))

/-- Is a translated access of a die that a range covers left (R53)? A held store in a save frame has neither completed nor been voided. -/
def accessLeft (s : State) (v : Inval) (die : Nat) : Bool :=
  let hit (l : List (Nat × Nat × Nat)) : Bool := l.any (fun p => v.hits p.1 p.2.1 p.2.2)
  (dieTiles die).any (fun t => hit (pendingLv s t)) ||
    s.launches.any (fun l => l.2.phase = .readOut && (l.2.saved.any (fun x => dieOf x.tile = die && hit x.image.pendingLv) ||
      savedAmos l.2 die hit))

/-- Drop the translations that a range covers. -/
def dropXlats (v : Inval) (l : List Xlat) : List Xlat := l.filter (fun x => !v.hitsXlat x)

/-- A port drops the translations that a range covers, that of its window and the fault of an early one held against a window among them
(R50, R53). -/
def dropPort (v : Inval) (T : Tile) (P : Port) : Port :=
  let covered := match P.prog, P.fault with
    | some g, some f => !g.write && !g.spad && !g.isStream &&
        v.hits (T.ctx g.ctx).ctxid.toNat (windowOf g f.2.1 * 2 ^ boundSpan g.psz) (2 ^ boundSpan g.psz)
    | _, _ => false
  { P with tlb := dropXlats v P.tlb, fault := if covered then none else P.fault,
           window := P.window.bind (fun w => match P.prog with
             | some g => if v.hits w.2.ctxid (w.1 * 2 ^ boundSpan g.psz) (2 ^ boundSpan g.psz) then none else some w
             | none => none) }

/-- A tile drops the translations that a range covers. -/
def dropTile (v : Inval) (T : Tile) : Tile :=
  { T with tlb := dropXlats v T.tlb, ports := T.ports.map (fun q => (q.1, dropPort v T q.2)) }

/-- Drop every matching entry of a die's tile, port and cluster TLBs. -/
def dropMatching (s : State) (v : Inval) (die : Nat) : State :=
  { s with
    tiles := s.tiles.map (fun p => (p.1, if dieOf p.1 = die then dropTile v p.2 else p.2))
    clusters := s.clusters.map (fun p => (p.1, if dieOfCluster p.1 = die then { p.2 with tlb := dropXlats v p.2.tlb } else p.2)) }

/-- The acknowledgement of a host's invalidation request, once no die has it left (R63). -/
def ackAts (s : State) (v : Inval) : State :=
  match v.ats with
  | some q => if (List.range dieCount).any (fun d => (s.die d).invals.any (fun w => w.ats = some q)) then s
              else s.send (.atsDone q.die q.pasid v.lo v.len)
  | none => s

/-- The oldest invalidation of a die completes: no access translated through a dropped entry is left, and every matching entry is
dropped (R53); a host request is acknowledged as its last die completes (R63). DEDUCED, log entry 59. -/
def execInvalidationComplete (die : Nat) (s : State) : Host.Outcome State Fault Refusal :=
  perform s (within (die < dieCount) (
    match (s.die die).invals with
    | [] => idle s
    | v :: rest =>
      when (!accessLeft s v die) s
        (.go (ackAts ((dropMatching s v die).modDie die (fun D => { D with invals := rest })) v) [])))

/-- The context identifiers of a tile, standing or read out, that have a PASID. -/
def pasidCtxs (pasid : Nat) (T : Tile) : List Nat :=
  T.ctxs.filterMap (fun c => if c.2.pasid.toNat = pasid then some c.2.ctxid.toNat else none)

/-- A host ATS invalidation request (R63): carried out on every die for every context with the PASID, standing or read out; what the host
answered for the range stands no longer. -/
def execAtsInvalidation (die pasid lo len : Nat) (s : State) : Host.Outcome State Fault Refusal :=
  perform s (within (die < dieCount) (
    let ids := (s.tiles.flatMap (fun p => pasidCtxs pasid p.2) ++
      s.launches.flatMap (fun l => l.2.saved.flatMap (fun x => pasidCtxs pasid x.image))).eraseDups
    let v : Inval := { ctxids := ids, lo := lo, len := len, ats := some { pasid := pasid, die := die, no := s.pkg.atsNo } }
    let s1 := s.modPkg (fun p => { p with
      atsNo := p.atsNo + 1, resident := p.resident.filter (fun q => !(v.hits q.1 (q.2 * 2 ^ 14) (2 ^ 14))) })
    .go ((List.range dieCount).foldl (addInval · v ·) s1) []))

/-! ### Host page requests (R62, R63) -/

/-- What a PRI answer makes of a context that waits for a page. -/
def answerCtx (page : Nat) (success : Bool) (c : Ctx) : Ctx :=
  match c.stopped with
  | some (.pri p _ _ _ _) => if p = page then { c with stopped := if success then none else some (.cause 0xE []) } else c
  | _ => c

/-- What it makes of a tile of the launch, standing or read out. -/
def answerTile (ctxid page : Nat) (success : Bool) (T : Tile) : Tile :=
  { T with ctxs := T.ctxs.map (fun c => (c.1, if c.2.ctxid.toNat = ctxid then answerCtx page success c.2 else c.2)) }

/-- The amber records of the waiting rounds of a tile (R62), with the slot, port and source of the fault that each met (R282). -/
def waitingRecs (s : State) (t ctxid page : Nat) : List Rec :=
  (s.tile t).ctxs.filterMap (fun c => match c.2.stopped with
    | some (.pri p slot port source a) =>
      if p = page && c.2.ctxid.toNat = ctxid then some (roundRec s t c.1 slot port source 0xE a (iterVector (s.tile t) c.1)) else none
    | _ => none)

/-- The amber records of a failed request: one for each waiting round, and one for a sequencer that stopped on it (R62), of a tile that stands
or of one that has been read out, whose private memory begins at priv. -/
def failRecs (s : State) (t priv ctxid page : Nat) : List Rec :=
  let T := s.tile t
  waitingRecs s t ctxid page ++
  (if T.seq.phase = .stopped && bits T.seq.tcause 15 0 = 0xD && T.seq.tval.toNat / 2 ^ 14 = page && T.selected.ctxid.toNat = ctxid then
    [s.tileRec t true 1 0xE T.seq.tval
      [BitVec.ofNat 64 (T.seq.tepc.toNat * 4), T.seq.tcause.zeroExtend 64, T.seq.lk, T.seq.operandA s.mem (priv + T.seq.tepc.toNat * 4)]]
   else [])

/-- The host answers a page request (R62): success lets the voided rounds replay, failure makes their fault fatal; an answer whose
generation is gone is dropped and counted (R63). -/
def execPriAnswer (die ctxid page : Nat) (success : Bool) (s : State) : Host.Outcome State Fault Refusal :=
  perform s (within (die < dieCount) (
    when ((s.die die).pri.contains (ctxid, page)) s (
      let s1 := s.modDie die (fun D => { D with pri := D.pri.filter (fun q => q != (ctxid, page)) })
      let l := ctxIndex ctxid
      match s.launch l with
      | some L =>
        if L.ctxid.toNat = ctxid then
          let s2 := if success then s1.modPkg (fun p =>
              { p with resident := if p.resident.contains (ctxid, page) then p.resident else p.resident ++ [(ctxid, page)] })
            else (L.place.flatMap (fun t => failRecs s t (privKey t 0) ctxid page) ++
              L.saved.flatMap (fun x => failRecs (s.setTile x.tile x.image) x.tile (sramKey L.home ((s.die L.home).spbase + x.frame * 0x1C000 + 0xC000))
                ctxid page)).foldl State.record s1
          let s3 := L.place.foldl (fun s t => s.modTile t (answerTile ctxid page success)) s2
          .go (s3.modLaunch l (fun L => { L with saved := L.saved.map (fun x => { x with image := answerTile ctxid page success x.image }) })) []
        else .go (s1.modDie die (fun D => { D with stale := sat32 (D.stale + 1) })) []
      | none => .go (s1.modDie die (fun D => { D with stale := sat32 (D.stale + 1) })) [])))

/-! ### Requests between dies (R61, R75) -/

/-- The request of a number. -/
def requestOf (s : State) (id : Nat) : Option Req := s.pkg.reqs.find? (fun r => r.id = id)
/-- Change a request. -/
def setRequest (s : State) (r : Req) : State :=
  s.modPkg (fun p => { p with reqs := p.reqs.map (fun q => if q.id = r.id then r else q) })

/-- The bytes that a request puts at its home: its data, or what an atomic makes of those that stand there (R79, R237). -/
def Req.bytes (r : Req) (s : State) : List Byte :=
  match r.amo with
  | some op => leBytes r.piece.size (amoNew op (8 * r.piece.size) (s.mem.nat r.piece.key r.piece.size) (leNat r.data) 0)
  | none => r.data

/-- A home applies a request: it leaves, and its bytes carry its clock (R75); an atomic has read what it replaces (R79). From another package the
response comes back (R390). -/
def applyReq (s : State) (r : Req) : Act :=
  let c0 := clockSet r.clock r.src r.no
  let c := if r.amo.isSome then clockJoin c0 (stampOf s r.piece.key r.piece.size) else c0
  .go ((if r.home = outHome then s.heard (domainSpot r.piece.key).1 else s).modPkg (fun p => stampAll { p with reqs := p.reqs.filter (fun q => q.id != r.id) } r.piece.key r.data.length c))
    (putBytes r.piece.key (r.bytes s))

/-- The late reply to a request that has been reported as lost is dropped and counted (R399). -/
def staleReply (s : State) (q : Nat × Nat) : State :=
  (s.modPkg (fun p => { p with lost := p.lost.filter (· != q) })).modDie q.2 (fun D => { D with staleReplies := sat32 (D.staleReplies + 1) })

/-- Does an earlier write of the same die to the same duplicated page stand before a request (R61)? -/
def queuedBehind (s : State) (r : Req) : Bool :=
  s.pkg.reqs.any (fun q => q.pends && r.pends && q.src = r.src && decide (q.id < r.id) && s.pkg.dups.any (fun d => d.holds q && d.holds r))

/-- May a home apply a request: no holder of a duplicated page still has its copy, and no earlier write of its die to the page is pending
(R61), the home has applied every write that its clock covers (R75), and packets reach it (R391, R398)? -/
def reqReady (s : State) (r : Req) : Bool :=
  r.holders.isEmpty && r.dropped.isEmpty && !queuedBehind s r && covered s r.home r.clock &&
    (if r.home = outHome then portOpen s (domainSpot r.piece.key).1 else routeOpen s r.src r.home)

/-- The key of a die's memory that a UPLI address names (R45, R390): bit 37 tells LPDDR. -/
def upliKey (die address : Nat) : Nat :=
  if address / 2 ^ 37 % 2 = 1 then lpddrKey die (address % 2 ^ 37) else sramKey die (address % 2 ^ 37)

/-- A UPLI request of another package is performed at the die that it names, or where that one redirects it (R60, R390), and the response leaves:
a status, 4 for no mapping, and the data of a read. DEDUCED, log entry 28. -/
def upliServe (s : State) (source die address : Nat) (body : Nat → Option (State × List Byte × List (Nat × Byte))) : Act :=
  if !earOpen s source then idle s
  else match forwardKey s dieCount (upliKey die address) with
    | .error c => .go ((s.heard source).leave source (.upliData source (if c = 0xF then stMigrating else 4) [])) []
    | .ok (k, _) =>
      match body k with
      | none => idle s
      | some (s1, data, ws) => .go ((s1.heard source).leave source (.upliData source 0 data)) ws

/-- A home receives a request and holds it against its vector clock (R75), or one of another package (R390); of one reported as lost the late
reply comes (R399). Another package writes its own memory: nothing of this one orders it. -/
def execRemoteRequest (request : RemoteSource) (s : State) : Host.Outcome State Fault Refusal :=
  perform s (
    match request with
    | .inside i =>
      (match requestOf s i with
       | some r => when (reqReady s r) s (applyReq s r)
       | none =>
         match s.pkg.lost.find? (fun q => q.1 = i) with
         | some q => .go (staleReply s q) []
         | none => idle s)
    | .read die source address n =>
      within (die < dieCount) (upliServe s source die address (fun k => some (s, s.mem.bytes k (min n 256), [])))
    | .write die source address data =>
      within (die < dieCount) (upliServe s source die address (fun k =>
        some (s.modPkg (fun p => stampAll p k (data.take 256).length []), [], putBytes k (data.take 256))))
    | .atomic die source address op wide t c =>
      within (die < dieCount && op < 12) (upliServe s source die address (fun k =>
        let n := if wide then 8 else 4
        let p : Piece := { key := k, size := n, home := keyHome s k, dup := 0 }
        (performAmo s (match p.home with | .die d => d * 160 | _ => die * 160) p op (t.toNat % 2 ^ (8 * n)) (c.toNat % 2 ^ (8 * n))).map (fun q =>
          (q.2.1, leBytes n q.1, if op = 10 then [] else q.2.2))))
    | .away e address data =>
      when (Config.domainHas e && (dieOfEndpoint s e).isNone) s
        (.go s (putBytes (remoteKey e (address / 2 ^ 37 % 2 = 1) (address % 2 ^ 37)) (data.take 256))))

/-- A holder clears dup in a cached translation of a duplicated page, which then names the home copy (R61). -/
def clearDup (d : Dup) (x : Xlat) : Xlat :=
  if x.ctxid = d.ctxid && bit x.leaf 54 && x.lo >>> x.span = (d.page * 2 ^ 14) >>> x.span then
    let kept : Word := x.leaf &&& ~~~(BitVec.ofNat 64 (2 ^ 54 + 3 * 2 ^ 57))
    let home : Word := kept ||| BitVec.ofNat 64 ((keyKind d.homeKey - 2) * 2 ^ 57)
    { x with leaf := withFrame home (keyIndex d.homeKey * 2 ^ 29 + keyOff d.homeKey / 2 ^ 14) }
  else x

/-- A holder drops its copy of the page of a pending write and clears dup in its cached translations. -/
def dropAt (s : State) (holder : Nat) (p : Piece) : State :=
  match s.pkg.dups.find? (fun d => d.homeKey ≤ p.key && p.key < d.homeKey + 2 ^ p.dup) with
  | none => s
  | some d =>
    let fix := fun (l : List Xlat) => l.map (clearDup d)
    let tiles := s.tiles.map (fun p => (p.1, if dieOf p.1 = holder then
      { p.2 with tlb := fix p.2.tlb, ports := p.2.ports.map (fun q => (q.1, { q.2 with tlb := fix q.2.tlb, window := q.2.window.map (fun w => (w.1, clearDup d w.2)) })) } else p.2))
    let clusters := s.clusters.map (fun p => (p.1, if dieOfCluster p.1 = holder then { p.2 with tlb := fix p.2.tlb } else p.2))
    { s with tiles := tiles, clusters := clusters }.modPkg (fun k => dropCopy k d holder)

/-- An invalidation reaches a holder of a duplicated page: it drops its copy and acknowledges (R61). -/
def execDupInvalidation (write holder : Nat) (s : State) : Host.Outcome State Fault Refusal :=
  perform s (
    match requestOf s write with
    | none => idle s
    | some r =>
      when (r.holders.contains holder) s
        (.go (setRequest (dropAt s holder r.piece)
          { r with holders := r.holders.filter (· != holder), dropped := r.dropped ++ [holder] }) []))

/-- An acknowledgement arrives; the last applies the write at the home copy (R61), where it need not wait under R75. -/
def execDupAck (write holder : Nat) (s : State) : Host.Outcome State Fault Refusal :=
  perform s (
    match requestOf s write with
    | none => idle s
    | some r =>
      when (r.dropped.contains holder) s (
        let r1 : Req := { r with dropped := r.dropped.filter (· != holder) }
        let s1 := setRequest s r1
        if reqReady s1 r1 then applyReq s1 r1 else .go s1 []))

end Sys2Proof.Machine
end

