-- ==== Sys2Proof/Machine/Lanes.lean ====
section
/-! DEFINITION. The delivery lanes: records copied to their rings (R281, R282) and their notifications (R397). -/

namespace Sys2Proof.Machine

/-! ### A record's bytes (R282) -/

/-- Bytes 7:0: valid, lane, source, voided, cause and seq. -/
def recWord0 (r : Rec) : Nat :=
  2 ^ 63 + r.amber.toNat * 2 ^ 62 + r.source % 16 * 2 ^ 58 + r.voided.toNat * 2 ^ 57 + r.cause % 2 ^ 16 * 2 ^ 32 + r.seq % 2 ^ 32

/-- Bytes 15:8: where the event arose. -/
def recWord1 (r : Rec) : Nat :=
  r.ctxid % 2 ^ 24 * 2 ^ 40 + r.die % 32 * 2 ^ 35 + r.cluster % 64 * 2 ^ 29 + r.tile % 4 * 2 ^ 27 + r.page % 16 * 2 ^ 23 +
    r.ctx % 8 * 2 ^ 20 + r.slot % 128 * 2 ^ 13 + r.port % 4 * 2 ^ 11

/-- The 64 bytes of a record. -/
def recBytes (r : Rec) : List Byte :=
  leBytes 8 (recWord0 r) ++ leBytes 8 (recWord1 r) ++ leBytes 8 r.value.toNat ++ leBytes 8 r.cycle ++
    (r.info.flatMap (fun (w : Word) => leBytes 8 w.toNat) ++ List.replicate 32 0).take 32

/-! ### Copying (R280, R281) -/

/-- Has a lane ring space? -/
def Lane.room (l : Lane) : Bool := l.lwr - l.lrd < 2 ^ l.llen

/-- The waiting record that is copied: amber first, in order of seq. The slots stand in that order. -/
def nextRecord (D : Die) : Option Rec :=
  match (if D.amber.room then D.slots.find? (fun r => r.amber) else none) with
  | some r => some r
  | none => if D.slate.room then D.slots.find? (fun r => !r.amber) else none

/-- Held records take slots as they become free, the oldest first; then those of the array scrubbers (R280). -/
def Die.settle (D : Die) : Die :=
  let D1 := D.waiting.foldl (fun (D : Die) r => D.place r) { D with waiting := [] }
  D1.scrubHeld.foldl (fun (D : Die) x => if slotFree D true then { D with scrubHeld := D.scrubHeld.del x.1 }.place x.2 else D) D1

/-- A die copies one waiting record to its lane's ring in stack SRAM, then advances lwr (R281), and raises its vector (R397). -/
def execRecordCopy (die : Nat) (s : State) : Host.Outcome State Fault Refusal :=
  perform s (within (die < dieCount) (
    let D := s.die die
    match nextRecord D with
    | none => idle s
    | some r =>
      let lane := if r.amber then D.amber else D.slate
      let up : Lane := { lane with lwr := lane.lwr + 1 }
      let D1 := { D with slots := D.slots.erase r, amber := if r.amber then up else D.amber, slate := if r.amber then D.slate else up }.settle
      .go (raiseVector (s.setDie die D1) (2 * die + (if r.amber then 0 else 1)))
        (putBytes (sramKey die (lane.lbase + lane.lwr % 2 ^ lane.llen * 64)) (recBytes r))))

/-- The host reads a lane's lwr: the vector may be raised again (R397). -/
def execLwrRead (die : Nat) (amber : Bool) (s : State) : Host.Outcome State Fault Refusal :=
  perform s (within (die < dieCount) (
    let l := if amber then (s.die die).amber else (s.die die).slate
    .go ((s.modPkg (fun p => { p with msix := p.msix.filter (fun v => v != 2 * die + (if amber then 0 else 1)) })).send
      (.hostData (leBytes 8 l.lwr))) []))

end Sys2Proof.Machine
end

