-- ==== Sys2Proof/Machine/Reduction.lean ====
section
/-! DEFINITION. The reduction engine: fabric reductions (R370 to R374, R341) and estimating sessions (R375 to R386). -/

namespace Sys2Proof.Machine

/-! ### Fabric reductions (R372 to R374) -/

/-- Format, rounding code and mask of a red.fab descriptor (R372). -/
def fabFt (d : List Byte) : Nat := leAt d 12 1
/-- Rounding code. -/
def fabRnd (d : List Byte) : Nat := leAt d 13 1
/-- Consist positions that take part. -/
def fabMask (d : List Byte) : Nat := leAt d 14 2
/-- Elements. -/
def fabCount (d : List Byte) : Nat := leAt d 8 4
/-- Reduction tag. -/
def fabTag (d : List Byte) : Nat := leAt d 16 1
/-- Bytes of an element. -/
def fabSize (d : List Byte) : Nat := codeWidth (fabFt d) / 8

/-- A vector of the reduction at an offset: 21 bits, aligned, inside the scratchpad (R42, R372). -/
def fabPlaceOk (d : List Byte) (off : Nat) : Bool := off % fabSize d == 0 && off + fabCount d * fabSize d ≤ 2 ^ 21

/-- Are the limits of a red.fab descriptor kept, at a consist position (R370, R372)? -/
def fabOk (d : List Byte) (pos size : Nat) : Bool :=
  let b := leAt d 20 4
  1 ≤ fabCount d && fabCount d ≤ 4096 && 8 ≤ fabFt d && fabFt d ≤ 13 && fabRnd d < 8 && fabPlaceOk d (leAt d 0 4) &&
  fabPlaceOk d (leAt d 4 4) && (fabMask d).testBit pos && fabMask d < 2 ^ size && fabTag d < 64 && leAt d 17 1 == 0 &&
  b / 2 ^ 21 % 2 ^ 10 == 0 && (b < 2 ^ 31 || b % 2 == 0) && leAt d 24 8 == 0

/-- A reserved rounding code or rs: bad mode (R370). -/
def fabBadMode (d : List Byte) : Bool := fabRnd d % 8 ≥ 4

/-- The participants with a tag, of which the first opened the reduction. -/
def partiesOf (L : Launch) (tag : Nat) : List RedParty := L.reds.filter (fun p => p.tag = tag)

/-- Is a tag in use by an unfinished reduction that a position cannot join (R373)? -/
def tagBusy (L : Launch) (tag pos : Nat) : Bool :=
  match partiesOf L tag with
  | [] => false
  | p :: r => (p :: r).any (fun q => q.pos = pos) || !((fabMask p.desc).testBit pos)

/-- red.fab (R370, R372, R373): a participant joins the reduction of its tag. -/
def execRedFab (cluster tile : Nat) (s : State) : Host.Outcome State Fault Refusal :=
  engineOp 2 1 false true cluster tile s (fun s x =>
    match engineLaunch s cluster with
    | none => (endCmd s cluster tile x 0x11 [], [])
    | some (l, L) =>
      let d := descriptor s cluster x
      let pos := (s.cluster cluster).pos
      if fabBadMode d then (endCmd s cluster tile x 3 [], [])
      else if !descOk x || !fabOk d pos L.consist.length then (endCmd s cluster tile x 0x11 [], [])
      else if tagBusy L (fabTag d) pos then (endCmd s cluster tile x 0x40 [], [])
      else
        let p : RedParty := { pos := pos, tag := fabTag d, cluster := cluster, tile := tile, cmd := x.seq, desc := d }
        ((s.stage cluster tile x .partners).modLaunch l (fun L => { L with reds := L.reds ++ [p] }), []))

/-- Do two descriptors agree in count, ft, rnd and mask (R373)? -/
def fabAgree (a b : List Byte) : Bool := leAt a 8 8 == leAt b 8 8

/-- Element i of a participant's vector. -/
def fabElem (s : State) (p : RedParty) (i : Nat) : Val :=
  let n := fabSize p.desc
  codeVal (fabFt p.desc) (leNat (spadBytes s p.cluster (leAt p.desc 0 4 + i * n) n))

/-- A value on a path of the FP64 tree: the value, flags, and the sum of h over the merges on its path (R374). -/
structure Node64 where
  val : Val
  flags : Flags
  bound : Val

/-- One level of the tree: adjacent pairs are merged, an unpaired last entry passes up. -/
def mergeLevel : List Node64 → List Node64
  | a :: b :: r =>
    let x := vadd a.val b.val 0
    let q := roundAcc .f64 x.1 0
    { val := q.1, flags := a.flags ||| b.flags ||| x.2 ||| q.2, bound := bndAdd (bndAdd a.bound b.bound) (halfUlp 8 0 q.1) } ::
      mergeLevel r
  | l => l

/-- The tree down to its last merge, which rounds once into FP64 with rnd (R112, R374; which sum is rounded last is DEDUCED, log
entry 20): result, flags, and the sum of h below the root. -/
def mergeTree (rnd : Nat) : Nat → List Node64 → Nat × Flags × Val
  | 0, _ => (0, 0, .zero)
  | _, [] => (0, 0, .zero)
  | _, [a] => let q := round .f64 a.val rnd; (q.1, a.flags ||| q.2, a.bound)
  | _, [a, b] =>
    let x := vadd a.val b.val rnd
    let q := round .f64 x.1 rnd
    (q.1, a.flags ||| b.flags ||| x.2 ||| q.2, bndAdd a.bound b.bound)
  | n + 1, l => mergeTree rnd n (mergeLevel l)

/-- Result, flags and added bound of one element (R374). -/
def reduceElem (ft rnd : Nat) (vs : List Val) : Nat × Flags × Val :=
  if ft = 8 then mergeTree rnd 16 (vs.map (fun v => { val := v, flags := 0, bound := .zero }))
  else match fmtOf ft with
    | some f => let q := (vs.foldl Rfx.add Rfx.zero).root f rnd; (q.1, q.2, .zero)
    | none => (0, 0, .zero)

/-- The elements of a reduction: encodings, flags, the greatest bound that an element adds (h of R340 in ft at the root). -/
def reduceAll (ft rnd : Nat) (rows : List (List Val)) : List Nat × Flags × Val :=
  let es := rows.map (reduceElem ft rnd)
  let h := fun (e : Nat × Flags × Val) =>
    if (codeVal ft e.1).special then Val.inf false else bndAdd e.2.2 (halfUlp ft rnd (codeVal ft e.1).abs)
  (es.map (fun e => e.1), flAll (es.map (fun e => e.2.1)), es.foldl (fun m e => vmaxAbs m (h e)) .zero)

/-- Does every element have a finite result (R374)? -/
def allFinite (ft : Nat) (encs : List Nat) : Bool := encs.all (fun e => !(codeVal ft e).special)

/-- The result bound (R341, R374). -/
def reduceBound (ft : Nat) (ps : List RedParty) (encs : List Nat) (h : Val) : BitVec 16 :=
  if allFinite ft encs then
    toBnd (bndAdd (ps.foldl (fun b p => bndAdd b (bndVal (BitVec.ofNat 16 (leAt p.desc 18 2)))) .zero) h)
  else 0xFFFF

/-- The record of red.fab (R374). -/
def fabRecord (bnd : BitVec 16) (fl : Flags) (tag : Nat) : List Byte :=
  leBytes 2 bnd.toNat ++ leBytes 1 fl.toNat ++ leBytes 1 tag

/-- Participants in rising consist position. -/
def sortParties (ps : List RedParty) : List RedParty :=
  (List.range 16).flatMap (fun i => ps.filter (fun p => p.pos = i))

/-- The command of a participant ends. -/
def endParty (s : State) (p : RedParty) (status : Nat) (rec : List Byte) : State :=
  match ((s.cluster p.cluster).chain 2 p.tile).started.find? (fun x => x.seq = p.cmd) with
  | some x => endCmd s p.cluster p.tile x status rec
  | none => s

/-- The bytes that a participant receives: the result, and the bound where its descriptor asks for it. -/
def partyWrites (p : RedParty) (encs : List Nat) (bnd : BitVec 16) : List (Nat × Byte) :=
  let b := leAt p.desc 20 4
  putBytes (spadKey p.cluster (leAt p.desc 4 4)) (encs.flatMap (leBytes (fabSize p.desc))) ++
    (if b ≥ 2 ^ 31 then putBytes (spadKey p.cluster (b % 2 ^ 21)) (leBytes 2 bnd.toNat) else [])

/-- Do packets go between the dies of the participants (R398)? -/
def partiesReach (s : State) (ps : List RedParty) : Bool :=
  ps.all (fun p => ps.all (fun q => routeOpen s (dieOfCluster p.cluster) (dieOfCluster q.cluster)))

/-- Has every cluster of the mask of a reduction issued (R373)? -/
def partiesMet (ps : List RedParty) : Bool :=
  match ps with
  | [] => false
  | p :: _ => (List.range 16).all (fun i => !((fabMask p.desc).testBit i) || ps.any (fun q => q.pos = i))

/-- The participants' dies have seen what every one of them has (R75). -/
def joinParties (s : State) (ps : List RedParty) : State :=
  let ds := (ps.map (fun p => dieOfCluster p.cluster)).eraseDups
  ds.foldl (fun s' d => mergeClock s' d (ds.foldl (fun c e => clockJoin c (s.die e).clock) [])) s

/-- A reduction runs once every cluster of its mask has issued (R373, R374). -/
def execReductionStart (launch tag : Nat) (s : State) : Host.Outcome State Fault Refusal :=
  perform s (within (launch < 2 ^ 14 && tag < 64) (
    match s.launch launch with
    | none => idle s
    | some L =>
      match partiesOf L tag with
      | [] => idle s
      | p :: r =>
        let ps := sortParties (p :: r)
        when (L.phase != .readOut && partiesMet (p :: r) && partiesReach s ps) s
          (let s1 := (joinParties s ps).modLaunch launch (fun L => { L with reds := L.reds.filter (fun q => q.tag != tag) })
           if ps.all (fun q => fabAgree p.desc q.desc) then
             let ft := fabFt p.desc
             let r := reduceAll ft (fabRnd p.desc) ((List.range (fabCount p.desc)).map (fun i => ps.map (fun q => fabElem s q i)))
             let b := reduceBound ft ps r.1 r.2.2
             .go (ps.foldl (fun s q => endParty s q 0 (fabRecord b r.2.1 tag)) s1) (ps.flatMap (fun q => partyWrites q r.1 b))
           else .go (ps.foldl (fun s q => endParty s q 0x41 []) s1) [])))

/-! ### Estimating sessions: the descriptor (R376) -/

/-- N, nmax and csz of a red.est descriptor. -/
def estN (d : List Byte) : Nat := leAt d 24 4
/-- Budget; 0 means N. -/
def estNmax (d : List Byte) : Nat := if leAt d 32 4 = 0 then estN d else leAt d 32 4
/-- Chunk size; 0 means 16. -/
def estCsz (d : List Byte) : Nat := if leAt d 36 1 = 0 then 16 else leAt d 36 1
/-- Tile of the cluster, ports, context and slot that the participant lends. -/
def estTile (d : List Byte) : Nat := leAt d 37 1
/-- Feed port. -/
def estFeed (d : List Byte) : Nat := leAt d 38 1 % 4
/-- Take port. -/
def estTake (d : List Byte) : Nat := leAt d 38 1 / 4
/-- Context. -/
def estCtx (d : List Byte) : Nat := leAt d 39 1
/-- The slot that receives indices. -/
def estSlot (d : List Byte) : Nat := leAt d 40 1
/-- The session parameters (R376). -/
def estParams (d : List Byte) : List Byte := d.take 37
/-- The take port's feeding slot (R385). -/
def takeSlot (slot : Nat) : Nat := slot ^^^ 64

/-- Are the limits of a red.est descriptor kept? -/
def estOk (d : List Byte) : Bool :=
  let z := decodeFmt .f64 (leAt d 8 8)
  let tol := decodeFmt .f64 (leAt d 16 8)
  let vt := leAt d 42 1
  !z.special && !z.isZero && !z.sign && !tol.special && (!tol.sign || tol.isZero) && 1 ≤ estN d && leAt d 28 4 ≤ estN d &&
  leAt d 32 4 ≤ estN d && leAt d 36 1 ≤ 16 && estTile d < 4 && leAt d 38 1 < 16 && estFeed d != estTake d && estCtx d < 8 &&
  estSlot d < 128 && (leAt d 41 1 = 1 || leAt d 41 1 = 2) && (vt = 1 || (8 ≤ vt && vt ≤ 13)) && leAt d 43 1 < 2 && leAt d 44 20 == 0

/-- The 64 bytes of a red.est descriptor. -/
def estDesc (s : State) (k : Nat) (x : Cmd) : List Byte := x.desc.getD (spadBytes s k (x.a.toNat % 2 ^ 21) 64)
/-- Are the operands of a command with 64-byte alignment kept (R370)? -/
def estOperands (x : Cmd) : Bool := x.a.toNat % 2 ^ 21 % 64 == 0 && x.b == 0

/-! ### Joining (R377, R385) -/

/-- Is a port free to be lent: its program has ended, no round of its context runs, and no loan holds it? -/
def portFree (T : Tile) (p : Nat) : Bool :=
  let P := T.port p
  P.ended && !P.loan && (match P.prog with | some g => !roundOf T g.ctx | none => true)

/-- Is the feeding slot of the take port configured with t0 = none (R385)? -/
def takeSlotOk (T : Tile) (d : List Byte) : Bool :=
  let w := (T.ctx (estCtx d)).block.word (takeSlot (estSlot d))
  w != 0 && (slotFields w).t0.toNat / 256 = 0

/-- What a lent port runs (R379, R385): an endless program of 8-byte elements. -/
def loanProg (write : Bool) (ctx slot pos : Nat) : PortProg :=
  { base := 0, spad := true, write := write, ctx := ctx, slot := slot, pos := pos, esz := 3, psz := 0, nlev := 0, stops := !write,
    rdr := 0, rel := false, pub := false, rlv := if write then 0 else 1, n := [2 ^ 64, 1, 1, 1], s := [0, 0, 0, 0] }

/-- A port serves a session. -/
def lendPort (P : Port) (g : PortProg) : Port := { Port.reset with prog := some g, tlb := P.tlb, loan := true }

/-- The ports of a participant are lent. -/
def lendPorts (T : Tile) (d : List Byte) : Tile :=
  (T.modPort (estFeed d) (fun P => lendPort P (loanProg false (estCtx d) (estSlot d) (leAt d 41 1)))).modPort (estTake d)
    (fun P => lendPort P (loanProg true (estCtx d) (takeSlot (estSlot d)) 0))

/-- A participant as it joins; after the stop it takes no chunk (R377). -/
def newMember (k tile : Nat) (x : Cmd) (d : List Byte) (knows : Bool) : Member :=
  { tile := k * 4 + estTile d, ctx := estCtx d, feed := estFeed d, take := estTake d, fslot := estSlot d, fpos := leAt d 41 1,
    vt := leAt d 42 1, chunks := [], sums := [], knows := knows, level2 := false, items := 0, from_ := tile, cmd := x.seq, gone := false, owed := 0, sent := 0,
    closed := false, done := false }

/-- The session that a root opens (R376, R377). Earlier participants whose loans have not ended keep them. -/
def newSession (d : List Byte) (old : Option Session) : Session :=
  { seed := BitVec.ofNat 64 (leAt d 0 8), z := leAt d 8 8, tol := leAt d 16 8, total := estN d, nmin := leAt d 28 4, nmax := estNmax d,
    csz := estCsz d, fin := leAt d 43 1 % 2 = 1, c := 0, n := 0, mean := 0, m2 := 0, flags := 0, stopped := false, failed := false,
    params := estParams d, ended := false,
    members := match old with
      | some S => (S.members.filter (fun p => !p.2.done)).map (fun p => (p.1 + 16, p.2))
      | none => [] }

/-- The open session of a launch. -/
def openSession (L : Launch) : Option Session := match L.session with | some S => if S.ended then none else some S | none => none

/-- Does a cluster already take part in the open session, or wait with another command to join one (R377)? -/
def estBusy (s : State) (L : Launch) (k pos : Nat) : Bool :=
  (match openSession L with | some S => (S.members.find pos).isSome || pos = 0 | none => false) ||
  (List.range 4).any (fun j => ((s.cluster k).chain 2 j).started.any (fun y =>
    match y.stage with | .session _ => true | _ => false))

/-- A red.est joins, opens a session, ends, or waits (R377, R385). None: it goes on waiting. -/
def tryJoin (s : State) (l : Nat) (L : Launch) (k tile : Nat) (x : Cmd) (d : List Byte) : Option State :=
  let pos := (s.cluster k).pos
  let T := s.tile (k * 4 + estTile d)
  let free := portFree T (estFeed d) && portFree T (estTake d)
  let lent (s : State) (S : Session) (knows : Bool) : State :=
    ((s.modTile (k * 4 + estTile d) (fun T => lendPorts T d)).stage k tile x (.session d)).setSession l
      { S with members := S.members.put pos (newMember k tile x d knows) }
  match openSession L with
  | some S =>
    if estParams d != S.params then some (endCmd s k tile x 0x41 [])
    else if !free then none
    else if !takeSlotOk T d then some (endCmd s k tile x 0x11 [])
    else some (lent s S S.stopped)
  | none =>
    if pos != 0 || !free then none
    else if !takeSlotOk T d then some (endCmd s k tile x 0x11 [])
    else some (lent s (newSession d L.session) false)

/-- A red.est of a chain that waits to join: its descriptor, and what becomes of it now. -/
def joinNow (s : State) (k tile : Nat) : Option State :=
  match engineLaunch s k with
  | none => none
  | some (l, L) =>
    ((s.cluster k).chain 2 tile).started.findSome? (fun x => match x.stage with
      | .session d =>
        if (match openSession L with | some S => S.members.any (fun m => m.2.cmd = x.seq && m.2.from_ = tile && m.1 = (s.cluster k).pos)
                                     | none => false) then none
        else tryJoin s l L k tile x d
      | _ => none)

/-- red.est (R370, R376, R377, R385): a waiting command that can join does; else the next one is performed. -/
def execRedEst (cluster tile : Nat) (s : State) : Host.Outcome State Fault Refusal :=
  match (if cluster < clusterCount && tile < 4 then joinNow s cluster tile else none) with
  | some s1 => perform s (.go s1 [])
  | none =>
    engineOp 2 2 false true cluster tile s (fun s x =>
      match engineLaunch s cluster with
      | none => (endCmd s cluster tile x 0x11 [], [])
      | some (l, L) =>
        let d := estDesc s cluster x
        if !estOperands x || !estOk d then (endCmd s cluster tile x 0x11 [], [])
        else if estBusy s L cluster (s.cluster cluster).pos then (endCmd s cluster tile x 0x40 [], [])
        else ((tryJoin s l L cluster tile x d).getD (s.stage cluster tile x (.session d)), []))

/-! ### A session at work (R378 to R382, R386) -/

/-- The session of a launch and the participant at a position; a session that is saved stands still (R383). -/
def sessionAt (s : State) (l pos : Nat) : Option (Session × Member) :=
  (s.launch l).bind (fun L => if L.phase = .readOut then none else L.session.bind (fun S => (S.members.find pos).map (fun m => (S, m))))

/-- A step of a session at a position. -/
def sessionOp (l pos : Nat) (s : State) (body : Session → Member → Act) : Host.Outcome State Fault Refusal :=
  perform s (within (l < 2 ^ 14 && pos < 16) (
    match sessionAt s l pos with
    | none => idle s
    | some (S, m) => body S m))

/-- Put a participant of a session. -/
def Session.put (S : Session) (pos : Nat) (m : Member) : Session := { S with members := S.members.put pos m }

/-- The tokens of a chunk: its indices, then the stop token of level 1 (R379). -/
def chunkTokens (S : Session) (lo hi : Nat) : List Tok :=
  (List.range (hi - lo)).map (fun i => dataTok .scalar (BitVec.ofNat 512 (permute S.seed S.total (lo + i))) []) ++ [stopTok .scalar 1 []]

/-- Tokens join those that wait in the feed port of a participant, and those that wait again if the round in hand is voided (R380). -/
def feedTokens (s : State) (m : Member) (ts : List Tok) : State :=
  s.modTile m.tile (fun T => T.modPort m.feed (fun P =>
    { P with toks := P.toks ++ ts, saved := { P.saved with toks := P.saved.toks ++ ts } }))

/-- The root serves a claim that has reached it (R378): the next chunk, or nothing when the budget is spent or the session has stopped. -/
def serveClaim (s : State) (l pos : Nat) : State :=
  match sessionAt s l pos with
  | none => s
  | some (S, m0) =>
    if m0.owed = 0 then s
    else
      let m : Member := { m0 with owed := m0.owed - 1 }
      if S.stopped || S.c ≥ S.nmax then s.setSession l (S.put pos { m with knows := true })
      else
        let hi := min (S.c + S.csz) S.nmax
        (feedTokens s m (chunkTokens S S.c hi)).setSession l { S.put pos { m with chunks := m.chunks ++ [(S.c, hi)] } with c := hi }

/-- The sessions as a cycle ends: after the merges and the stop decision of the cycle the root serves its claims in rising consist
position, of a participant at most two (R378, R386), and loans end (R377). -/
def sessionCycle (s : State) (l : Nat) : State := endLoans ((List.range 16).foldl (fun s pos => serveClaim (serveClaim s l pos) l pos) s) l

/-- Do packets go between a participant's die and the root's (R398)? -/
def rootReached (s : State) (l : Nat) (m : Member) : Bool :=
  match (s.launch l).bind (fun L => L.consist[0]?) with
  | some k => routeOpen s (dieOf m.tile) (dieOfCluster k)
  | none => true

/-- The command of a participant, while it has not completed. -/
def memberCmd (s : State) (l pos : Nat) (m : Member) : Option Cmd :=
  ((s.launch l).bind (fun L => L.consist[pos]?)).bind (fun k => ((s.cluster k).chain 2 m.from_).started.find? (fun x => x.seq = m.cmd))

/-- Has the command of a participant lost a message, so that it waits for a resume (R399)? -/
def memberLost (s : State) (l pos : Nat) (m : Member) : Bool :=
  (memberCmd s l pos m).any (fun x => match x.stage with | .faulted _ _ _ => true | _ => false)

/-- A participant that holds fewer than two chunks sends a claim, one in a cycle (R378, R386); it reaches the root in this cycle. DEDUCED,
log entry 53. -/
def execClaim (launch position : Nat) (s : State) : Host.Outcome State Fault Refusal :=
  sessionOp launch position s (fun S m =>
    when (!S.ended && !m.knows && m.owed = 0 && m.chunks.length < 2 && rootReached s launch m) s
      (.go (s.setSession launch (S.put position { m with owed := 1 })) []))

/-- Statistics on their way to the root. -/
def sumStats (q : Nat × Nat × Nat × Nat) : Stats :=
  { n := q.1, mean := (q.2.1, BitVec.ofNat 6 q.2.2.2), m2 := (q.2.2.1, BitVec.ofNat 6 q.2.2.2) }

/-- The root merges statistics, and takes the stop unless it has already stopped (R380, R382). -/
def mergeInto (S : Session) (q : Nat × Nat × Nat × Nat) : Session :=
  let st := Stats.merge { n := S.n, mean := (S.mean, S.flags), m2 := (S.m2, S.flags) } (sumStats q)
  { S with n := st.n, mean := st.mean.1, m2 := st.m2.1, flags := S.flags ||| st.mean.2 ||| st.m2.2,
           stopped := S.stopped || stopHolds S.z S.tol st.m2.1 st.n S.nmin }

/-- Has every chunk been merged, with no more to come (R382)? -/
def Session.complete (S : Session) : Bool :=
  (S.stopped || S.c ≥ S.nmax) && S.members.all (fun p => p.2.gone || (p.2.chunks.isEmpty && p.2.sums.isEmpty))

/-- A chunk's statistics are merged at the root (R380), and the claim that this allows has come with them (R386); the last merge ends the
session (R382). -/
def execMerge (launch position : Nat) (s : State) : Host.Outcome State Fault Refusal :=
  sessionOp launch position s (fun S m =>
    match m.sums with
    | q :: rest =>
      when (!S.ended && !m.gone && rootReached s launch m && !memberLost s launch position m) s (
        let S1 := mergeInto (S.put position
          { m with sums := rest, sent := s.now, chunks := m.chunks.tail, owed := m.owed + (!m.knows).toNat }) q
        .go (if S1.complete then endSession s launch S1 else s.setSession launch S1) [])
    | [] => idle s)

/-- The stop reaches a participant's engine (R382, R386). -/
def execStopNotice (launch position : Nat) (s : State) : Host.Outcome State Fault Refusal :=
  sessionOp launch position s (fun S m =>
    when (S.stopped && !m.knows && rootReached s launch m) s (.go (s.setSession launch (S.put position { m with knows := true })) []))

/-- Is a participant due its level-2 stop? -/
def Member.stopDue (m : Member) : Bool := m.knows && m.owed = 0 && m.chunks.isEmpty && m.sums.isEmpty && !m.level2 && !m.done

/-- The feed port of a participant that can claim nothing more and holds no chunk is sent the level-2 stop (R379, R386); a loan
of an earlier session is served as well. -/
def execLevel2Stop (launch position : Nat) (s : State) : Host.Outcome State Fault Refusal :=
  perform s (within (launch < 2 ^ 14 && position < 16) (
    match (s.launch launch).bind (fun L => if L.phase = .readOut then none else L.session) with
    | none => idle s
    | some S =>
      match S.members.find? (fun p => p.1 % 16 = position && p.2.stopDue) with
      | some (key, m) =>
        .go ((feedTokens s m [stopTok .scalar 2 []]).setSession launch (S.put key { m with level2 := true })) []
      | none => idle s))

/-! ### red.rd (R383) -/

/-- State of a session (R383): draining from the stop to the end. DEDUCED, log entry 21. -/
def Session.stateCode (S : Session) : Nat := if S.ended then 3 else if S.stopped then 2 else 1

/-- The 64-byte image of a session. -/
def sessionImage (S : Session) : List Byte :=
  leBytes 8 S.n ++ leBytes 8 S.mean ++ leBytes 8 S.m2 ++ leBytes 8 S.c ++ leBytes 1 S.stateCode ++
    leBytes 1 (if S.stateCode = 1 then 0xFF else S.reason) ++
    leBytes 2 ((List.range 16).foldl (fun n p => if (S.members.find p).isSome then n + 2 ^ p else n) 0) ++ leBytes 28 0

/-- red.rd (R370, R383). -/
def execRedRd (cluster tile : Nat) (s : State) : Host.Outcome State Fault Refusal :=
  engineOp 2 3 false false cluster tile s (fun s x =>
    if !estOperands x then (endCmd s cluster tile x 0x11 [], [])
    else
      let img := match (engineLaunch s cluster).bind (fun p => p.2.session) with
        | some S => sessionImage S
        | none => leBytes 64 0
      (endCmd s cluster tile x 0 [], putBytes (spadKey cluster (x.a.toNat % 2 ^ 21)) img))

end Sys2Proof.Machine
end

