-- ==== Sys2Proof/Machine/Links.lean ====
section
/-! DEFINITION. Die-to-die links (R387 to R389), UALinkSec (R391, R392), stream ingress (R394, R395), rerouting (R398), request
timers (R399) and router power (R400). -/

namespace Sys2Proof.Machine

/-! ### Die-to-die links (R387, R388) -/

/-- fold(s) of a 48-bit sequence number. -/
def crcFold (s : Nat) : Nat := (s % 2 ^ 32) ^^^ (s / 2 ^ 32 % 2 ^ 16)
/-- One bit of a CRC-32C: the reflected polynomial. -/
def crcBit (r : Nat) (b : Bool) : Nat := if (r % 2 = 1) != b then (r / 2) ^^^ 0x82F63B78 else r / 2
/-- CRC-32C of 256 data bits from fold(s) on, bit 0 first, complemented at the end (log entry 27). -/
def flitCrc (s : Nat) (data : BitVec 256) : Nat :=
  (List.range 256).foldl (fun r i => crcBit r (data.getLsbD i)) (crcFold s) ^^^ 0xFFFFFFFF

/-- How many of the unacknowledged flits an acknowledgement takes from the retry buffer, by its 15 low bits: the window is less than 2^14, so
that the full number is known (R388). -/
def ackedBy (L : Link) (next : Nat) : Nat :=
  let d := (next + 2 ^ 48 + L.buf.length - L.next) % 2 ^ 15
  if d ≤ L.buf.length then d else 0

/-- What a sideband tells the sending side: flits below next are acknowledged; a retry names the flit to send again from. -/
def Link.sideband (L : Link) (side : BitVec 16) : Link :=
  let a := ackedBy L (side.toNat % 2 ^ 15)
  let retry := side.getLsbD 15
  { L with buf := L.buf.drop a, resendFrom := if retry then some 0 else L.resendFrom.map (· - a),
           retries := if retry then (if a != 0 then 1 else L.retries + 1) else if a != 0 then 0 else L.retries }

/-- What the sideband reports of the opposite direction (R387). -/
def Link.report (L : Link) : BitVec 16 := BitVec.ofNat 16 (L.expected % 2 ^ 15 + L.retry.toNat * 2 ^ 15)
/-- A flit with a number: its data, its CRC, and the sideband (R387). -/
def Link.flit (L : Link) (no : Nat) (data : BitVec 256) : BitVec 256 × BitVec 32 × BitVec 16 :=
  (data, BitVec.ofNat 32 (flitCrc (no % 2 ^ 48) data), L.report)

/-- What an end of a link puts on the wire in a cycle (R387, R388): the next of the flits to send again, else a new one while fewer than 128 are
unacknowledged and the link is not drained (R398), else none. -/
def Link.transmit (L : Link) (die link now : Nat) : Link :=
  match L.resendFrom with
  | some i => { L with resendFrom := if i + 1 < L.buf.length then some (i + 1) else none, sentAt := some now,
                       wire := (L.buf[i]?).map (L.flit (L.next + 2 ^ 48 - L.buf.length + i)) }
  | none =>
    if L.buf.length < 128 && !L.draining then
      let data := Config.linkData die link L.next
      { L with next := (L.next + 1) % 2 ^ 48, buf := L.buf ++ [data], sentAt := some now, wire := some (L.flit L.next data) }
    else { L with sentAt := some now, wire := none }

/-- The receiver checks a flit against its expected number. -/
def Link.accept (L : Link) (ok : Bool) (data : BitVec 256) : Link :=
  if ok then { L with expected := (L.expected + 1) % 2 ^ 48, retry := false, discarding := false, taken := data }
  else { L with retry := true, discarding := true }

/-- What an end sends reaches the other: a flit is accepted at its number, else discarded, and its sideband read; with no flit to send the
sideband goes alone. DEDUCED, log entry 61. -/
def Link.hear (L sender : Link) (data : BitVec 256) (crc : BitVec 32) (side : BitVec 16) : Link :=
  match sender.wire with
  | some f => (L.accept ((f.2.1 ^^^ crc).toNat = flitCrc L.expected (f.1 ^^^ data)) (f.1 ^^^ data)).sideband (f.2.2 ^^^ side)
  | none => L.sideband (sender.report ^^^ side)

/-- The other end after a flit, some bits of which have been changed, or without side one that does not arrive. -/
def Link.arrive (L sender : Link) (data : BitVec 256) (crc : BitVec 32) : Option (BitVec 16) → Link
  | some side => L.hear sender data crc side
  | none => L

/-- The retry bit that arrives with it. -/
def retryHeard (sender : Link) (side : Option (BitVec 16)) : Bool :=
  side.any (fun e => ((match sender.wire with | some f => f.2.2 | none => sender.report) ^^^ e).getLsbD 15)

/-- Do both ends of a link work? -/
def linkWorks (s : State) (die link peer back : Nat) : Bool :=
  let L := (s.die die).link link
  let R := (s.die peer).link back
  L.up && !L.dead && R.up && !R.dead

/-- A link carries the flit of a cycle to an end of it: the other end sends it, at most one in a cycle, and it arrives, or goes wrong (R387 to R389).
Of a UALink port (links 4 to 19) it tells only whether its own replay has sent again, which is counted (R390, R406). DEDUCED, log entry 61. -/
def execFlit (die link : Nat) (data : BitVec 256) (crc : BitVec 32) (side : Option (BitVec 16)) (s : State) : Host.Outcome State Fault Refusal :=
  perform s (within (die < dieCount && link < 20) (
    if link ≥ 4 then .go (if data = 0 ∧ crc = 0 ∧ side = some 0 then s else s.count (tmKey 1 dieCount (link - 4) 0) 1) []
    else match linkBack die link with
      | none => idle s
      | some back =>
        let peer := linkPeer die link
        let R := ((s.die peer).link back).transmit peer back s.now
        let L := ((s.die die).link link).arrive R data crc side
        when (linkWorks s die link peer back && ((s.die peer).link back).sentAt != some s.now) s
          (let s1 := (s.modDie peer (fun D => D.setLink back R)).modDie die (fun D => D.setLink link L)
           .go (if retryHeard R side then s1.count (tmKey 1 die link 0) 1 else s1) [])))

/-- The messages that wait in a port leave as they now may (R391, R398). -/
def release (s : State) (port : Nat) : State :=
  (s.pkg.port port).waiting.foldl (fun s m => s.leave m.endpoint m) (s.modExt port (fun P => { P with waiting := [] }))

/-- A link trains, or fails to (R387, R390): links 0 to 3 are die-to-die, 4 to 19 the UALink ports. A port that does not train at
×4 is disabled in its capability register. -/
def execLinkTraining (die link : Nat) (ok : Bool) (s : State) : Host.Outcome State Fault Refusal :=
  perform s (within (die < dieCount && link < 20) (
    if link < 4 then .go (s.modDie die (fun D => D.setLink link { Link.reset with up := ok })) []
    else if ok then .go (release (s.modExt (link - 4) (fun P => { P with down := false, draining := false, via := none })) (link - 4)) []
    else .go ((s.modExt (link - 4) (fun P => { P with down := true })).modPkg (fun p =>
      { p with caps := p.caps.put 0x1B (p.caps.get 0 0x1B &&& ~~~(BitVec.ofNat 64 (2 ^ (link - 4)))) })) []))

/-! ### Stopping for a hardware error (R284, R398) -/

/-- A tile on which nothing of its launch goes on. -/
def haltTile (s : State) (t : Nat) : State := s.modTile t (fun T => { T with dead := true })
/-- A launch that accepts only kill. -/
def condemn (s : State) (l : Nat) : State := s.modLaunch l (fun L => { L with dead := true })

/-! ### Dead links (R389, R398) -/

/-- Where tokens of a launch cross from tile to tile: one pair for each export word of a placed block (R201). -/
def staticRoutes (s : State) (L : Launch) : List (Nat × Nat) :=
  L.place.flatMap (fun t => (List.range 8).flatMap (fun c =>
    let b := ((s.tile t).ctx c).block
    b.slots.flatMap (fun x => [0, 1].filterMap (fun out =>
      (exportOf b x.1 out).bind (fun p => (L.place[p]?).map (fun u => (t, u)))))))

/-- Does a launch use a static stream route across a link, in either direction? -/
def usesLink (s : State) (L : Launch) (die link : Nat) : Bool :=
  (staticRoutes s L).any (fun r => onRoute (dieOf r.1) (dieOf r.2) die link)

/-- The record of a launch whose static route is lost (R398). -/
def routeRec (s : State) (L : Launch) (die link : Nat) : Rec :=
  { amber := true, source := 8, voided := false, cause := 0x40, ctxid := L.ctxid.toNat, die := die, cluster := 0, tile := 0, page := 0,
    ctx := 0, slot := 0, port := 0, value := BitVec.ofNat 64 link, cycle := s.now - (s.die die).cycleBase, info := [], seq := 0 }

/-- Stop every launch whose static routes crossed a link. -/
def stopRouted (s : State) (die link : Nat) : State :=
  (s.launches.filter (fun q => usesLink s q.2 die link)).foldl (fun s q =>
    q.2.place.foldl haltTile (condemn (s.record (routeRec s q.2 die link)) q.1)) s

/-- One end of a dead link drains; its retry buffer is held (R398, R401). -/
def killEnd (s : State) (die link : Nat) : State :=
  s.modDie die (fun D => D.setLink link { D.link link with dead := true, draining := true })

/-- A link is dead, at both its ends: its routers drain and tell firmware, and launches routed across it stop (R398). -/
def killLink (s : State) (die link : Nat) : Act :=
  let s1 := killEnd s die link
  let s2 := match linkBack die link with | some l => killEnd s1 (linkPeer die link) l | none => s1
  .go ((stopRouted s2 die link).send (.firmware 0 (die * 4 + link))) []

/-- 16 retries in a row with no flit accepted (R389). -/
def execLinkDead (die link : Nat) (s : State) : Host.Outcome State Fault Refusal :=
  perform s (within (die < dieCount && link < 4) (
    let L := (s.die die).link link
    when (L.up && !L.dead && 16 ≤ L.retries) s (killLink s die link)))

/-- Loss of lane lock (R389). -/
def execLaneLockLoss (die link : Nat) (s : State) : Host.Outcome State Fault Refusal :=
  perform s (within (die < dieCount && link < 4) (
    let L := (s.die die).link link
    when (L.up && !L.dead) s (killLink s die link)))

/-- A UALink port (0 to 15) or Ultra Ethernet port (16 to 19) goes down and drains (R398). -/
def execPortDown (port : Nat) (s : State) : Host.Outcome State Fault Refusal :=
  perform s (within (port < 20) (
    .go ((s.modExt port (fun P => { P with down := true, draining := true })).send (.firmware 1 port)) []))

/-! ### UALinkSec (R391, R392) -/

/-- A direction of a port. -/
def ExtPort.dir (P : ExtPort) (receive : Bool) : KeyDir := if receive then P.receive else P.transmit
/-- Put a direction. -/
def ExtPort.setDir (P : ExtPort) (receive : Bool) (k : KeyDir) : ExtPort :=
  if receive then { P with receive := k } else { P with transmit := k }

/-- The next key becomes active. -/
def KeyDir.switch (k : KeyDir) : KeyDir := { active := k.next, next := 0, nextv := false, stopped := false, count := 0 }

/-- The record of a stopped direction (R391). -/
def keyRec (s : State) (port : Nat) (receive : Bool) : Rec :=
  let d := Config.portDie port % 24
  { amber := true, source := 8, voided := false, cause := 0x2B, ctxid := 0, die := d, cluster := 0, tile := 0, page := 0, ctx := 0,
    slot := 0, port := 0, value := BitVec.ofNat 64 (port + (if receive then 16 else 0)), cycle := s.now - (s.die d).cycleBase, info := [], seq := 0 }

/-- A direction takes up its next key, and what waited leaves under it. -/
def takeKey (s : State) (port : Nat) (receive : Bool) : State :=
  let s1 := s.modExt port (fun P => P.setDir receive (P.dir receive).switch)
  if receive then s1 else release s1 port

/-- The next flit would take counter 2^32 − 1: the direction switches to its next key, or stops with a record (R391).
DEDUCED, log entry 62. -/
def execKeyExhaustion (port : Nat) (receive : Bool) (s : State) : Host.Outcome State Fault Refusal :=
  perform s (within (port < 16) (
    let k := (s.pkg.port port).dir receive
    when (keySpent ≤ k.count && !k.stopped && (receive || !(s.pkg.port port).waiting.isEmpty)) s (
      if k.nextv then .go (takeKey s port receive) []
      else .go ((s.modExt port (fun P => P.setDir receive { k with stopped := true })).record (keyRec s port receive)) [])))

/-- Firmware installs a next key, or replaces it (R391, R392). -/
def execSeckey (port : Nat) (receive : Bool) (key : BitVec 256) (s : State) : Host.Outcome State Fault Refusal :=
  perform s (within (port < 16) (
    .go ((s.modExt port (fun P => P.setDir receive { P.dir receive with next := key, nextv := true })).modPkg (fun p =>
      { p with keyInstalls := p.keyInstalls + 1 })) []))

/-- Does the record of a stopped direction wait for a slot (R280)? -/
def keyRecWaits (s : State) (port : Nat) (receive : Bool) : Bool :=
  let r := keyRec s port receive
  (s.die r.die).waiting.any (fun w => w.source = r.source && w.cause = r.cause && w.value = r.value)

/-- A stopped direction of a port resumes in the cycle after a key has been installed (R391), once its record has a slot (R280). -/
def resumeKey (s : State) (port : Nat) (receive : Bool) : State :=
  let k := (s.pkg.port port).dir receive
  if k.stopped && k.nextv && !keyRecWaits s port receive then takeKey s port receive else s

/-- The image of secstat (R392). -/
def secstat (k : KeyDir) : Word :=
  BitVec.ofNat 64 (k.nextv.toNat * 2 ^ 63 + k.stopped.toNat * 2 ^ 62 + k.count)

/-! ### Stream ingress (R394, R395) -/

/-- The stream handle of an ingress entry. -/
def inHandle (e : BitVec 64) : Nat := bits e 14 0
/-- The owning launch. -/
def inCtxid (e : BitVec 64) : Nat := bits e 39 16
/-- Its valid bit. -/
def inValid (e : BitVec 64) : Bool := bit e 47
/-- Policy: hold. -/
def inHold (e : BitVec 64) : Bool := bit e 46

/-- An ingress entry of a die. -/
def Die.entry (D : Die) (i : Nat) : Ingress := D.ingress.get Ingress.reset i
/-- Count a message at an entry: delivered, or dropped. -/
def countIngress (s : State) (die i : Nat) (delivered : Bool) : State :=
  s.modDie die (fun D =>
    let e := D.entry i
    { D with ingress := D.ingress.put i (if delivered then { e with delivered := sat32 (e.delivered + 1) } else { e with dropped := sat32 (e.dropped + 1) }) })

/-- The live launch of an identifier. -/
def liveLaunch (s : State) (ctxid : Nat) : Option (Nat × Launch) :=
  (s.launch (ctxIndex ctxid)).bind (fun L => if L.ctxid.toNat = ctxid then some (ctxIndex ctxid, L) else none)

/-- How an ingress message fares (R395). -/
inductive InFate
  | dropped (s : State)
  | held
  | wait
  | written (s : State) (ws : List (Nat × Byte))

/-- At the stream's home, as one operation: the window, then reserve, write and publish (R304, R395). -/
def ingressHome (s : State) (die i l h : Nat) (hold : Bool) (data : List Byte) : InFate :=
  match s.stream l h with
  | none => .dropped (countIngress s die i false)
  | some st =>
    if gap (st.rsv + data.length) st.tf > st.extent then (if hold then .held else .dropped (countIngress s die i false))
    else if st.outstanding ≥ 64 then .wait
    else
      let (st1, start) := st.reserve data.length
      match streamWrite (s.markStream none l h st1) none l h start data with
      | none => .wait
      | some (s1, ws) =>
        match (s1.stream l h).bind (fun st2 => st2.publish start data.length) with
        | none => .wait
        | some st3 => .written (countIngress (s1.markStream none l h st3) die i true) ws

/-- The checks before the home (R395). DEDUCED, log entry 63. -/
def ingressFate (s : State) (die : Nat) (m : List Byte) : InFate :=
  let i := leAt m 0 1
  let e := ((s.die die).entry i).image
  let drop : InFate := .dropped (if inValid e then countIngress s die i false else s)
  let data := m.drop 8
  if m.length < 8 || leAt m 1 7 != 0 || !inValid e then drop
  else match liveLaunch s (inCtxid e) with
    | none => drop
    | some (l, _) =>
      match s.stream l (inHandle e) with
      | none => drop
      | some st =>
        if st.scope < 5 || data.length = 0 || data.length > st.extent then drop
        else ingressHome s die i l (inHandle e) (inHold e) data

/-- Is a port stalled by a held message? -/
def Die.stalled (D : Die) (port : Nat) : Bool := (D.held.find port).isSome
/-- Is an Ultra Ethernet port of the part enabled and up (R398, R408)? -/
def etherOpen (s : State) (port : Nat) : Bool := portEnabled s (16 + port) && !(s.pkg.port (16 + port)).down

/-- An ingress message arrives at an edge die (R395). -/
def execIngressMessage (die port : Nat) (message : List Byte) (s : State) : Host.Outcome State Fault Refusal :=
  perform s (within (die < dieCount && port < 4) (
    when (!(s.die die).stalled port && etherOpen s port) s
      (match ingressFate s die message with
       | .dropped s1 => .go s1 []
       | .held => .go (s.modDie die (fun D => { D with held := D.held.put port message })) []
       | .wait => idle s
       | .written s1 ws => .go s1 ws)))

/-- A held message is decided again (R395). -/
def execIngressRetry (die port : Nat) (s : State) : Host.Outcome State Fault Refusal :=
  perform s (within (die < dieCount && port < 4) (
    let free (s : State) : State := s.modDie die (fun D => { D with held := D.held.del port })
    match (s.die die).held.find port with
    | none => idle s
    | some m =>
      match ingressFate s die m with
      | .dropped s1 => .go (free s1) []
      | .held => idle s
      | .wait => idle s
      | .written s1 ws => .go (free s1) ws))

/-! ### Request timers (R399) -/

/-- Has a request been outstanding for reqtmo cycles? -/
def timedOut (s : State) (die since : Nat) : Bool := since + (s.die die).reqtmo ≤ s.now

/-- An access across dies: one of its pieces lies on another die, or outside the package. -/
def remotePieces (die : Nat) (ps : List Piece) : Bool :=
  ps.any (fun p => match p.home with | .die h => h != die | .outside => true | .near => false)

/-- The address of an access of a command at a place of a space, where it crosses dies. -/
def remoteSpot (s : State) (k tile space : Nat) (a : Word) (n : Nat) (wr : Bool) : Option Word :=
  let far : Bool :=
    if space != 0 then false
    else if bit a 63 then (s.launch (s.cluster k).launchNo).any (fun L => L.home != dieOfCluster k)
    else match engineLv s k tile a n wr with | .ok (ps, _) => remotePieces (dieOfCluster k) ps | .error _ => false
  if far then some a else none

/-- The address of an access of a command that waits for its reply from another die: a granule of its source that has not been read, or one whose
bytes have been read and that is not written (R77, R399). -/
def waitingPart (s : State) (k tile : Nat) (x : Cmd) (part : CopyPart) : Option Word :=
  let d := descriptor s k x
  let b := parseBulk d
  let read (space len g : Nat) : Option Word :=
    if g ≥ granCount b.src.toNat len || (x.src.find g).isSome || (x.blocked.find (2 * g)).isSome then none
    else remoteSpot s k tile space (copyAddr space b.src (granOff b.src.toNat g)) (granLen b.src.toNat len g) false
  match part, x.cmd with
  | .read g, 1 => read b.ss b.len g
  | .read g, 2 | .read g, 3 => read (leAt d 18 1) (leAt d 12 4) g
  | .read g, 5 => read (leAt d 16 1) (leAt d 12 4) g
  | .write g _, 1 =>
    let off := granOff b.dst.toNat g
    let n := granLen b.dst.toNat b.len g
    if g ≥ granCount b.dst.toNat b.len || x.fin.contains g || (x.blocked.find (2 * g + 1)).isSome || (x.part b.src off n).isNone ||
        (bulkWhole b && (x.whole b.src b.len).isNone) then none
    else remoteSpot s k tile b.ds (copyAddr b.ds b.dst off) n true
  | .write g i, 2 =>
    let m := parseMcast d
    let off := granOff m.dst g
    (engineLaunch s k).bind (fun L => ((receivers L.2 m.mask)[i]?).bind (fun r =>
      if g ≥ granCount m.dst m.len || x.fin.contains (i * 2 ^ 32 + g) || (x.part m.src off (granLen m.dst m.len g)).isNone ||
          dieOfCluster r = dieOfCluster k then none
      else some (BitVec.ofNat 64 (m.dst + off))))
  | _, _ => none

/-- A message of a copy is lost: status 0x0004 and a slate record (R352, R399). An access has been outstanding since the command last performed one.
DEDUCED, log entry 28. -/
def lostCopy (s : State) (k tile pick : Nat) (part : CopyPart) : Act :=
  match ((s.cluster k).chain 1 tile).started[pick]? with
  | none => idle s
  | some x =>
    match x.stage, waitingPart s k tile x part with
    | .begun n, some a =>
      when (x.eng = 1 && x.retryAt ≤ s.now && cmdReady s k tile true x && timedOut s (dieOfCluster k) x.since) s
        (.go (faultCmd s k tile x 3 { cause := 0x2A, addr := a, pri := none } n []) [])
    | _, _ => idle s

/-! A reduction command that has sent to another die and hears nothing (R399). -/

/-- Has a reduction of red.fab, every participant of which has issued, waited for messages between dies since reqtmo cycles? -/
def reductionLate (s : State) (k : Nat) (ps : List RedParty) : Bool :=
  partiesMet ps && ps.any (fun q => dieOfCluster q.cluster != dieOfCluster k) &&
  ps.all (fun q => (((s.cluster q.cluster).chain 2 q.tile).started.find? (fun y => y.seq = q.cmd)).all (fun y => timedOut s (dieOfCluster k) y.since))

/-- The participant of a session that a command is, with its key. -/
def memberOf (S : Session) (pos tile seq : Nat) : Option Member :=
  (S.members.find pos).bind (fun m => if m.from_ = tile && m.cmd = seq && !m.gone then some m else none)

/-- A message of a reduction is lost (R399): the command of red.fab leaves its reduction, and joins it anew at the resume; the statistics of a
participant of a session are sent again then. DEDUCED, log entry 28. -/
def lostReduction (s : State) (k tile pick : Nat) : Act :=
  match ((s.cluster k).chain 2 tile).started[pick]?, engineLaunch s k with
  | some x, some (l, L) =>
    let lost (s : State) : State := faultCmd s k tile x 4 { cause := 0x2A, addr := x.a, pri := none } 0 []
    (match x.stage with
     | .partners =>
       let mine (q : RedParty) : Bool := q.cluster = k && q.tile = tile && q.cmd = x.seq
       (match L.reds.find? mine with
        | some p => when (reductionLate s k (partiesOf L p.tag)) s
            (.go ((lost s).modLaunch l (fun L => { L with reds := L.reds.filter (fun q => !mine q) })) [])
        | none => idle s)
     | .session _ =>
       let pos := (s.cluster k).pos
       (match L.session.bind (fun S => (memberOf S pos tile x.seq).map (fun m => (S, m))) with
        | some (S, m) =>
          when (!m.sums.isEmpty && (L.consist[0]?).any (fun r => dieOfCluster r != dieOf m.tile) && timedOut s (dieOfCluster k) m.sent) s
            (.go ((lost s).setSession l (S.put pos { m with sent := s.now })) [])
        | none => idle s)
     | _ => idle s)
  | _, _ => idle s

/-- The record of a store that may have been performed (R282, R399): of a node of a round, of a stream port, or of a sequencer. -/
def lostStoreRec (s : State) (r : Req) : Rec :=
  match r.round with
  | none => s.tileRec r.tile false 1 0x2A r.addr [1]
  | some w =>
    { s.tileRec r.tile false (if w.port.isSome then 2 else 0) 0x2A r.addr [1] with
      ctx := w.ctx, slot := if w.port.isSome then 0 else w.slot, port := w.port.getD 0 }

/-- A store of a copy command is reported (R352, R399): the command ends with status 0x0004; where it has not been performed, a resume writes
its granule again. One whose command has completed leaves the slate record alone. -/
def lostCmdStore (s : State) (r : Req) (seq : Nat) (performed : Bool) : State :=
  let k := clusterOf r.tile
  let tile := r.tile % 4
  match ((s.cluster k).chain 1 tile).started.find? (fun x => x.seq = seq) with
  | some x =>
    let b := parseBulk (descriptor s k x)
    let g := (b.dst.toNat % 64 + (r.addr - b.dst).toNat) / 64
    let now := match x.stage with | .begun n => n | .faulted _ _ n => n | _ => b.len
    let again := !performed && x.fin.contains g
    faultCmd s k tile (if again then { x with fin := x.fin.filter (· != g) } else x) 3 { cause := 0x2A, addr := r.addr, pri := none }
      (if again then now - granLen b.dst.toNat b.len g else now) []
  | none => s.record (s.tileRec r.tile false 3 0x2A r.addr [BitVec.ofNat 64 seq, 0, 0, 0])

/-- The request of another package leaves once more (R390). -/
def sendAgain (s : State) (r : Req) : State := if r.home = outHome then sendUpli s r.piece r.amo r.data else s

/-- A store or atomic on its way is sent again, at most rmax times; then it is reported, and has been performed or not (R399). -/
def lostStore (s : State) (i : Nat) : Act :=
  match s.pkg.reqs.find? (fun r => r.id = i) with
  | none => idle s
  | some r =>
    when (timedOut s r.src r.since) s
      (if r.retries < (s.cluster (clusterOf r.tile)).rmax then
         .go ((sendAgain s r).modPkg (fun p => { p with reqs := p.reqs.map (fun q => if q.id = i then { q with retries := q.retries + 1, since := s.now } else q) })) []
       else
         let done := Config.lostPerformed i
         let s0 := s.modPkg (fun p => { p with reqs := p.reqs.filter (fun q => q.id != i), lost := p.lost ++ [(i, r.src)] })
         let s1 := match r.cmd with | some seq => lostCmdStore s0 r seq done | none => s0.record (lostStoreRec s r)
         if done then
           .go (s1.modPkg (fun p => stampAll p r.piece.key r.data.length (clockSet r.clock r.src r.no))) (putBytes r.piece.key (r.bytes s))
         else .go s1 [])

/-- A load of a tile has been reported, and its reply may still come (R399). -/
def expectLate (s : State) (t : Nat) : State := s.modTile t (fun T => { T with lostLoads := T.lostLoads + 1 })

/-- A fabric load is lost: its round is voided (R52, R399). -/
def lostLoad (s : State) (t i : Nat) : Act :=
  match (s.tile t).round.bind (fun r => r.loads[i]?) with
  | none => idle s
  | some l =>
    let far := if bit l.addr 63 then (s.launch (s.tile t).launchNo).any (fun L => L.home != dieOf t) else remotePieces (dieOf t) l.pieces
    when (far && !l.whole && l.blocked.isNone && timedOut s (dieOf t) l.since) s
      (.go (expectLate (fabricFault s t l.slot 0 0 0x2A l.addr none) t) [])

/-- The access of a read port is lost (R303, R399). -/
def lostPort (s : State) (t p : Nat) : Act :=
  let P := (s.tile t).port p
  match P.prog with
  | none => idle s
  | some g =>
    let a := g.addr P.issued
    let far : Bool :=
      if g.spad then false
      else if g.isStream then (s.launch (s.tile t).launchNo).any (fun L => L.home != dieOf t)
      else match portPiece s t P g (P.windowed g a) a with | .ok (q, _) => remotePieces (dieOf t) [q] | .error _ => false
    when ((s.tile t).live && P.fetching g && P.fault.isNone && far && P.since.any (timedOut s (dieOf t))) s
      (.go ((expectLate (readFault s t p 0x2A a none) t).modTile t (fun T => T.modPort p (fun P => { P with since := none }))) [])

/-- The trap of a lost access of a sequencer and its slate record, which the trap itself writes where it stops a program (R183, R399). -/
def lostTrap (s : State) (t : Nat) (a : Word) : State :=
  let q := (s.tile t).seq
  let xa := s.xaAt t q.pcNat
  let s1 := takeTrap s t 0x2A a xa
  if !q.mode && q.tvec = 0 then s1
  else s1.record (s.tileRec t false 1 0x2A a [q.pcWord, (trapCause q.mode false 0x2A).zeroExtend 64, q.lk, xa])

/-- A sequencer's access is lost (R399): an atomic is sent again, at most rmax times, and has its reply kept (R361 to R363); then, as a load,
it traps, and stays outstanding: a load is performed again, an atomic is not (log entry 28). -/
def lostSeqLoad (s : State) (t i : Nat) : Act :=
  let q := (s.tile t).seq
  let put (f : SeqLoad → SeqLoad) (s : State) : State := s.modSeq t (fun q => { q with loads := q.loads.modify i (fun l => { f l with since := s.now }) })
  match q.loads[i]? with
  | none => idle s
  | some l =>
    when (q.phase = .running && (s.tile t).live && remotePieces (dieOf t) l.pieces && timedOut s (dieOf t) l.since) s
      (if l.value.isSome && l.retries < (s.cluster (clusterOf t)).rmax then .go (put (fun l => { l with retries := l.retries + 1 }) s) []
       else .go (expectLate (lostTrap (put id s) t l.addr) t) [])

/-- reqtmo expires for an outstanding request (R399). -/
def execRequestTimeout (who : Timed) (s : State) : Host.Outcome State Fault Refusal :=
  perform s (
    match who with
    | .copy k tile pick part => within (k < clusterCount && tile < 4) (lostCopy s k tile pick part)
    | .reduction k tile pick => within (k < clusterCount && tile < 4) (lostReduction s k tile pick)
    | .store i => lostStore s i
    | .load t i => within (t < tileCount) (lostLoad s t i)
    | .seqLoad t i => within (t < tileCount) (lostSeqLoad s t i)
    | .port t p => within (t < tileCount && p < 4) (lostPort s t p))

/-! ### Router power (R400) -/

/-- Is a cluster's router at an end of a way between two clusters, or on it? -/
def onWay (s : State) (a b k : Nat) : Bool := a = k || b = k || (a != b && s.clusterEnabled k && Config.routePasses a b k)

/-- Is a cluster's router on a configured static stream route? -/
def onStaticRoute (s : State) (k : Nat) : Bool :=
  s.launches.any (fun q => (staticRoutes s q.2).any (fun r => clusterOf r.1 != clusterOf r.2 && onWay s (clusterOf r.1) (clusterOf r.2) k))

/-- Cycles for which a cluster's router has been idle, since the wipe at most. -/
def routerIdle (s : State) (k : Nat) : Nat := s.now - max (s.cluster k).routerSince (s.die (dieOfCluster k)).cycleBase

/-- A packet reaches a router: it wakes, and is idle no longer (R400). -/
def wakeRouter (s : State) (k : Nat) : State := s.modCluster k (fun K => { K with routerDown := false, routerSince := s.now })

/-- The cluster of a die beside whose router a byte of the die's memory is reached. -/
def memoryCluster (die key : Nat) : Nat := die * 40 + Config.memoryRouter key % 40

/-- The way of an access of a cluster to a byte: none inside the cluster; to its own router alone where it leaves the package. -/
def keyWay (s : State) (k key : Nat) : List (Nat × Nat) :=
  match keyKind key with
  | 0 => []
  | 1 => if keyIndex key = k then [] else [(k, keyIndex key)]
  | 4 | 5 => [(k, k)]
  | _ => match keyHome s key with | .die d => [(k, memoryCluster d key)] | _ => []

/-- The way of an access of a cluster to a stream of a launch. -/
def streamWay (s : State) (k l h : Nat) : List (Nat × Nat) :=
  match s.launch l with | some L => [(k, memoryCluster L.home (frameKey l h 0))] | none => []

/-- The way of an access of a cluster to an address, as translated pieces say or as it names a stream. -/
def accessWay (s : State) (k l : Nat) (a : Word) (ps : List Piece) : List (Nat × Nat) :=
  if bit a 63 then streamWay s k l (streamHandle a) else (ps.take 1).flatMap (fun p => keyWay s k p.key)

/-- The routers that a packet reaches on a way. -/
def wayRouters (s : State) (w : Nat × Nat) : List Nat :=
  if w.1 = w.2 then [w.1] else (List.range clusterCount).filter (onWay s w.1 w.2)

/-- The way of a reply to a sender of this package: from the home that answered. -/
def answerWay (s : State) (q : Answer) : Nat × Nat :=
  match remoteOf s q.cluster q.tile (fun r => r.tag = q.tag) with
  | some (_, r) => (q.cluster, match q.home.or r.die with | some d => memoryCluster d r.key | none => q.cluster)
  | none => (q.cluster, q.cluster)

/-- The ways of the packets that are under way in a cycle: loads, and requests, answers and group messages between dies (R400). -/
def activeWays (s : State) : List (Nat × Nat) :=
  s.pkg.reqs.flatMap (fun r => keyWay s (clusterOf r.tile) r.piece.key) ++
  s.pkg.asks.map (fun q => (q.cluster, memoryCluster q.die q.req.key)) ++ s.pkg.answers.map (fun q => answerWay s q) ++
  s.pkg.grps.flatMap (fun m => match dieOfEndpoint s m.endpoint with
    | some d => let k := (recvPlace d m.entry).1; [(if m.cluster < clusterCount then m.cluster else k, k)]
    | none => []) ++
  s.tiles.flatMap (fun p =>
    let k := clusterOf p.1
    p.2.seq.loads.flatMap (fun l => accessWay s k p.2.launchNo l.addr l.pieces) ++
    (match p.2.round with | some r => r.loads.flatMap (fun l => accessWay s k p.2.launchNo l.addr l.pieces) | none => []))

/-- The clusters whose routers packets pass in a cycle (R400). -/
def activeRouters (s : State) : List Nat := ((activeWays s).eraseDups.flatMap (wayRouters s)).eraseDups

/-- An idle router powers down (R400). -/
def execRouterPowerDown (cluster : Nat) (s : State) : Host.Outcome State Fault Refusal :=
  perform s (within (cluster < clusterCount) (
    let K := s.cluster cluster
    when (!K.routerDown && 2 ^ (s.die (dieOfCluster cluster)).ridle ≤ routerIdle s cluster && !onStaticRoute s cluster) s
      (.go (s.setCluster cluster { K with routerDown := true }) [])))

/-- A packet reaches a router: it wakes, and is idle no longer (R400). -/
def execRouterWake (cluster : Nat) (s : State) : Host.Outcome State Fault Refusal :=
  perform s (within (cluster < clusterCount) (
    .go (wakeRouter s cluster) []))

end Sys2Proof.Machine
end

