-- ==== Sys2Proof/Machine/Platform.lean ====
section
/-! DEFINITION. Boot (R402), life cycle and wiping (R403), attestation (R404), soft errors (R284, R405), telemetry (R406), power
(R409), and the management registers (R266, R276, R281, R293, R304, R353, R357, R394, R399, R400, R405). -/

namespace Sys2Proof.Machine

/-! ### Boot (R402) -/

/-- Bytes of a signature of an image. -/
def sigBytes : Nat := 7856

/-- The host writes 1 to bootgo: ignored while verifying or running (R402). -/
def execBootgo (s : State) : Host.Outcome State Fault Refusal :=
  perform s (when ((s.pkg.bootstat = 0 || s.pkg.bootstat = 3) && !s.pkg.wiping) s (.go (s.modPkg (fun p => { p with bootstat := 1 })) []))

/-- The image as the host wrote it: from the start of die 0's stack SRAM (log entry 29). -/
def bootImage (s : State) : List Byte := s.mem.bytes (sramKey 0 0) s.pkg.bootlen

/-- Does the ROM accept an image (R402, R403)? -/
def imageOk (p : Pkg) (img : List Byte) : Bool :=
  let n := img.length
  let sig := img.drop (n - sigBytes)
  7888 ≤ n && Config.sha256 (img.take 32) = p.keyHash && Config.slhVerify (img.take 32) (img.take (n - sigBytes)) sig &&
  (p.life != .returned || Config.diagnostic sig)

/-- Verification ends: firmware starts, its measurement recorded, or the image is refused and discarded (R402). DEDUCED, log entry 66. -/
def execImageVerified (s : State) : Host.Outcome State Fault Refusal :=
  perform s (when (s.pkg.bootstat = 1) s (
    let img := bootImage s
    if imageOk s.pkg img then .go (s.modPkg (fun p => { p with bootstat := 2, fwHash := Config.sha256 img })) []
    else .go (s.modPkg (fun p => { p with bootstat := 3, bootlen := 0 })) (putBytes (sramKey 0 0) (List.replicate s.pkg.bootlen 0))))

/-! ### Life cycle and wiping (R403) -/

/-- The state that follows. -/
def Life.next : Life → Option Life
  | .manufacture => some .provisioned
  | .provisioned => some .deployed
  | .deployed => some .returned
  | .returned => none

/-- Code of a state, for measurement 2. -/
def Life.code : Life → Nat | .manufacture => 0 | .provisioned => 1 | .deployed => 2 | .returned => 3

/-- The reports of the launches that a reset kills (R272, R403), oldest index first. -/
def killReports (s : State) : State × List (Nat × Byte) :=
  s.launches.foldl (fun (q : State × List (Nat × Byte)) x =>
    let r := launchReport q.1 x.2 6
    (r.1, q.2 ++ r.2)) (s, [])

/-- The package as the wipe leaves it: the fuses and the telemetry flash stay, and what stands outside the package. -/
def wipedPkg (p : Pkg) (target : Life) : Pkg :=
  { Pkg.reset with caps := p.caps, keyHash := p.keyHash, life := p.life, target := target, wiping := true, secret := p.secret,
                   identity := p.identity,
                   flash := p.flash, counts := p.counts, lastFlush := p.lastFlush, resident := p.resident, atsNo := p.atsNo }

/-- A die as the wipe leaves it: its cycle register counts from the reset. -/
def wipedDies (now : Nat) : Tbl Die := (List.range dieCount).map (fun d => (d, { Die.reset with cycleBase := now }))

/-- Every launch is killed and everything in the package is zero (R403). DESIGN CHOICE, log entry 65. -/
def wipe (s : State) (target : Life) : Act :=
  let r := killReports s
  .wipe { State.reset with now := s.now, agenda := s.agenda, focus := s.focus, dies := wipedDies s.now, pkg := wipedPkg s.pkg target,
                           outbox := r.1.outbox } r.2

/-- A reset (R403). -/
def execPackageReset (s : State) : Host.Outcome State Fault Refusal := perform s (wipe s s.pkg.life)

/-- Firmware asks for the next life-cycle state, with an authorisation (R403). -/
def execLifeCycleTransition (auth : List Byte) (s : State) : Host.Outcome State Fault Refusal :=
  perform s (
    match s.pkg.life.next with
    | none => idle s
    | some t => when (s.pkg.bootstat = 2 && Config.authorised auth) s (wipe s t))

/-- The wipe ends and the part enters its state; at provisioning it derives its identity key (R403, R404). -/
def execWipeComplete (s : State) : Host.Outcome State Fault Refusal :=
  perform s (when s.pkg.wiping s (
    .go (s.modPkg (fun p => { p with wiping := false, life := p.target,
                                     identity := if p.target = .provisioned && p.identity.isNone then some (Config.slhKeys p.secret) else p.identity })) []))

/-! ### Attestation (R404) -/

/-- GET_CERTIFICATE. DEDUCED, log entry 69. -/
def execGetCertificate (s : State) : Host.Outcome State Fault Refusal :=
  perform s (
    match s.pkg.identity with
    | some k => .go (s.send (.spdm (Config.certificate k.1) [])) []
    | none => idle s)

/-- The part signs a response with its identity key: a signature of 17,088 bytes (R404). -/
def signed (s : State) (m : List Byte) : Act :=
  match s.pkg.identity with
  | some k => .go (s.send (.spdm m (leBytes 17088 (Config.slhSign k.2 m).toNat))) []
  | none => idle s

/-- CHALLENGE_AUTH, signed. -/
def execChallenge (nonce : List Byte) (s : State) : Host.Outcome State Fault Refusal := perform s (signed s nonce)

/-- 32 bytes of a hash. -/
def hashBytes (h : BitVec 256) : List Byte := leBytes 32 h.toNat

/-- The fuses that a measurement may show: the key hash and the capability registers 0x800 to 0x81C (R402, R407). -/
def fuses (p : Pkg) : List Byte := hashBytes p.keyHash ++ (List.range 29).flatMap (fun i => leBytes 8 (p.caps.get 0 i).toNat)

/-- The four measurements. -/
def measurements (p : Pkg) : List Byte :=
  hashBytes Config.romHash ++ hashBytes p.fwHash ++ hashBytes (Config.sha256 (leBytes 1 p.life.code ++ fuses p)) ++
    hashBytes (Config.sha256 (leBytes 8 p.keyInstalls))

/-- MEASUREMENTS, signed. -/
def execGetMeasurements (nonce : List Byte) (s : State) : Host.Outcome State Fault Refusal :=
  perform s (signed s (nonce ++ measurements s.pkg))

/-! ### Soft errors (R280, R284, R405) -/

/-- The info field of a source-9 record: array code, word index, error count. -/
def arrayInfo (array word count : Nat) : List Word :=
  [BitVec.ofNat 64 array, BitVec.ofNat 64 word, BitVec.ofNat 64 count]

/-- The record of an uncorrectable error that a tile meets. -/
def arrayRec (s : State) (t array word : Nat) : Rec := s.tileRec t true 9 0x40 0 (arrayInfo array word 1)

/-- The effects of rank 1 of R284 at a tile beside the record: the tile stops, and the launch accepts only kill. -/
def hardwareError (s : State) (t : Nat) : State :=
  match (s.tile t).launch with
  | some l => condemn (haltTile s t) l
  | none => haltTile s t

/-- An uncorrectable error in state of a launch, or in what its tile reads (R284 rank 1). -/
def execUncorrectableError (tile array word : Nat) (s : State) : Host.Outcome State Fault Refusal :=
  perform s (within (tile < tileCount && 1 ≤ array && array ≤ 9) (
    .go (hardwareError (s.record (arrayRec s tile array word)) tile) []))

/-- The tiles whose state a word of an array of a die is (R405): those of a cluster for its scratchpad (2^18 words), accumulators (2^14) and task
table (2^13), a tile for its private memory (2^13), store buffer, slot words, latches and switch words (2^10 each); none for the
memory of the die. How words are numbered is DEDUCED, log entry 68. -/
def scrubTiles (die array word : Nat) : List Nat :=
  let cluster (n : Nat) : List Nat := if word / n < 40 then (List.range 4).map ((die * 40 + word / n) * 4 + ·) else []
  let tile (n : Nat) : List Nat := if word / n < 160 then [die * 160 + word / n] else []
  match array with
  | 3 => cluster (2 ^ 18)
  | 4 => cluster (2 ^ 14)
  | 5 => tile (2 ^ 13)
  | 6 | 8 | 9 => tile (2 ^ 10)
  | 7 => cluster (2 ^ 13)
  | _ => []

/-- The record of an error that a die's scrubber finds. DEDUCED, log entry 68. -/
def scrubRec (s : State) (die array word : Nat) : Rec :=
  match scrubTiles die array word with
  | t :: _ => arrayRec s t array word
  | [] =>
    { amber := true, source := 9, voided := false, cause := 0x40, ctxid := 0, die := die, cluster := 0, tile := 0, page := 0, ctx := 0, slot := 0,
      port := 0, value := 0, cycle := s.now - (s.die die).cycleBase, info := arrayInfo array word 1, seq := 0 }

/-- The one record that a scrubber holds counts a further error (R280). -/
def countHeld (r : Rec) : Rec :=
  { r with info := r.info.set 2 (BitVec.ofNat 64 (sat32 ((r.info.getD 2 0).toNat + 1))) }

/-- A scrubber's record takes a slot, or is held; while one is held, its further errors are counted in it (R280). A die has one scrubber for
each array code. DEDUCED, log entry 68. -/
def scrubRecord (s : State) (die array word : Nat) : State :=
  s.modDie die (fun D =>
    match D.scrubHeld.find array with
    | some r => { D with scrubHeld := D.scrubHeld.put array (countHeld r) }
    | none =>
      if slotFree D true then D.place (scrubRec s die array word)
      else { D with scrubHeld := D.scrubHeld.put array (scrubRec s die array word) })

/-- Drop an entry of a list. -/
def dropEntry (l : List Xlat) (i : Nat) : List Xlat := l.eraseIdx i

/-- An uncorrectable error in a TLB of a die, which drops the entry (R405): words number first its 160 tiles with 256 each, then its 40 clusters
with 2,048 (R48), then its 640 ports with 256. DEDUCED, log entry 68. -/
def scrubTlb (s : State) (die word : Nat) : State :=
  let w := word - 40960
  let v := word - 122880
  if word < 40960 then s.modTile (die * 160 + word / 256) (fun T => { T with tlb := dropEntry T.tlb (word % 256) })
  else if word < 122880 then s.modCluster (die * 40 + w / 2048) (fun K => { K with tlb := dropEntry K.tlb (w % 2048) })
  else if word < 286720 then
    s.modTile (die * 160 + v / 1024) (fun T => T.modPort (v / 256 % 4) (fun P => { P with tlb := dropEntry P.tlb (v % 256) }))
  else s

/-- A scrubber pass over a word (R405): array 0 stands for the TLBs, which make no record; an error in state of a launch has rank 1 of
R284. -/
def execScrub (die array word : Nat) (errors : ScrubFind) (s : State) : Host.Outcome State Fault Refusal :=
  perform s (within (die < dieCount && array ≤ 9) (
    match errors with
    | .clean => .go s []
    | .corrected => .go (s.count (tmKey 0 die array (Config.tempBin s.now die % 8)) 1) []
    | .uncorrectable =>
      if array = 0 then .go ((scrubTlb s die word).count (tmKey 0 die 0 (Config.tempBin s.now die % 8)) 1) []
      else .go (((scrubTiles die array word).filter (fun t => (s.tile t).launch.isSome)).foldl hardwareError (scrubRecord s die array word)) []))

/-! ### Telemetry (R406) -/

/-- The flash with counts added, saturating. -/
def addCounts (flash counts : Tbl Nat) : Tbl Nat := counts.foldl (fun (f : Tbl Nat) c => f.put c.1 (sat32 (f.get 0 c.1 + c.2))) flash

/-- Hours in each temperature bin since the last addition. -/
def hourCounts (now : Nat) : Tbl Nat :=
  (List.range dieCount).flatMap (fun d => (List.range 8).map (fun b => (tmKey 4 d b 0, Config.tempHours d b now)))

/-- Add the die counts to the flash copies. -/
def flush (p : Pkg) (now : Nat) : Pkg :=
  { p with flash := addCounts (addCounts p.flash p.counts) (hourCounts now), counts := [], lastFlush := now }

/-- Once every 2^36 cycles (R406). -/
def execTelemetryFlush (s : State) : Host.Outcome State Fault Refusal :=
  perform s (when (s.pkg.lastFlush + 2 ^ 36 ≤ s.now) s (.go (s.modPkg (fun p => flush p s.now)) []))

/-- At orderly shutdown (R406). -/
def execOrderlyShutdown (s : State) : Host.Outcome State Fault Refusal :=
  perform s (.go (s.modPkg (fun p => { flush p s.now with shutDown := true })) [])

/-- Power fails: counts since the last addition are lost (R406). -/
def execPowerFailure (s : State) : Host.Outcome State Fault Refusal :=
  perform s (.go (s.modPkg (fun p => { p with counts := [], shutDown := true })) [])

/-- Counters of a group (R406): corrected errors by die, array code (TLBs are 0) and temperature bin; retries by die and link, with the replays
of 16 ports; escalations and traps by die; stalls by die and reason; hours by die and bin. DESIGN CHOICE, log entry 26. -/
def tmSize (group : Nat) : Nat :=
  match group with
  | 0 => 24 * 10 * 8
  | 1 => 24 * 4 + 16
  | 2 => 24 * 2
  | 3 => 24 * 4
  | 4 => 24 * 8
  | _ => 0

/-- What tmdata reads: the counter that tmsel names; zero beyond its group (R406). -/
def tmdata (p : Pkg) : Nat :=
  let g := bits p.tmsel 63 56
  let i := bits p.tmsel 31 0
  let c := Config.tmCounter g i
  if i < tmSize g then p.flash.get 0 (tmKey g (c.1 % 25) (c.2.1 % 256) (c.2.2 % 256)) else 0

/-- Firmware writes tmsel and reads tmdata (R406). -/
def execTmsel (value : Word) (s : State) : Host.Outcome State Fault Refusal :=
  let s1 := s.modPkg (fun p => { p with tmsel := value })
  perform s (.go (s1.send (.firmware 2 (tmdata s1.pkg))) [])

/-! ### Power (R409) -/

/-- Firmware lowers the clock of a die by a step (R409). -/
def execThrottle (die : Nat) (s : State) : Host.Outcome State Fault Refusal :=
  perform s (within (die < dieCount) (.go (s.modDie die (fun D => { D with clkcur := D.clkcur - 50 })) []))

/-- The module shuts down (R409); the next reset wipes it. -/
def execThermalShutdown (s : State) : Host.Outcome State Fault Refusal :=
  perform s (.go (s.modPkg (fun p => { p with shutDown := true })) [])

/-! ### Management registers -/

/-- A register with a stated range: a value outside it stores one the manual does not state (log entry 30). -/
def inRange (name lo hi v : Nat) : Nat := if lo ≤ v && v ≤ hi then v else lo + Config.outOfRange name v % (hi - lo + 1)

/-- The lane of a die's two. -/
def Die.modLane (D : Die) (amber : Bool) (f : Lane → Lane) : Die :=
  if amber then { D with amber := f D.amber } else { D with slate := f D.slate }

/-- Change a cluster of a die. -/
def dieCluster (s : State) (die k : Nat) (f : Cluster → Cluster) : State := s.modCluster (die * 40 + k % 40) f

/-- Put a forward entry, up to 1,024 of them (R60). -/
def Die.forward (D : Die) (frame : Nat) (f : Fwd) : Die :=
  if D.forwards.length < 1024 || (D.forwards.find frame).isSome then { D with forwards := D.forwards.put frame f } else D

/-- Change a queue index. -/
def Die.modQueue (D : Die) (q : Nat) (f : Queue → Queue) : Die :=
  { D with queues := D.queues.put (q % 4096) (f (D.queues.get Queue.reset (q % 4096))) }

/-- A byte of the next key of a direction is written, the last one setting nextv (R392). -/
def setKeyByte (k : KeyDir) (i : Nat) (v : Byte) : KeyDir :=
  let bs := leBytes 32 k.next.toNat
  { k with next := BitVec.ofNat 256 (leNat (bs.take i ++ [v] ++ bs.drop (i + 1))), nextv := k.nextv || i = 31 }

/-- The image of an ingress entry as it is held: its reserved bits read zero (R394). -/
def ingressImage (image : BitVec 128) : Word := image.setWidth 64 &&& 0x0000C0FFFFFF7FFF

/-- The image of a receive entry as it is held: its reserved bits read zero, and the count of pending commands is the part's own (R357). -/
def receiveImage (image : BitVec 192) : BitVec 192 := image &&& 0x00000000033F03FFE0FFFFFFFFFFFFFFFFFFFFFFFFFFFFFF

/-- The state after a write of a management register. -/
def writeReg (s : State) (die : Nat) (w : MgmtWrite) : State :=
  let D (f : Die → Die) : State := s.modDie die f
  match w with
  | .dlint v => D (fun D => { D with dlint := max 16 (min 40 v) })
  | .ridle v => D (fun D => { D with ridle := inRange 0 8 24 v })
  | .scrint v => D (fun D => { D with scrint := inRange 1 28 40 v })
  | .reqtmo v => D (fun D => { D with reqtmo := v })
  | .spbase v => D (fun D => { D with spbase := v / 65536 * 65536 })
  | .spcount v => D (fun D => { D with spcount := v })
  | .rfbase v => D (fun D => { D with rfbase := v })
  | .rfsize v => D (fun D => { D with rfsize := v })
  | .hfbase v => D (fun D => { D with hfbase := v })
  | .hfsize v => D (fun D => { D with hfsize := v })
  | .spillSize v => D (fun D => { D with spillSize := v })
  | .compaction on => D (fun D => { D with compaction := on })
  | .lbase amber v => D (fun D => D.modLane amber (fun l => { l with lbase := v / 64 * 64 }))
  | .llen amber v => D (fun D => D.modLane amber (fun l => { l with llen := inRange 2 4 16 v }))
  | .lrd amber v => D (fun D => D.modLane amber (fun l => { l with lrd := v }))
  | .rtmo k v => dieCluster s die k (fun K => { K with rtmo := v % 2 ^ 32 })
  | .rmax k v => dieCluster s die k (fun K => { K with rmax := v % 8 })
  | .rint k v => dieCluster s die k (fun K => { K with rint := v % 2 ^ 32 })
  | .group e mask => s.modPkg (fun p => { p with groups := p.groups.put (e % 4096) mask })
  | .receive e image => D (fun D => { D with receive := D.receive.put (e % 4096) (receiveImage image) })
  | .ingress e image => D (fun D =>
      { D with ingress := D.ingress.put (e % 256) { image := ingressImage image, delivered := bits image 95 64, dropped := bits image 127 96 } })
  | .queueRetire q => D (fun D => D.modQueue q (fun Q => { Q with retired := false, gen := if Q.retired then 0 else Q.gen }))
  | .queueForward q d => D (fun D => D.modQueue q (fun Q => { Q with forward := if d < dieCount then some d else none }))
  | .forwardClear f => D (fun D => { D with forwards := D.forwards.del f })
  | .forwardMigrating f => D (fun D => D.forward f .migrating)
  | .forwardTo f home => D (fun D => D.forward f (.to home))
  | .dupPage ctxid page homeKey copies =>
    let d : Dup := { ctxid := ctxid, page := page, homeKey := homeKey, copies := copies, dropped := [] }
    s.modPkg (fun p => { p with dups := p.dups.filter (fun e => !(e.ctxid = ctxid && e.page = page)) ++ [d] })
  | .staleClear => (D (fun D => { D with stale := 0 })).send (.firmware 3 (s.die die).stale)
  | .ringSlot i packet => s.modPkg (fun p => { p with ring := p.ring.put (i % 256) packet })
  | .ringTail v => s.modPkg (fun p => { p with ringTail := v % 256 })
  | .bootlen v => s.modPkg (fun p => { p with bootlen := v })
  | .endpointBase v => D (fun D => { D with endpoint := v % 1024 })
  | .bootImage _ _ => s
  | .pause l => D (fun D => D.setLink l { D.link l with paused := true })
  | .overrides l => D (fun D => D.setLink l { D.link l with avoided := true })
  | .rerouted l => D (fun D => let x := D.link l; D.setLink l { x with paused := false, draining := x.draining && !x.avoided })
  | .portRerouted p q => release (s.modExt (p % 16) (fun P => { P with draining := false, via := some (q % 16) })) (p % 16)
  | .seckeyByte p receive i v =>
    let s1 := s.modExt (p % 16) (fun P => P.setDir receive (setKeyByte (P.dir receive) (i % 32) v))
    if i % 32 = 31 then s1.modPkg (fun p => { p with keyInstalls := p.keyInstalls + 1 }) else s1
  | .driver absent => s.modPkg (fun p => { p with driverAbsent := absent })

/-- The bytes that such a write puts into memory: a piece of the firmware image into die 0's stack SRAM, while the ROM waits for one (R402). -/
def writeBytes (s : State) (die : Nat) (w : MgmtWrite) : List (Nat × Byte) :=
  match w with
  | .bootImage offset data =>
    if die = 0 && (s.pkg.bootstat = 0 || s.pkg.bootstat = 3) && !s.pkg.wiping && offset + data.length ≤ 2 ^ 30 then putBytes (sramKey 0 offset) data
    else []
  | _ => []

/-- System software, firmware or the host writes a management register (R266). -/
def execRegisterWrite (die : Nat) (write : MgmtWrite) (s : State) : Host.Outcome State Fault Refusal :=
  perform s (within (die < dieCount) (.go (writeReg s die write) (writeBytes s die write)))

/-! ### Accesses of the host (R396, R402) -/

/-- Does device memory exist at n bytes from an offset on: for LPDDR, on channels that are enabled (R408)? -/
def deviceMemory (s : State) (die : Nat) (lpddr : Bool) (address n : Nat) : Bool :=
  if lpddr then
    address + n ≤ 2 ^ 35 && (List.range (n / 2 ^ 14 + 2)).all (fun i => address + n ≤ (address / 2 ^ 14 + i) * 2 ^ 14 || s.hasChannel die (address / 2 ^ 14 + i))
  else address + n ≤ 2 ^ 30

/-- The launch-control status register of a die (R272). -/
def controlStatus (D : Die) : Nat := (if D.busy then 2 ^ 63 else 0) + D.result % 256

/-- The bytes of a register of a management window as it is read (R266, R272, R357, R392, R394, R396). -/
def mgmtRead (s : State) (die : Nat) (r : MgmtRead) : List Byte :=
  let D := s.die die
  let K (k : Nat) : Cluster := s.cluster (die * 40 + k % 40)
  let lane (amber : Bool) : Lane := if amber then D.amber else D.slate
  match r with
  | .dlint => leBytes 8 D.dlint
  | .ridle => leBytes 8 D.ridle
  | .scrint => leBytes 8 D.scrint
  | .reqtmo => leBytes 8 D.reqtmo
  | .spbase => leBytes 8 D.spbase
  | .spcount => leBytes 8 D.spcount
  | .clkcur => leBytes 8 D.clkcur
  | .staleReplies => leBytes 8 D.staleReplies
  | .bootstat => leBytes 8 s.pkg.bootstat
  | .bootlen => leBytes 8 s.pkg.bootlen
  | .ringHead => leBytes 8 s.pkg.ringHead
  | .ringTail => leBytes 8 s.pkg.ringTail
  | .tmdata => leBytes 8 (tmdata s.pkg)
  | .lbase amber => leBytes 8 (lane amber).lbase
  | .llen amber => leBytes 8 (lane amber).llen
  | .lrd amber => leBytes 8 (lane amber).lrd
  | .rtmo k => leBytes 8 (K k).rtmo
  | .rmax k => leBytes 8 (K k).rmax
  | .rint k => leBytes 8 (K k).rint
  | .group e => leBytes 128 (s.pkg.groups.get 0 (e % 4096)).toNat
  | .receive e =>
    leBytes 20 (D.receive.get 0 (e % 4096)).toNat ++ leBytes 4 (D.pending.get 0 (e % 4096)) ++ leBytes 8 0
  | .ingress e =>
    let x := D.entry (e % 256)
    leBytes 8 x.image.toNat ++ leBytes 4 x.delivered ++ leBytes 4 x.dropped
  | .secstat port receive => leBytes 8 (secstat ((s.pkg.port (port % 16)).dir receive)).toNat
  | .rfbase => leBytes 8 D.rfbase
  | .rfsize => leBytes 8 D.rfsize
  | .hfbase => leBytes 8 D.hfbase
  | .hfsize => leBytes 8 D.hfsize
  | .spillSize => leBytes 8 D.spillSize
  | .compaction => leBytes 8 (if D.compaction then 1 else 0)
  | .endpoint => leBytes 8 D.endpoint
  | .control => leBytes 8 (controlStatus D)

/-- The host has read a register: once it has read the head of its launch queue, vector 48 may be raised again (R397).
DEDUCED, log entry 97. -/
def afterRead (s : State) (r : MgmtRead) : State :=
  if r = .ringHead then s.modPkg (fun p => { p with msix := p.msix.filter (· != 48) }) else s

/-- Eight bytes of BAR2 (R396): the launch queue ring from 0, aperture j's registers from 0x1_0000 + 64j. -/
def bar2Read (s : State) (offset : Nat) : Word :=
  if offset < 0x4000 then BitVec.ofNat 64 (leAt (s.pkg.ring.get (List.replicate 64 0) (offset / 64)) (offset % 64 / 8 * 8) 8)
  else if 0x10000 ≤ offset && offset < 0x14000 then apertureRegister s ((offset - 0x10000) / 64) (offset % 64)
  else 0

/-- A write of eight bytes there. -/
def bar2Write (s : State) (offset : Nat) (v : Word) : State :=
  if offset < 0x4000 then
    s.modPkg (fun p =>
      let old := p.ring.get (List.replicate 64 0) (offset / 64)
      let i := offset % 64 / 8 * 8
      { p with ring := p.ring.put (offset / 64) (old.take i ++ leBytes 8 v.toNat ++ old.drop (i + 8)) })
  else if 0x10000 ≤ offset && offset < 0x14000 then apertureWrite s ((offset - 0x10000) / 64) (offset % 64) v
  else s

/-- The host reads a register of a management window. -/
def readReg (s : State) (die : Nat) (r : MgmtRead) : Act := .go ((afterRead s r).send (.hostData (mgmtRead s die r))) []

/-- An access of eight bytes in BAR0, where die d's window stands at d × 0x20_0000 (R396); a place without a register reads zero, and a write there
is dropped. DESIGN CHOICE, log entry 99. -/
def bar0Access (s : State) (offset : Nat) (data : Option Word) : Act :=
  let die := offset / 2 ^ 21
  let place := offset % 2 ^ 21
  match data with
  | none =>
    (match (if die < dieCount then Config.windowRead place else none) with
     | some r => readReg s die r
     | none => .go (s.send (.hostData (leBytes 8 0))) [])
  | some v =>
    (match (if die < dieCount then Config.windowWrite place v else none) with
     | some w => .go (writeReg s die w) (writeBytes s die w)
     | none => .go s [])

/-- A host access: to device memory, with all ones and dropped writes until firmware runs (R402, R403); to a register of a management window; to
BAR2; through an aperture's data window in BAR4 or CXL.mem (R305), and where there is none as to missing memory; to the host's own memory, of which
the device's cached lines are coherent copies (R69, R396). -/
def execCxlMemAccess (die : Nat) (lpddr : Bool) (address : Nat) (access : HostAccess) (s : State) : Host.Outcome State Fault Refusal :=
  perform s (within (die < dieCount) (
    let k := if lpddr then lpddrKey die address else sramKey die address
    let up := s.pkg.bootstat = 2 && !s.pkg.wiping
    match access with
    | .read n => .go (s.send (.hostData (if up && deviceMemory s die lpddr address n then s.mem.bytes k n else List.replicate n 0xFF))) []
    | .write bs => .go s (if up && deviceMemory s die lpddr address bs.length then putBytes k bs else [])
    | .register r => readReg s die r
    | .bar0 offset data => bar0Access s offset data
    | .bar2 offset none => .go (s.send (.hostData (leBytes 8 (bar2Read s offset).toNat))) []
    | .bar2 offset (some v) => .go (bar2Write s offset v) []
    | .windowRead cxl offset n =>
      (match Config.apertureAt cxl offset with
       | some (j, a) => apertureRead s (j % 256) a n
       | none => .go (s.send (.hostData (List.replicate n 0xFF))) [])
    | .windowWrite cxl offset bs =>
      (match Config.apertureAt cxl offset with
       | some (j, a) => apertureStore s (j % 256) a bs
       | none => .go s [])
    | .hostRead a n => .go (s.send (.hostData (s.mem.bytes (hostKey a) n))) []
    | .hostWrite a bs => .go s (putBytes (hostKey a) bs)))

end Sys2Proof.Machine
end

