-- ==== Sys2Proof/Machine/Task.lean ====
section
/-! DEFINITION. The task engine at work: dispatch and completion (R253, R254), graph nodes (R255), its commands (R258), and end
(R185). -/

namespace Sys2Proof.Machine

/-! ### Dispatch (R253) -/

/-- A task is dispatched: its wait bits are consumed unless it is sticky; running := 1; its age is cleared (R23, R251). -/
def noteDispatch (s : State) (k i : Nat) : State :=
  let x := (s.cluster k).task i
  let key := entryResource s k x.image
  s.modCluster k (fun K =>
    let K1 := if entrySticky x.image then K else K.clearEvents (entryWait x.image)
    { K1 with tasks := K1.tasks.put i { x with running := true, age := 0, lost := false }, turn := K1.turn.put key (s.now + 1) })

/-- The record of a block task whose context holds no block (R253, R283). -/
def noBlockRec (s : State) (t c : Nat) : Rec := { s.tileRec t true 5 0x13 (BitVec.ofNat 64 c) [] with ctx := c }

/-- What dispatch does by kind (R253): a run starts, the sequencer starts at the entry, or a command is appended. -/
def dispatchBody (s : State) (k i : Nat) : State × List (Nat × Byte) :=
  let e := ((s.cluster k).task i).image
  let t := entryTile s k e
  match entryKind e with
  | 0 =>
    let c := entryCtx e
    let x := startRun ((s.tile t).ctx c) (entryBody e) (.task i) 0
    if x.block.loaded then (s.modTile t (fun T => T.setCtx c x), [])
    else ((s.record (noBlockRec s t c)).modTile t (fun T => T.setCtx c { x with stopped := some (.cause 0x13 []) }), [])
  | 1 =>
    (s.modSeq t (fun q =>
      let q1 := ((q.set 4 (BitVec.ofNat 64 (entryArg0 e))).set 5 (BitVec.ofNat 64 (entryArg1 e))).set 6 (BitVec.ofNat 64 i)
      { q1 with phase := .running, mode := false, pc := BitVec.ofNat 14 (entryBody e / 4), task := some i }), [])
  | 2 =>
    let b := entryBody e
    let r := appendCmd (s.cluster k) k (b % 8) (t % 4) (b / 8 % 256) (b / 2 ^ 11) false (BitVec.ofNat 64 (entryArg0 e))
      (BitVec.ofNat 64 (entryArg1 e)) (s.tile t).seq.no (some i)
    (s.setCluster k r.1, r.2)
  | _ => (s, [])

/-- The task engine dispatches a ready task that it chooses (R250 to R253). -/
def execTaskDispatch (cluster index : Nat) (s : State) : Host.Outcome State Fault Refusal :=
  perform s (within (cluster < clusterCount && index < 512) (
    when (chosen s cluster index) s
      (let r := dispatchBody (noteDispatch s cluster index) cluster index
       .go r.1 r.2)))

/-- Has the run that a block task started ended, with every held store and port write of its rounds performed (R253, R254)? -/
def blockTaskDone (s : State) (k i : Nat) : Bool :=
  let x := (s.cluster k).task i
  let t := entryTile s k x.image
  let T := s.tile t
  x.running && entryKind x.image = 0 &&
  ((T.ctx (entryCtx x.image)).run.all (fun r => r.by_ != .task i)) &&
  !(T.drain.any (fun h => h.ctx = entryCtx x.image && !h.bySeq)) &&
  !((List.range 4).any (fun p => (T.port p).serves (entryCtx x.image) && !(T.port p).committed.isEmpty)) &&
  !roundPending s t (fun w => w.ctx = entryCtx x.image)

/-- A block task completes (R253); a seq task completes at end, a cmd task with its command. -/
def execTaskCompletion (cluster index : Nat) (s : State) : Host.Outcome State Fault Refusal :=
  perform s (within (cluster < clusterCount && index < 512) (
    when (blockTaskDone s cluster index) s (.go (completeRunning s cluster index) [])))

/-! ### Graph nodes (R255) -/

/-- The condition word of a node. -/
def condWord (s : State) (k : Nat) (e : BitVec 1024) : Nat := s.mem.nat (spadKey k (entryBody e % 2 ^ 21)) 8

/-- The else events of a node as a mask. -/
def elseMask (e : BitVec 1024) : Nat :=
  ((List.range 4).filter (fun i => (entryArg1 e).testBit (9 * i + 8))).foldl (fun m i => m ||| 2 ^ (entryArg1 e / 2 ^ (9 * i) % 256)) 0

/-- A node of a kind that runs. -/
def nodeOp (kind cluster index : Nat) (s : State) (body : Task → State) : Host.Outcome State Fault Refusal :=
  perform s (within (cluster < clusterCount && index < 512) (
    let x := (s.cluster cluster).task index
    when (x.running && entryKind x.image = kind && tileRuns s (entryTile s cluster x.image)) s (.go (body x) [])))

/-- A cond node completes when its read returns (R255). -/
def execGraphCond (cluster index : Nat) (s : State) : Host.Outcome State Fault Refusal :=
  nodeOp 3 cluster index s (fun x =>
    completeTask s cluster index (if condWord s cluster x.image = 0 then elseMask x.image else entrySet x.image) true)

/-- Put the count of a node. -/
def setCount (s : State) (k i n : Nat) : State :=
  s.modCluster k (fun K => { K with tasks := K.tasks.put i { K.task i with count := n } })

/-- The trip-limit record of a while node (R255). -/
def tripRecord (tile index : Nat) : List Byte :=
  engineRecord 3 tile 0 0x13 0 (leBytes 8 index)

/-- A while node completes on its read, counting trips (R255); it waits while its record finds its tile's queue full (R173). -/
def execGraphWhile (cluster index : Nat) (s : State) : Host.Outcome State Fault Refusal :=
  nodeOp 4 cluster index s (fun x =>
    let e := x.image
    let trips := entryBody e / 2 ^ 32
    let w := condWord s cluster e
    if w != 0 && (trips = 0 || x.count < trips) then completeTask (setCount s cluster index (x.count + 1)) cluster index (entrySet e) true
    else
      let s1 := completeTask (setCount s cluster index 0) cluster index (elseMask e) true
      let j := entryTile s cluster e % 4
      if w = 0 then s1
      else if !(s.cluster cluster).evqRoom j then s
      else s1.modCluster cluster (fun K => { K with evq := K.evq.put j (K.evq.get [] j ++ [tripRecord j index]) }))

/-- A join node counts, and sets its mask at n (R255). -/
def execGraphJoin (cluster index : Nat) (s : State) : Host.Outcome State Fault Refusal :=
  nodeOp 5 cluster index s (fun x =>
    if x.count + 1 = entryBody x.image % 2 ^ 16 then completeTask (setCount s cluster index 0) cluster index (entrySet x.image) true
    else completeTask (setCount s cluster index (x.count + 1)) cluster index 0 false)

/-! ### Commands (R258) -/

/-- A task command ends: record bytes 8 to 15 hold what it named. -/
def endTask (s : State) (k tile : Nat) (x : Cmd) (status : Nat) (named : Word) : State :=
  endCmd s k tile x status (leBytes 8 named.toNat)

/-- A scratchpad offset of n bytes that keeps its alignment (R39, R42). -/
def alignedOff (a : Word) (n : Nat) : Bool := a.toNat % 2 ^ 21 % n == 0

/-- task.def (R258): the index is checked, then whether the entry runs, then the entry itself. -/
def execTaskDef (cluster tile : Nat) (s : State) : Host.Outcome State Fault Refusal :=
  engineOp 3 1 false true cluster tile s (fun s x =>
    let e : BitVec 1024 := BitVec.ofNat 1024 (leNat (spadBytes s cluster (x.a.toNat % 2 ^ 21) 128))
    let here := match pageTile s (s.cluster cluster).launchNo (entryPage e) with | some t => clusterOf t = cluster | none => false
    let i := x.b.toNat
    if !alignedOff x.a 128 || i ≥ 512 then (endTask s cluster tile x 0x11 x.b, [])
    else if ((s.cluster cluster).task i).running then (endTask s cluster tile x 0x10 x.b, [])
    else if badEntry e here then (endTask s cluster tile x 0x12 x.b, [])
    else (endTask (s.modCluster cluster (fun K => { K with tasks := K.tasks.put i (Task.fresh e) })) cluster tile x 0 x.b, []))

/-- task.dis (R258): valid := 0; a running task completes. A reserved x[b] that is not zero is a bad operand. DESIGN CHOICE, log entry 93. -/
def execTaskDis (cluster tile : Nat) (s : State) : Host.Outcome State Fault Refusal :=
  engineOp 3 2 false false cluster tile s (fun s x =>
    let i := x.a.toNat
    if i ≥ 512 || x.b != 0 then (endTask s cluster tile x 0x11 x.a, [])
    else
      let off (y : Task) : Task := { y with image := y.image &&& ~~~(BitVec.ofNat 1024 (2 ^ (8 * 64 + 63))) }
      (endTask (s.modCluster cluster (fun K => { K with tasks := K.tasks.put i (off (K.task i)) })) cluster tile x 0 x.a, []))

/-- Is what the issuer of a command did before it visible at the command's scope (R71, R258)? -/
def issuerReleased (s : State) (k tile : Nat) (x : Cmd) : Bool :=
  issuerDone s k tile x && !(wideScope x.scope && inFlight s (k * 4 + tile))

/-- task.evset (R258): into the events of a cluster of the consist; with the release flag, a release at the flags' scope. -/
def execTaskEvset (cluster tile : Nat) (s : State) : Host.Outcome State Fault Refusal :=
  engineOp 3 3 false true cluster tile s (fun s x =>
    let target := (engineLaunch s cluster).bind (fun p => p.2.consist[x.b.toNat]?)
    match target with
    | some k =>
      if !alignedOff x.a 32 || x.b.toNat ≥ 16 then (endTask s cluster tile x 0x11 x.b, [])
      else if x.release && !issuerReleased s cluster tile x then (s, [])
      else
        let mask := leNat (spadBytes s cluster (x.a.toNat % 2 ^ 21) 32)
        (endTask (s.modCluster k (fun K => K.orEvents mask)) cluster tile x 0 x.b, [])
    | none => (endTask s cluster tile x 0x11 x.b, []))

/-- task.tlset (R257, R258): privileged; a timeline may move backward; its write comes after that of its own completion; a release at cluster
scope (R72). -/
def execTaskTlset (cluster tile : Nat) (s : State) : Host.Outcome State Fault Refusal :=
  engineOp 3 4 true false cluster tile s (fun s x =>
    if x.a.toNat ≥ 64 then (endTask s cluster tile x 0x11 x.a, [])
    else if !issuerDone s cluster tile x then (s, [])
    else ((endTask s cluster tile x 0 x.a).modCluster cluster (fun K => { K with tl := K.tl.put x.a.toNat x.b }), []))

/-- task.launch (R258, R261): the packet is read from LV memory and submitted to its home die; its record echoes x[a], and a reserved x[b] that
is not zero is a bad operand. DESIGN CHOICE, log entry 93. -/
def execTaskLaunch (cluster tile : Nat) (s : State) : Host.Outcome State Fault Refusal :=
  engineOp 3 5 false false cluster tile s (fun s x =>
    let T := s.tile (cluster * 4 + tile)
    let K := s.cluster cluster
    if x.a.toNat % 64 != 0 || x.b != 0 then (endTask s cluster tile x 0x11 x.a, [])
    else match lvAccess s cluster T.selected K.tlb x.a 64 false with
      | .error f => (faultCmd s cluster tile x 5 f 0 (leBytes 8 x.a.toNat), [])
      | .ok (ps, us) =>
        if !(ps.all (servable s (dieOfCluster cluster))) then (s, [])
        else if !submitReady s (dieOfCluster cluster) (ps.flatMap s.pieceBytes) (.context K.launchNo) then (s, [])
        else
          let s1 := mergeRead (s.noteCluster cluster us) (dieOfCluster cluster) ps
          let r := submit s1 (dieOfCluster cluster) (ps.flatMap s.pieceBytes) (.context K.launchNo)
          (endTask r.1 cluster tile x 0 x.a, r.2))

/-! ### end (R185) -/

/-- end (R185): waits as drain does, then for the store queue to be performed at cluster scope; completes the task; goes idle. -/
def execSeqEnd (s : State) : Host.Outcome State Fault Refusal :=
  let t := s.focus.tile
  let q := (s.tile t).seq
  seqOp s [] (when (drained s t && q.queue.isEmpty && q.loads.isEmpty && !(inFlight s t)) s
    (let s1 := s.modSeq t (fun q => { q with phase := .idle, task := none })
     .go (match q.task with | some i => completeRunning s1 (clusterOf t) i | none => s1) []))

end Sys2Proof.Machine
end

