-- ==== Sys2Proof/Machine/Dispatch.lean ====
section
/-! DEFINITION. The dispatcher: one arm per constructor of Instr, each a direct call of that step's meaning. -/

namespace Sys2Proof.Machine

/-- The meaning of every step. -/
def exec (i : Instr) (s : State) : Host.Outcome State Fault Refusal :=
  match i with
  | .add d a b => Sys2Proof.Machine.execAdd d a b s
  | .sub d a b => Sys2Proof.Machine.execSub d a b s
  | .and d a b => Sys2Proof.Machine.execAnd d a b s
  | .or d a b => Sys2Proof.Machine.execOr d a b s
  | .xor d a b => Sys2Proof.Machine.execXor d a b s
  | .sll d a b => Sys2Proof.Machine.execSll d a b s
  | .srl d a b => Sys2Proof.Machine.execSrl d a b s
  | .sra d a b => Sys2Proof.Machine.execSra d a b s
  | .slt d a b => Sys2Proof.Machine.execSlt d a b s
  | .sltu d a b => Sys2Proof.Machine.execSltu d a b s
  | .min d a b => Sys2Proof.Machine.execMin d a b s
  | .max d a b => Sys2Proof.Machine.execMax d a b s
  | .minu d a b => Sys2Proof.Machine.execMinu d a b s
  | .maxu d a b => Sys2Proof.Machine.execMaxu d a b s
  | .xadd2 d a b => Sys2Proof.Machine.execXadd2 d a b s
  | .xadd4 d a b => Sys2Proof.Machine.execXadd4 d a b s
  | .xadd8 d a b => Sys2Proof.Machine.execXadd8 d a b s
  | .sadd d a b => Sys2Proof.Machine.execSadd d a b s
  | .mul d a b => Sys2Proof.Machine.execMul d a b s
  | .mulh d a b => Sys2Proof.Machine.execMulh d a b s
  | .mulhu d a b => Sys2Proof.Machine.execMulhu d a b s
  | .div d a b => Sys2Proof.Machine.execDiv d a b s
  | .divu d a b => Sys2Proof.Machine.execDivu d a b s
  | .rem d a b => Sys2Proof.Machine.execRem d a b s
  | .remu d a b => Sys2Proof.Machine.execRemu d a b s
  | .clz d a => Sys2Proof.Machine.execClz d a s
  | .ctz d a => Sys2Proof.Machine.execCtz d a s
  | .popc d a => Sys2Proof.Machine.execPopc d a s
  | .nop => Sys2Proof.Machine.execNop s
  | .ret => Sys2Proof.Machine.execRet s
  | .mflk d => Sys2Proof.Machine.execMflk d s
  | .mtlk a => Sys2Proof.Machine.execMtlk a s
  | .addi d a imm => Sys2Proof.Machine.execAddi d a imm s
  | .addi16 d a imm => Sys2Proof.Machine.execAddi16 d a imm s
  | .addi32 d a imm => Sys2Proof.Machine.execAddi32 d a imm s
  | .addi48 d a imm => Sys2Proof.Machine.execAddi48 d a imm s
  | .andi d a imm => Sys2Proof.Machine.execAndi d a imm s
  | .ori d a imm => Sys2Proof.Machine.execOri d a imm s
  | .xori d a imm => Sys2Proof.Machine.execXori d a imm s
  | .slti d a imm => Sys2Proof.Machine.execSlti d a imm s
  | .sltiu d a imm => Sys2Proof.Machine.execSltiu d a imm s
  | .slli d a imm => Sys2Proof.Machine.execSlli d a imm s
  | .srli d a imm => Sys2Proof.Machine.execSrli d a imm s
  | .srai d a imm => Sys2Proof.Machine.execSrai d a imm s
  | .saddi d a imm => Sys2Proof.Machine.execSaddi d a imm s
  | .beq a b imm => Sys2Proof.Machine.execBeq a b imm s
  | .bne a b imm => Sys2Proof.Machine.execBne a b imm s
  | .blt a b imm => Sys2Proof.Machine.execBlt a b imm s
  | .bge a b imm => Sys2Proof.Machine.execBge a b imm s
  | .bltu a b imm => Sys2Proof.Machine.execBltu a b imm s
  | .bgeu a b imm => Sys2Proof.Machine.execBgeu a b imm s
  | .j imm => Sys2Proof.Machine.execJ imm s
  | .jal imm => Sys2Proof.Machine.execJal imm s
  | .jr a imm => Sys2Proof.Machine.execJr a imm s
  | .jalr a imm => Sys2Proof.Machine.execJalr a imm s
  | .mfs d sys => Sys2Proof.Machine.execMfs d sys s
  | .mts a sys => Sys2Proof.Machine.execMts a sys s
  | .ldI8 d base imm => Sys2Proof.Machine.execLdI8 d base imm s
  | .ldI16 d base imm => Sys2Proof.Machine.execLdI16 d base imm s
  | .ldI32 d base imm => Sys2Proof.Machine.execLdI32 d base imm s
  | .ld64 d base imm => Sys2Proof.Machine.execLd64 d base imm s
  | .ldN8 d base imm => Sys2Proof.Machine.execLdN8 d base imm s
  | .ldN16 d base imm => Sys2Proof.Machine.execLdN16 d base imm s
  | .ldN32 d base imm => Sys2Proof.Machine.execLdN32 d base imm s
  | .st8 d base imm => Sys2Proof.Machine.execSt8 d base imm s
  | .st16 d base imm => Sys2Proof.Machine.execSt16 d base imm s
  | .st32 d base imm => Sys2Proof.Machine.execSt32 d base imm s
  | .st64 d base imm => Sys2Proof.Machine.execSt64 d base imm s
  | .lds d a off kind => Sys2Proof.Machine.execLds d a off kind s
  | .sts a b off kind => Sys2Proof.Machine.execSts a b off kind s
  | .ldp d a off kind => Sys2Proof.Machine.execLdp d a off kind s
  | .stp a b off kind => Sys2Proof.Machine.execStp a b off kind s
  | .amo d a b scope ord wide op => Sys2Proof.Machine.execAmo d a b scope ord wide op s
  | .amos d a b scope ord wide op => Sys2Proof.Machine.execAmos d a b scope ord wide op s
  | .amoLd d a scope wide space => Sys2Proof.Machine.execAmoLd d a scope wide space s
  | .amoSt a b scope wide space => Sys2Proof.Machine.execAmoSt a b scope wide space s
  | .fence scope ord => Sys2Proof.Machine.execFence scope ord s
  | .ctxSel a => Sys2Proof.Machine.execCtxSel a s
  | .run a => Sys2Proof.Machine.execRun a s
  | .drain => Sys2Proof.Machine.execDrain s
  | .cfgs a b => Sys2Proof.Machine.execCfgs a b s
  | .barInit a b => Sys2Proof.Machine.execBarInit a b s
  | .barInitb a b => Sys2Proof.Machine.execBarInitb a b s
  | .barArr d a => Sys2Proof.Machine.execBarArr d a s
  | .barWait a b => Sys2Proof.Machine.execBarWait a b s
  | .barRd d a => Sys2Proof.Machine.execBarRd d a s
  | .evSet a => Sys2Proof.Machine.execEvSet a s
  | .evClr a => Sys2Proof.Machine.execEvClr a s
  | .evWait a => Sys2Proof.Machine.execEvWait a s
  | .evTake a => Sys2Proof.Machine.execEvTake a s
  | .tlRd d a => Sys2Proof.Machine.execTlRd d a s
  | .tlAdv a b => Sys2Proof.Machine.execTlAdv a b s
  | .tlWait a b => Sys2Proof.Machine.execTlWait a b s
  | .evq d a => Sys2Proof.Machine.execEvq d a s
  | .evqW d a => Sys2Proof.Machine.execEvqW d a s
  | .tlook d a => Sys2Proof.Machine.execTlook d a s
  | .tset a b => Sys2Proof.Machine.execTset a b s
  | .tclr a => Sys2Proof.Machine.execTclr a s
  | .issue eng cmd a b flags => Sys2Proof.Machine.execIssue eng cmd a b flags s
  | .spCfg a b => Sys2Proof.Machine.execSpCfg a b s
  | .spHwm a b => Sys2Proof.Machine.execSpHwm a b s
  | .spResv a b => Sys2Proof.Machine.execSpResv a b s
  | .spPub a b => Sys2Proof.Machine.execSpPub a b s
  | .spRel a b => Sys2Proof.Machine.execSpRel a b s
  | .spRew a b => Sys2Proof.Machine.execSpRew a b s
  | .spRdm a b => Sys2Proof.Machine.execSpRdm a b s
  | .spQbind a b => Sys2Proof.Machine.execSpQbind a b s
  | .trap a => Sys2Proof.Machine.execTrap a s
  | .eret => Sys2Proof.Machine.execEret s
  | .seqEnd => Sys2Proof.Machine.execSeqEnd s
  | .fabMov f => Sys2Proof.Machine.execFabMov f s
  | .fabVmov f => Sys2Proof.Machine.execFabVmov f s
  | .fabConst f => Sys2Proof.Machine.execFabConst f s
  | .fabGrd f => Sys2Proof.Machine.execFabGrd f s
  | .fabVrd f => Sys2Proof.Machine.execFabVrd f s
  | .fabSel f => Sys2Proof.Machine.execFabSel f s
  | .fabVsel f => Sys2Proof.Machine.execFabVsel f s
  | .fabAdd f => Sys2Proof.Machine.execFabAdd f s
  | .fabSub f => Sys2Proof.Machine.execFabSub f s
  | .fabAddi f => Sys2Proof.Machine.execFabAddi f s
  | .fabMul f => Sys2Proof.Machine.execFabMul f s
  | .fabMulh f => Sys2Proof.Machine.execFabMulh f s
  | .fabDiv f => Sys2Proof.Machine.execFabDiv f s
  | .fabRem f => Sys2Proof.Machine.execFabRem f s
  | .fabAnd f => Sys2Proof.Machine.execFabAnd f s
  | .fabOr f => Sys2Proof.Machine.execFabOr f s
  | .fabXor f => Sys2Proof.Machine.execFabXor f s
  | .fabShl f => Sys2Proof.Machine.execFabShl f s
  | .fabShr f => Sys2Proof.Machine.execFabShr f s
  | .fabMin f => Sys2Proof.Machine.execFabMin f s
  | .fabMax f => Sys2Proof.Machine.execFabMax f s
  | .fabAbs f => Sys2Proof.Machine.execFabAbs f s
  | .fabNeg f => Sys2Proof.Machine.execFabNeg f s
  | .fabClz f => Sys2Proof.Machine.execFabClz f s
  | .fabCtz f => Sys2Proof.Machine.execFabCtz f s
  | .fabPopc f => Sys2Proof.Machine.execFabPopc f s
  | .fabAdds f => Sys2Proof.Machine.execFabAdds f s
  | .fabSubs f => Sys2Proof.Machine.execFabSubs f s
  | .fabSadd f => Sys2Proof.Machine.execFabSadd f s
  | .fabCeq f => Sys2Proof.Machine.execFabCeq f s
  | .fabCne f => Sys2Proof.Machine.execFabCne f s
  | .fabClt f => Sys2Proof.Machine.execFabClt f s
  | .fabCle f => Sys2Proof.Machine.execFabCle f s
  | .fabPand f => Sys2Proof.Machine.execFabPand f s
  | .fabPor f => Sys2Proof.Machine.execFabPor f s
  | .fabPnot f => Sys2Proof.Machine.execFabPnot f s
  | .fabPxor f => Sys2Proof.Machine.execFabPxor f s
  | .fabFadd f => Sys2Proof.Machine.execFabFadd f s
  | .fabFsub f => Sys2Proof.Machine.execFabFsub f s
  | .fabFmul f => Sys2Proof.Machine.execFabFmul f s
  | .fabFma f => Sys2Proof.Machine.execFabFma f s
  | .fabFnma f => Sys2Proof.Machine.execFabFnma f s
  | .fabFdiv f => Sys2Proof.Machine.execFabFdiv f s
  | .fabFsqrt f => Sys2Proof.Machine.execFabFsqrt f s
  | .fabFrcp f => Sys2Proof.Machine.execFabFrcp f s
  | .fabFmin f => Sys2Proof.Machine.execFabFmin f s
  | .fabFmax f => Sys2Proof.Machine.execFabFmax f s
  | .fabFabs f => Sys2Proof.Machine.execFabFabs f s
  | .fabFneg f => Sys2Proof.Machine.execFabFneg f s
  | .fabFexp2 f => Sys2Proof.Machine.execFabFexp2 f s
  | .fabFlog2 f => Sys2Proof.Machine.execFabFlog2 f s
  | .fabVadd f => Sys2Proof.Machine.execFabVadd f s
  | .fabVsub f => Sys2Proof.Machine.execFabVsub f s
  | .fabVmul f => Sys2Proof.Machine.execFabVmul f s
  | .fabVfma f => Sys2Proof.Machine.execFabVfma f s
  | .fabVmin f => Sys2Proof.Machine.execFabVmin f s
  | .fabVmax f => Sys2Proof.Machine.execFabVmax f s
  | .fabVabs f => Sys2Proof.Machine.execFabVabs f s
  | .fabVneg f => Sys2Proof.Machine.execFabVneg f s
  | .fabVhsum f => Sys2Proof.Machine.execFabVhsum f s
  | .fabVhmax f => Sys2Proof.Machine.execFabVhmax f s
  | .fabVbcast f => Sys2Proof.Machine.execFabVbcast f s
  | .fabVext f => Sys2Proof.Machine.execFabVext f s
  | .fabVins f => Sys2Proof.Machine.execFabVins f s
  | .fabVceq f => Sys2Proof.Machine.execFabVceq f s
  | .fabVclt f => Sys2Proof.Machine.execFabVclt f s
  | .fabVand f => Sys2Proof.Machine.execFabVand f s
  | .fabVor f => Sys2Proof.Machine.execFabVor f s
  | .fabVxor f => Sys2Proof.Machine.execFabVxor f s
  | .fabVshl f => Sys2Proof.Machine.execFabVshl f s
  | .fabVshr f => Sys2Proof.Machine.execFabVshr f s
  | .fabVexp2 f => Sys2Proof.Machine.execFabVexp2 f s
  | .fabVrcp f => Sys2Proof.Machine.execFabVrcp f s
  | .fabCvt f => Sys2Proof.Machine.execFabCvt f s
  | .fabVcvt f => Sys2Proof.Machine.execFabVcvt f s
  | .fabScacc f => Sys2Proof.Machine.execFabScacc f s
  | .fabVscacc f => Sys2Proof.Machine.execFabVscacc f s
  | .fabStop f => Sys2Proof.Machine.execFabStop f s
  | .fabSlvl f => Sys2Proof.Machine.execFabSlvl f s
  | .fabSgate f => Sys2Proof.Machine.execFabSgate f s
  | .fabScount f => Sys2Proof.Machine.execFabScount f s
  | .fabOrdt f => Sys2Proof.Machine.execFabOrdt f s
  | .fabLd f => Sys2Proof.Machine.execFabLd f s
  | .fabSt f => Sys2Proof.Machine.execFabSt f s
  | .fabVld f => Sys2Proof.Machine.execFabVld f s
  | .fabVst f => Sys2Proof.Machine.execFabVst f s
  | .fabLdx f => Sys2Proof.Machine.execFabLdx f s
  | .fabStx f => Sys2Proof.Machine.execFabStx f s
  | .fabVldx f => Sys2Proof.Machine.execFabVldx f s
  | .fabVstx f => Sys2Proof.Machine.execFabVstx f s
  | .fabLds f => Sys2Proof.Machine.execFabLds f s
  | .fabSts f => Sys2Proof.Machine.execFabSts f s
  | .fabVlds f => Sys2Proof.Machine.execFabVlds f s
  | .fabVsts f => Sys2Proof.Machine.execFabVsts f s
  | .fabWsplit f => Sys2Proof.Machine.execFabWsplit f s
  | .fabWjoin f => Sys2Proof.Machine.execFabWjoin f s
  | .fabAmo f => Sys2Proof.Machine.execFabAmo f s
  | .fabAmos f => Sys2Proof.Machine.execFabAmos f s
  | .fabRpt f => Sys2Proof.Machine.execFabRpt f s
  | .fabMma f => Sys2Proof.Machine.execFabMma f s
  | .fabAccrd f => Sys2Proof.Machine.execFabAccrd f s
  | .fabBld f => Sys2Proof.Machine.execFabBld f s
  | .fabBst f => Sys2Proof.Machine.execFabBst f s
  | .fabExit f => Sys2Proof.Machine.execFabExit f s
  | .fabNull f => Sys2Proof.Machine.execFabNull f s
  | .fabBar f => Sys2Proof.Machine.execFabBar f s
  | .memoryNodeResponse tile load seen => Sys2Proof.Machine.execMemoryNodeResponse tile load seen s
  | .roundStart tile ctx => Sys2Proof.Machine.execRoundStart tile ctx s
  | .roundCommit tile => Sys2Proof.Machine.execRoundCommit tile s
  | .storeBufferDrain tile => Sys2Proof.Machine.execStoreBufferDrain tile s
  | .portReadResponse tile port fetch => Sys2Proof.Machine.execPortReadResponse tile port fetch s
  | .portWritePerform tile port => Sys2Proof.Machine.execPortWritePerform tile port s
  | .hotnessFlush tile port => Sys2Proof.Machine.execHotnessFlush tile port s
  | .streamReadUnblock tile who => Sys2Proof.Machine.execStreamReadUnblock tile who s
  | .streamWriteUnblock tile who => Sys2Proof.Machine.execStreamWriteUnblock tile who s
  | .spill launch handle => Sys2Proof.Machine.execSpill launch handle s
  | .streamDeadlock launch => Sys2Proof.Machine.execStreamDeadlock launch s
  | .apertureBind j value => Sys2Proof.Machine.execApertureBind j value s
  | .apertureHwm j value => Sys2Proof.Machine.execApertureHwm j value s
  | .apertureRel j value => Sys2Proof.Machine.execApertureRel j value s
  | .apertureErr j => Sys2Proof.Machine.execApertureErr j s
  | .apertureDataRead j offset size => Sys2Proof.Machine.execApertureDataRead j offset size s
  | .apertureDataWrite j offset data => Sys2Proof.Machine.execApertureDataWrite j offset data s
  | .cfgWrite page element field value => Sys2Proof.Machine.execCfgWrite page element field value s
  | .cfgSelectContext rsv ctx => Sys2Proof.Machine.execCfgSelectContext rsv ctx s
  | .cfgPageHeader page rsv count => Sys2Proof.Machine.execCfgPageHeader page rsv count s
  | .cfgBlockHeader part rsv value => Sys2Proof.Machine.execCfgBlockHeader part rsv value s
  | .cfgChecksum sum => Sys2Proof.Machine.execCfgChecksum sum s
  | .configurationComplete rsv => Sys2Proof.Machine.execConfigurationComplete rsv s
  | .seedInject launch => Sys2Proof.Machine.execSeedInject launch s
  | .launchPacket die packet source => Sys2Proof.Machine.execLaunchPacket die packet source s
  | .launchQueue => Sys2Proof.Machine.execLaunchQueue s
  | .place die => Sys2Proof.Machine.execPlace die s
  | .retire launch => Sys2Proof.Machine.execRetire launch s
  | .quiescent launch => Sys2Proof.Machine.execQuiescent launch s
  | .moveCluster launch position target => Sys2Proof.Machine.execMoveCluster launch position target s
  | .taskDispatch cluster index => Sys2Proof.Machine.execTaskDispatch cluster index s
  | .taskCompletion cluster index => Sys2Proof.Machine.execTaskCompletion cluster index s
  | .graphCond cluster index => Sys2Proof.Machine.execGraphCond cluster index s
  | .graphWhile cluster index => Sys2Proof.Machine.execGraphWhile cluster index s
  | .graphJoin cluster index => Sys2Proof.Machine.execGraphJoin cluster index s
  | .taskDef cluster tile => Sys2Proof.Machine.execTaskDef cluster tile s
  | .taskDis cluster tile => Sys2Proof.Machine.execTaskDis cluster tile s
  | .taskEvset cluster tile => Sys2Proof.Machine.execTaskEvset cluster tile s
  | .taskTlset cluster tile => Sys2Proof.Machine.execTaskTlset cluster tile s
  | .taskLaunch cluster tile => Sys2Proof.Machine.execTaskLaunch cluster tile s
  | .cpBulk cluster turn => Sys2Proof.Machine.execCpBulk cluster turn s
  | .cpMcast cluster turn => Sys2Proof.Machine.execCpMcast cluster turn s
  | .cpGrp cluster turn => Sys2Proof.Machine.execCpGrp cluster turn s
  | .cpAmo cluster turn => Sys2Proof.Machine.execCpAmo cluster turn s
  | .cpEnq cluster turn => Sys2Proof.Machine.execCpEnq cluster turn s
  | .grpMessage message => Sys2Proof.Machine.execGrpMessage message s
  | .grpAck cluster tile endpoint reason => Sys2Proof.Machine.execGrpAck cluster tile endpoint reason s
  | .grpNoResponse cluster tile endpoint => Sys2Proof.Machine.execGrpNoResponse cluster tile endpoint s
  | .amoRequest request => Sys2Proof.Machine.execAmoRequest request s
  | .amoReply cluster tile reply => Sys2Proof.Machine.execAmoReply cluster tile reply s
  | .retransmission cluster tile => Sys2Proof.Machine.execRetransmission cluster tile s
  | .retryInterval cluster tile => Sys2Proof.Machine.execRetryInterval cluster tile s
  | .enqRequest request => Sys2Proof.Machine.execEnqRequest request s
  | .redFab cluster tile => Sys2Proof.Machine.execRedFab cluster tile s
  | .reductionStart launch tag => Sys2Proof.Machine.execReductionStart launch tag s
  | .redEst cluster tile => Sys2Proof.Machine.execRedEst cluster tile s
  | .redRd cluster tile => Sys2Proof.Machine.execRedRd cluster tile s
  | .claim launch position => Sys2Proof.Machine.execClaim launch position s
  | .merge launch position => Sys2Proof.Machine.execMerge launch position s
  | .stopNotice launch position => Sys2Proof.Machine.execStopNotice launch position s
  | .level2Stop launch position => Sys2Proof.Machine.execLevel2Stop launch position s
  | .kstepAccept cluster => Sys2Proof.Machine.execKstepAccept cluster s
  | .kstep cluster => Sys2Proof.Machine.execKstep cluster s
  | .mxMode cluster tile => Sys2Proof.Machine.execMxMode cluster tile s
  | .mxSlot cluster tile => Sys2Proof.Machine.execMxSlot cluster tile s
  | .mxFree cluster tile => Sys2Proof.Machine.execMxFree cluster tile s
  | .mxRd cluster tile => Sys2Proof.Machine.execMxRd cluster tile s
  | .invalidate die ctxid lo len everyDie => Sys2Proof.Machine.execInvalidate die ctxid lo len everyDie s
  | .invalidationComplete die => Sys2Proof.Machine.execInvalidationComplete die s
  | .priAnswer die ctxid page success => Sys2Proof.Machine.execPriAnswer die ctxid page success s
  | .atsInvalidation die pasid lo len => Sys2Proof.Machine.execAtsInvalidation die pasid lo len s
  | .remoteRequest request => Sys2Proof.Machine.execRemoteRequest request s
  | .dupInvalidation write holder => Sys2Proof.Machine.execDupInvalidation write holder s
  | .dupAck write holder => Sys2Proof.Machine.execDupAck write holder s
  | .preempt die word => Sys2Proof.Machine.execPreempt die word s
  | .readoutComplete launch => Sys2Proof.Machine.execReadoutComplete launch s
  | .restore die word => Sys2Proof.Machine.execRestore die word s
  | .resume die word => Sys2Proof.Machine.execResume die word s
  | .kill die word => Sys2Proof.Machine.execKill die word s
  | .recordCopy die => Sys2Proof.Machine.execRecordCopy die s
  | .flit die link data crc side => Sys2Proof.Machine.execFlit die link data crc side s
  | .linkDead die link => Sys2Proof.Machine.execLinkDead die link s
  | .laneLockLoss die link => Sys2Proof.Machine.execLaneLockLoss die link s
  | .portDown port => Sys2Proof.Machine.execPortDown port s
  | .keyExhaustion port receive => Sys2Proof.Machine.execKeyExhaustion port receive s
  | .seckey port receive key => Sys2Proof.Machine.execSeckey port receive key s
  | .ingressMessage die port message => Sys2Proof.Machine.execIngressMessage die port message s
  | .ingressRetry die port => Sys2Proof.Machine.execIngressRetry die port s
  | .requestTimeout who => Sys2Proof.Machine.execRequestTimeout who s
  | .routerPowerDown cluster => Sys2Proof.Machine.execRouterPowerDown cluster s
  | .routerWake cluster => Sys2Proof.Machine.execRouterWake cluster s
  | .bootgo => Sys2Proof.Machine.execBootgo s
  | .imageVerified => Sys2Proof.Machine.execImageVerified s
  | .packageReset => Sys2Proof.Machine.execPackageReset s
  | .lifeCycleTransition auth => Sys2Proof.Machine.execLifeCycleTransition auth s
  | .getCertificate => Sys2Proof.Machine.execGetCertificate s
  | .challenge nonce => Sys2Proof.Machine.execChallenge nonce s
  | .getMeasurements nonce => Sys2Proof.Machine.execGetMeasurements nonce s
  | .scrub die array word errors => Sys2Proof.Machine.execScrub die array word errors s
  | .uncorrectableError tile array word => Sys2Proof.Machine.execUncorrectableError tile array word s
  | .telemetryFlush => Sys2Proof.Machine.execTelemetryFlush s
  | .orderlyShutdown => Sys2Proof.Machine.execOrderlyShutdown s
  | .tmsel value => Sys2Proof.Machine.execTmsel value s
  | .throttle die => Sys2Proof.Machine.execThrottle die s
  | .thermalShutdown => Sys2Proof.Machine.execThermalShutdown s
  | .registerWrite die write => Sys2Proof.Machine.execRegisterWrite die write s
  | .illegalInstruction word => Sys2Proof.Machine.execIllegalInstruction word s
  | .loadValueReturn tile load => Sys2Proof.Machine.execLoadValueReturn tile load s
  | .storeQueueDrain tile entry => Sys2Proof.Machine.execStoreQueueDrain tile entry s
  | .lwrRead die amber => Sys2Proof.Machine.execLwrRead die amber s
  | .powerFailure => Sys2Proof.Machine.execPowerFailure s
  | .linkTraining die link ok => Sys2Proof.Machine.execLinkTraining die link ok s
  | .cxlMemAccess die lpddr address access => Sys2Proof.Machine.execCxlMemAccess die lpddr address access s
  | .tagHoldExpiry cluster tile => Sys2Proof.Machine.execTagHoldExpiry cluster tile s
  | .slotEntryBoundary cluster => Sys2Proof.Machine.execSlotEntryBoundary cluster s
  | .wipeComplete => Sys2Proof.Machine.execWipeComplete s

end Sys2Proof.Machine
end

