-- ==== Sys2Proof/Machine/Turns.lean ====
section
/-! DEFINITION. What a turn does beside the instruction it runs: the passing of cycles (R4, R30, R58, R169, R251, R301, R325, R326,
R400), fetching (R136), and tokens that move into latches (R198, R202). -/

namespace Sys2Proof.Machine

/-! ### Cycles that pass: the fabric (R30, R58, R301) -/

/-- Why a slot of the round in hand cannot fire, if it cannot (R30): operand missing 0, order token 3, target full 1, memory port 2. A
counted slot that has fired, a slot that has sent its one token, and a filling rpt are not stalled; one that still sends tokens of a
firing waits for its targets alone, a bld whose setting has been read for its bank (R343). DEDUCED, log entry 60. -/
def stallReason (e : Fab) : Option Nat :=
  if opSource e.op then (if !e.st.active && !e.space then some 1 else none)
  else if opCounted e.op && e.r.fired.contains e.slot then none
  else if !e.st.out.isEmpty then (if e.space then none else some 1)
  else if e.bldHeld then some 2
  else if e.lacks then some 0
  else if !predPresent e.r e.op e.f e.slot then some 3
  else if e.op = 0x88 && e.st.term.isNone then none
  else if !e.space then some 1
  else if e.portWaits then some 2
  else none

/-- The slots of the round in hand of a tile that are stalled, with their reasons. -/
def stalledSlots (s : State) (t : Nat) : List (Nat × Nat) :=
  let T := s.tile t
  match T.round with
  | none => []
  | some r =>
    if T.live then
      (T.ctx r.ctx).block.slots.filterMap (fun w =>
        (stallReason (Fab.at_ s t r w.1 (slotOp w.2) (slotFields w.2))).map (fun x => (w.1, x)))
    else []

/-- Stall counters after the stalled cycles of some slots, each with its reason and how many. -/
def countStalls (stall : Tbl (Nat × Nat)) (xs : List (Nat × Nat × Nat)) : Tbl (Nat × Nat) :=
  xs.foldl (fun m x => m.put x.1 (x.2.1, sat32 ((m.get (0, 0) x.1).2 + x.2.2))) stall

/-- Does a consumer of the tokens of a port that reads LV memory wait for one (R58)? -/
def portStarves (T : Tile) (P : Port) (xs : List (Nat × Nat)) : Bool :=
  match P.prog, T.round with
  | some g, some r => !g.write && g.ctx = r.ctx && !g.spad && !g.isStream && xs.contains (g.slot, 0) && (r.at_ g.slot g.pos).isNone
  | _, _ => false

/-- A port after n cycles: blocked cycles (R301), starved cycles (R58), and since when its next access has been outstanding (R399). -/
def tickPort (T : Tile) (xs : List (Nat × Nat)) (now n : Nat) (P : Port) : Port :=
  { P with since := match P.prog with | some g => if P.fetching g then some (P.since.getD now) else none | none => none,
           hwmblk := if P.hwmBlocked.isSome then sat32 (P.hwmblk + n) else P.hwmblk,
           winblk := if P.winBlocked.isSome then sat32 (P.winblk + n) else P.winblk,
           starved := if portStarves T P xs then sat32 (P.starved + n) else P.starved }

/-- A barrier after n cycles from a cycle on: an excess that still reaches the target flips it once in each (R169). -/
def tickBar (now n : Nat) (b : Bar) : Bar :=
  let k := if b.target = 0 then 0 else min n (b.count / b.target)
  if k = 0 then b
  else { b with count := b.count - k * b.target, phase := if k % 2 = 1 then !b.phase else b.phase, flipped := some (now + k) }

/-- Stalled slots, each with its reason and the number of n cycles that it stalls: not the cycle in hand where it has had a turn in it. -/
def stalledFor (s : State) (n t : Nat) : List (Nat × Nat × Nat) :=
  let acted := match (s.tile t).round with | some r => r.acted | none => []
  ((stalledSlots s t).map (fun x => (x.1, x.2, if acted.contains x.1 then n - 1 else n))).filter (fun x => x.2.2 != 0)

/-- A tile after n cycles: nothing runs while its clocks are gated. Slots are judged stalled as the cycle ends, so that the cycle in which a round
commits or is voided counts for none of its slots. DESIGN CHOICE, log entry 100. -/
def tickTile (s : State) (n t : Nat) (T : Tile) : Tile :=
  if !T.live then T
  else
    let xs := stalledSlots s t
    let T1 := { T with ports := T.ports.map (fun p => (p.1, tickPort T xs s.now n p.2)), bars := T.bars.map (fun b => (b.1, tickBar s.now n b.2)) }
    match T.round with
    | none => T1
    | some r =>
      { T1 with round := some { r with acted := [] } }.modCtx r.ctx (fun c => { c with stall := countStalls c.stall (stalledFor s n t) })

/-! ### Cycles that pass: the cluster (R251, R325, R326, R328, R400) -/

/-- Is an entry ready on a cluster that dispatches and a tile that runs, so that its age grows (R251)? -/
def agesNow (s : State) (k : Nat) (x : Task) : Bool := graphLive s k && entryReady s k x && tileRuns s (entryTile s k x.image)

/-- A task entry after n cycles: its age grows by the cycle in hand where it was ready as that began and has not been dispatched in it, and
by each further cycle in which it is ready (R251). -/
def tickTask (s : State) (k n : Nat) (x : Task) : Task :=
  let y := agesNow s k x
  { x with age := min 0xFFFF (x.age + x.lost.toNat + (if y then n - 1 else 0)), lost := y }

/-- Does a node of the matrix engine wait (R325): it holds a candidate and is not the one that runs? -/
def nodeWaits (s : State) (k : Nat) (node : Node) : Bool :=
  (candidates s k).any (fun q => q.node = node) && !(((s.cluster k).mx.running).any (fun q => q.node = node))

/-- The matrix engine after n cycles: after a cycle without a k-step no node runs (R325). -/
def tickMatrix (s : State) (k n : Nat) (m : Matrix) : Matrix :=
  let nodes := ((candidates s k).map (fun q => q.node)).eraseDups.filter (nodeWaits s k)
  let m1 := nodes.foldl (fun (m : Matrix) q => m.setWait q (m.wait q + n)) m
  { m1 with current := if m.running.isNone && m.busyUntil ≤ s.now then none else m1.current,
            idle := if (s.cluster k).launch.isSome then m.idle + (n - min n (m.busyUntil - s.now)) else m.idle,
            left := if m.slotMode then m.left - n else m.left, begun := m.begun && !m.slotMode }

/-- A cluster after n cycles. -/
def tickCluster (s : State) (n k : Nat) (K : Cluster) : Cluster :=
  { K with tasks := K.tasks.map (fun x => (x.1, tickTask s k n x.2)), mx := tickMatrix s k n K.mx }

/-- Telemetry of stalled cycles (R406): by die and reason. -/
def tickCounts (s : State) (n : Nat) : Tbl Nat :=
  s.tiles.foldl (fun (m : Tbl Nat) p =>
    (stalledFor s n p.1).foldl (fun (m : Tbl Nat) x =>
      m.put (tmKey 3 (dieOf p.1) x.2.1 0) (sat32 (m.get 0 (tmKey 3 (dieOf p.1) x.2.1 0) + x.2.2))) m) s.pkg.counts

/-- n cycles pass (R4). DESIGN CHOICE, log entry 35. DESIGN CHOICE, log entry 36. -/
def tick (s : State) (n : Nat) : State :=
  if n = 0 then s
  else
    { s with now := s.now + n, marks := [], tiles := s.tiles.map (fun p => (p.1, tickTile s n p.1 p.2)),
             clusters := s.clusters.map (fun p => (p.1, tickCluster s n p.1 p.2)), pkg := { s.pkg with counts := tickCounts s n } }

/-- Bytes that count at barriers, as a cycle ends (R356). -/
def countTiles (s : State) : State :=
  (s.tiles.filter (fun p => !p.2.counts.isEmpty)).foldl (fun s p => s.modTile p.1 (fun T => T.countNow s.now)) s
/-- Barrier arrivals whose writes the cycle has brought home (R72, R207). -/
def settleTiles (s : State) : State :=
  (s.tiles.filter (fun p => !p.2.arrivals.isEmpty)).foldl (fun s p => settleTile s p.1) s
/-- What sessions do as a cycle ends (R377, R378). -/
def cycleSessions (s : State) : State :=
  (s.launches.filter (fun p => p.2.session.isSome)).foldl (fun s p => sessionCycle s p.1) s
/-- Ports that take up an installed key as a cycle ends (R391). -/
def resumePorts (s : State) : State :=
  (s.pkg.ports.map (·.1)).foldl (fun s i => resumeKey (resumeKey s i false) i true) s

/-- What the end of a cycle brings. -/
def endCycle (s : State) : State :=
  let s1 := resumePorts (cycleSessions (countTiles (settleTiles s)))
  (activeRouters s1).foldl wakeRouter s1

/-- The cycle in hand ends and n cycles pass; what one cycle has begun the next one ends. -/
def pass (s : State) (n : Nat) : State :=
  match n with
  | 0 => s
  | 1 => tick (endCycle s) 1
  | n + 2 => tick (endCycle (tick (endCycle s) 1)) (n + 1)

/-! ### Fetching (R136) -/

/-- The four bytes at pc in private memory (R136). -/
def fetchBytes (s : State) (t : Nat) : List Byte := s.mem.bytes (privKey t (s.tile t).seq.pcNat) 4

/-- The word at pc. -/
def fetchWord (s : State) (t : Nat) : BitVec 32 := BitVec.ofNat 32 (leNat (fetchBytes s t))

/-- The instruction at pc: a word that is none is the illegal-instruction trap (R144). -/
def fetchInstr (s : State) (t : Nat) : Instr :=
  match decodeBytes (fetchBytes s t) with
  | .ok i => i
  | .error _ => .illegalInstruction (fetchWord s t)

/-! ### Tokens reach latches (R187, R192, R198, R202) -/

/-- A token at a position of a slot: an order token is counted, any other fills the latch. -/
def land (r : Round) (c : Ctx) (index pos : Nat) (tok : Tok) : Round :=
  if pos = 3 && orderGated (c.fields index) then
    { r with order := r.order.put index (r.order.get 0 index + 1),
             orderDeps := r.orderDeps.put index (unionDeps (r.orderDeps.get [] index) tok.deps),
             orderNul := if tok.null then r.orderNul ++ [index] else r.orderNul }
  else { r with latch := r.latch.put (index * 4 + pos) tok }

/-- Is the place that a token moves to free: its target, or the input of the next box, for all but the other copy of the token? -/
def Round.ahead (r : Round) (c : Ctx) (x : Transit) : Bool :=
  if x.last c.block then x.page.isSome || posFree r c x.index x.pos
  else match x.next c.block with
    | some q => !(r.transit.any (fun y => y.tok.kind = x.tok.kind && y.box = q.1 && y.way = q.2 && !y.twin x))
    | none => false

/-- May a token move in a cycle: it came to where it stands in an earlier one, and the place ahead is free (R198)? -/
def Round.moves (r : Round) (c : Ctx) (now : Nat) (x : Transit) : Bool := decide (x.since < now) && r.ahead c x

/-- The output of its box that a token wants: one to a neighbour, or 4, the element itself. -/
def Transit.wants (x : Transit) (b : Block) : Nat := match x.next b with | some q => q.2 | none => 4

/-- Key of the output of a box that a token wants, by network. -/
def Transit.outKey (x : Transit) (b : Block) : Nat := (x.tok.kind.net * 64 + x.box) * 8 + x.wants b

/-- Does the output of the box that a token wants serve it before the tokens of the other inputs that could move there (R198)? -/
def served (T : Tile) (r : Round) (c : Ctx) (now : Nat) (x : Transit) : Bool :=
  let rank (y : Transit) : Nat := (y.way + 8 - T.robin.get 0 (x.outKey c.block)) % 8
  r.transit.all (fun y => !(y.tok.kind = x.tok.kind && y.box = x.box && y.wants c.block = x.wants c.block && r.moves c now y) ||
    decide (rank x ≤ rank y))

/-- The round after the i-th token has moved: into its target, to the seam port, or into the next box, with the other copy of it where
that goes the same way (R188). -/
def Round.moved (r : Round) (c : Ctx) (page now i : Nat) (x : Transit) : Round :=
  if x.last c.block then
    let r1 : Round := { r with transit := r.transit.eraseIdx i }
    match x.page with
    | some p => { r1 with exports := r1.exports ++ [{ page := p, tok := x.seamTok page r.ctx }] }
    | none => land r1 c x.index x.pos x.tok
  else match x.next c.block with
    | some q => { r with transit := r.transit.map (fun y =>
        if y.twin x && y.box = x.box && y.way = x.way && y.next c.block = x.next c.block && !y.last c.block then
          { y with box := q.1, way := q.2, since := now } else y) }
    | none => r

/-- The i-th token in the switch boxes of a tile moves on by a box, or into its target (R198). DESIGN CHOICE, log entry 34. -/
def arriveAct (s : State) (t i : Nat) : Act :=
  let T := s.tile t
  match T.round with
  | none => idle s
  | some r =>
    match r.transit[i]? with
    | none => idle s
    | some x =>
      let c := T.ctx r.ctx
      when (T.live && r.moves c s.now x && served T r c s.now x) s
        (.go (s.setTile t { T with robin := T.robin.put (x.outKey c.block) ((x.way + 1) % 8), round := some (r.moved c T.page s.now i x) }) [])

/-- Is the i-th token of a seam port the first from its source to its position? -/
def firstOfSeam (l : List SeamTok) (i : Nat) (x : SeamTok) : Bool :=
  !((l.take i).any (fun y => y.src = x.src && y.ctx = x.ctx && y.index = x.index && y.pos = x.pos))

/-- The i-th token of a tile's seam port leaves for its target, once its context runs and the latch is free; it is kept for a void
(R202). -/
def seamAct (s : State) (t i : Nat) : Act :=
  let T := s.tile t
  match T.round with
  | none => idle s
  | some r =>
    match T.seam[i]? with
    | none => idle s
    | some x =>
      let c := T.ctx r.ctx
      when (T.live && x.ctx = r.ctx && firstOfSeam T.seam i x && posFree r c x.index x.pos && r.canInject x.tok.kind 260) s
        (let y : Transit := { src := 260 + x.src, out := 0, index := x.index, pos := x.pos, page := none, tok := x.tok, box := seamElement,
                              way := 7, born := s.now, since := s.now }
         .go (s.setTile t { T with seam := T.seam.eraseIdx i,
                                   round := some { r with seamTaken := r.seamTaken ++ [x], transit := r.transit ++ [y] } }) [])

/-! ### The turn taken -/

/-- What a turn comes to: an instruction run at a state with its place in focus, or an effect of its own. -/
inductive Taken
  | run (s : State) (i : Instr)
  | act (s : State) (a : Act)

/-- The state at which it begins. -/
def Taken.state : Taken → State | .run s _ => s | .act s _ => s

/-- Is a step one that the agenda names by itself: it has no word, and is not made by a fetch? -/
def isEvent (i : Instr) : Bool :=
  match i with
  | .illegalInstruction _ => false
  | _ => encode i = .step

/-- A sequencer's turn. -/
def seqTurn (s : State) (t : Nat) : Taken :=
  if t ≥ tileCount then .act s (.stop .noSuchUnit)
  else if (s.tile t).live && (s.tile t).seq.phase = .running then .run { s with focus := { s.focus with tile := t } } (fetchInstr s t)
  else .act s (idle s)

/-- A slot's turn. -/
def slotTurn (s : State) (t ctx slot : Nat) : Taken :=
  if t ≥ tileCount || ctx ≥ 8 || slot ≥ 128 then .act s (.stop .noSuchUnit)
  else match decodeSlot (((s.tile t).ctx ctx).block.word slot) with
    | .ok i => .run { s with focus := { s.focus with tile := t, ctx := ctx, slot := slot } } i
    | .error _ => .act s (idle s)

/-- The turn of a launch's configuration stream: its next command. -/
def configTurn (s : State) (l : Nat) : Taken :=
  match (s.launch l).map (fun L => L.cfg.words) with
  | some (w :: _) =>
    (match decodeCfg w with
     | .ok i => .run { s with focus := { s.focus with launch := l } } i
     | .error _ => .act s (rejectWord l s))
  | _ => .act s (idle s)

/-- A turn. After a shutdown only a reset acts (R409). DEDUCED, log entry 76. -/
def takeTurn (s : State) (u : Turn) : Taken :=
  if s.pkg.shutDown && u != .event .packageReset then .act s (idle s)
  else match u with
    | .seq t => seqTurn s t
    | .slot t c n => slotTurn s t c n
    | .arrive t i => .act s (if t < tileCount then arriveAct s t i else .stop .noSuchUnit)
    | .seam t i => .act s (if t < tileCount then seamAct s t i else .stop .noSuchUnit)
    | .config l => configTurn s l
    | .event i => if isEvent i then .run s i else .act s (idle s)

/-! ### Placing an instruction where the next step fetches it -/

/-- A sequencer word at the pc of the tile in focus, whose sequencer runs. -/
def placeSeq (s : State) (w : Nat) : State :=
  let t := s.focus.tile
  let T := s.tile t
  { (s.setTile t { T with gated := false, dead := false, seq := { T.seq with phase := .running } }) with
    agenda := [], marks := [], mem := s.mem.writes (putBytes (privKey t T.seq.pcNat) (leBytes 4 w)), pkg := { s.pkg with shutDown := false } }

/-- A slot word in the slot in focus, with a round of its context in hand, and that slot's turn next. -/
def placeSlot (s : State) (w : Nat) : State :=
  let t := s.focus.tile
  let c := s.focus.ctx
  let T := { s.tile t with gated := false, dead := false }
  let T1 := T.modCtx c (fun C => { C with block := { C.block with slots := C.block.slots.put s.focus.slot (BitVec.ofNat 64 w) } })
  let s1 := s.setTile t T1
  { (s1.setTile t { T1 with round := some (newRound s1 t c) }) with
    agenda := [(0, .slot t c s.focus.slot)], marks := [], pkg := { s.pkg with shutDown := false } }

end Sys2Proof.Machine
end

