-- ==== Sys2Proof/Machine/Traffic.lean ====
section
/-! DEFINITION. The ways of the packets that a turn sends between clusters, whose routers they wake and keep awake (R400). Packets of the launch
unit, the host and the edge ports, which the manual places at no cluster, are not counted (log entry 17). -/

namespace Sys2Proof.Machine

/-- The way of an access of an engine to a space. -/
def spaceWay (s : State) (k tile space : Nat) (a : Word) (wr : Bool) : List (Nat × Nat) :=
  if space != 0 then []
  else if bit a 63 then streamWay s k (s.cluster k).launchNo (streamHandle a)
  else match engineLv s k tile a 1 wr with
    | .ok (ps, _) => ps.flatMap (fun p => keyWay s k p.key)
    | .error _ => []

/-- The way of a granule of a command's source that is read. -/
def sourceWay (s : State) (k tile ss : Nat) (src : Word) (g : Nat) : List (Nat × Nat) :=
  spaceWay s k tile ss (copyAddr ss src (granOff src.toNat g)) false

/-- The command of a chain that an engine's turn carries on: the one at a place among the started ones, else the head of the chain. -/
def pickedCmd (s : State) (eng k tile pick : Nat) : Cmd :=
  let c := (s.cluster k).chain eng tile
  (c.started[pick]?).getD (cmdOf s k eng tile c)

/-- The bytes of a picked command's descriptor. -/
def pickedDesc (s : State) (k tile pick : Nat) : List Byte := descriptor s k (pickedCmd s 1 k tile pick)

/-- The ways of a part of a cp.bulk. -/
def bulkWays (s : State) (k tile pick : Nat) (part : CopyPart) : List (Nat × Nat) :=
  let b := parseBulk (pickedDesc s k tile pick)
  match part with
  | .read g => sourceWay s k tile b.ss b.src g
  | .write g _ => spaceWay s k tile b.ds (copyAddr b.ds b.dst (granOff b.dst.toNat g)) true

/-- The ways of a part of a cp.mcast. -/
def mcastWays (s : State) (k tile pick : Nat) (part : CopyPart) : List (Nat × Nat) :=
  let m := parseMcast (pickedDesc s k tile pick)
  match part, engineLaunch s k with
  | .read g, _ => sourceWay s k tile m.ss m.src g
  | .write _ i, some (_, L) => ((receivers L m.mask)[i]?).toList.map (fun r => (k, r))
  | .write _ _, none => []

/-- The way of the next access of a stream port: as it reads, or as it writes or publishes. -/
def portWays (s : State) (t p : Nat) (write : Bool) : List (Nat × Nat) :=
  let T := s.tile t
  let P := T.port p
  match P.prog with
  | none => []
  | some g =>
    let a := if write then (match P.committed with | w :: _ => w.addr | [] => g.base) else g.addr P.issued
    if g.spad then []
    else if g.isStream then streamWay s (clusterOf t) T.launchNo (streamHandle a)
    else match portPiece s t P g (match write, P.committed with | true, w :: _ => w.xlat | _, _ => P.windowed g a) a with
      | .ok (q, _) => keyWay s (clusterOf t) q.key
      | .error _ => []

/-- The ways between the root of a launch's consist and a position of it. -/
def rootWay (s : State) (l p : Nat) : List (Nat × Nat) :=
  match s.launch l with
  | some L => ((L.consist[p]?).bind (fun k => (L.consist[0]?).map (fun r => (k, r)))).toList
  | none => []

/-- The ways of the packets of an instruction or event; t is the tile in focus. -/
def instrWays (s : State) (t : Nat) (i : Instr) : List (Nat × Nat) :=
  let stream (a : Word) : List (Nat × Nat) := streamWay s (clusterOf t) (s.tile t).launchNo (streamHandle a)
  match i with
  | .spHwm a _ | .spResv a _ | .spPub a _ | .spRel a _ | .spRdm a _ => stream (s.x a)
  | .spRew a _ => (match ((s.tile t).port (s.x a).toNat).prog with | some g => stream g.base | none => [])
  | .spQbind _ b => stream (s.x b)
  | .memoryNodeResponse t i _ =>
    (match (s.tile t).round.bind (fun r => r.loads[i]?) with
     | some l => accessWay s (clusterOf t) (s.tile t).launchNo l.addr l.pieces
     | none => [])
  | .loadValueReturn t i =>
    (match (s.tile t).seq.loads[i]? with
     | some l => accessWay s (clusterOf t) (s.tile t).launchNo l.addr l.pieces
     | none => [])
  | .storeBufferDrain t => ((s.tile t).drain.take 1).flatMap (fun h => accessWay s (clusterOf t) (s.tile t).launchNo h.addr h.pieces)
  | .storeQueueDrain t e => (((s.tile t).seq.queue[e]?).toList).flatMap (fun x => keyWay s (clusterOf t) x.piece.key)
  | .portReadResponse t p _ => portWays s t p false
  | .portWritePerform t p => portWays s t p true
  | .cpBulk k ⟨tile, pick, part⟩ => bulkWays s k tile pick part
  | .cpMcast k ⟨tile, pick, part⟩ => mcastWays s k tile pick part
  | .cpGrp k ⟨tile, pick, g⟩ => let d := pickedDesc s k tile pick; sourceWay s k tile (leAt d 18 1) (BitVec.ofNat 64 (leAt d 0 8)) g
  | .cpEnq k ⟨tile, pick, g⟩ => let d := pickedDesc s k tile pick; sourceWay s k tile (leAt d 16 1) (BitVec.ofNat 64 (leAt d 0 8)) g
  | .taskLaunch k tile =>
    let x := pickedCmd s 3 k tile (firstBegun s 3 k tile 5 false)
    spaceWay s k tile 0 x.a false
  | .taskEvset k _ => (match s.launch (s.cluster k).launchNo with | some L => L.consist.map (fun c => (k, c)) | none => [])
  | .reductionStart l tag =>
    (match s.launch l with
     | some L => (match L.consist with | r :: _ => (partiesOf L tag).map (fun q => (q.cluster, r)) | [] => [])
     | none => [])
  | .merge l p | .claim l p => rootWay s l p
  | _ => []

/-- The ways of the packets of a turn. -/
def turnWays (s : State) (u : Turn) : List (Nat × Nat) :=
  match takeTurn s u with
  | .run s1 i => instrWays s1 s1.focus.tile i
  | .act _ _ => []

/-- The routers on some ways are awake, and idle no longer (R400). -/
def wakeWays (s : State) (ways : List (Nat × Nat)) : State := ((ways.eraseDups.flatMap (wayRouters s)).eraseDups).foldl wakeRouter s

end Sys2Proof.Machine
end

