-- ==== Sys2Proof/Machine/Order.lean ====
section
/-! DEFINITION. Which turn comes next: the agenda, and among the turns that it gives one cycle the orders that the manual sets (R107, R170 to
R172, R178, R252, R257, R270, R271, R284, R285, R298, R316, R339, R344, R366, R384, R396, R400, R401). -/

namespace Sys2Proof.Machine

/-- A turn at a state. -/
def turnAt (s : State) (u : Turn) : Host.Outcome State Fault Refusal :=
  match takeTurn s u with
  | .run s1 i => exec i s1
  | .act s1 a => perform s1 a

/-! ### Places in the orders of a cycle -/

/-- A place in an order: what it concerns, and the rank there; a lower rank comes first. -/
abbrev Place := Nat × Nat

/-- What an order concerns: its kind, and up to two numbers. -/
def concern (kind a b : Nat) : Nat := (kind * 2 ^ 20 + a) * 2 ^ 20 + b
/-- Events, timelines and tasks of a cluster (R170, R172, R257): what is judged on them, takes by tile, clears, advances, sets and completion writes,
tlset. -/
def ofEvents (k : Nat) : Nat := concern 0 k 0
/-- Barriers of a tile (R169, R366): waits, initialisations, arrivals. -/
def ofBars (t : Nat) : Nat := concern 1 t 0
/-- The tag table of a cluster (R178): lookups, then writes by tile. -/
def ofTags (k : Nat) : Nat := concern 2 k 0
/-- Faults and the control of launches on a die (R270, R271, R284, R285): hardware errors, records, escalations, commits and ends, answers, resumes,
pre-emptions, kills. -/
def ofFaults (d : Nat) : Nat := concern 3 d 0
/-- Marks of the streams of a launch (R298): accesses judged, releases, reservations, publishes. -/
def ofMarks (l : Nat) : Nat := concern 4 l 0
/-- Claims of the banks of a cluster (R316), by node. -/
def ofClaims (k : Nat) : Nat := concern 5 k 0
/-- Bound settings of a cluster (R339): acceptances, then writes. -/
def ofSettings (k : Nat) : Nat := concern 6 k 0
/-- The stochastic state of an element of a tile (R107), by sub-slot. -/
def ofElement (t e : Nat) : Nat := concern 7 t e
/-- The root of a session (R378, R384): merges by position, then claims by position. -/
def ofSession (l : Nat) : Nat := concern 8 l 0
/-- Queue indexes (R366): enqueues, then binds and unbinds. -/
def ofQueues : Nat := concern 9 0 0
/-- Receive entries of a die (R360, R366): writes, then arrivals. -/
def ofReceive (d : Nat) : Nat := concern 10 d 0
/-- Ingress entries (R396, R401): messages by port, then writes. -/
def ofIngress : Nat := concern 11 0 0
/-- A link (R401): its death, then what it carries. -/
def ofLink (d l : Nat) : Nat := concern 12 d l
/-- A port's keys (R391): installations, then exhaustion. -/
def ofKeys (p : Nat) : Nat := concern 13 p 0
/-- Requests that are timed (R401): replies, then expiries. -/
def ofTimers : Nat := concern 14 0 0
/-- The readout bounds of a cluster (R344): readouts, then the nodes that store them. -/
def ofReadouts (k : Nat) : Nat := concern 16 k 0
/-- A cluster's router (R400): wakes, then power-downs. -/
def ofRouter (k : Nat) : Nat := concern 15 k 0

/-- Rank of an escalation among the faults of a die. -/
def rankEscalation : Nat := 2 ^ 30
/-- Rank of commits, ends and completions, which come before answers, resumes, pre-emptions and kills, in that order. -/
def rankCommit : Nat := 2 ^ 31

/-- The dies that may write records of a launch: those of its clusters, and those at whose links a static route of it may be lost (R398). -/
def recordDies (s : State) (L : Launch) : List Nat :=
  (L.consist.map dieOfCluster ++ (List.range dieCount).filter (fun d => (List.range 4).any (usesLink s L d))).eraseDups

/-- The places of an operation on the launch that a control word names: after its records (R285, R401). -/
def controlPlaces (s : State) (word : Word) (rank : Nat) : List Place :=
  match s.launch (ctxIndex (ctlCtxid word)) with
  | some L => (recordDies s L).map (fun d => (ofFaults d, rank))
  | none => []

/-- The places of an instruction by what it is; t is the tile in focus. -/
def instrPlaces (s : State) (t : Nat) (i : Instr) : List Place :=
  let k := clusterOf t
  match i with
  | .evWait _ | .tlRd _ _ | .tlWait _ _ => [(ofEvents k, 0)]
  | .evTake _ => [(ofEvents k, 1 + t % 4)]
  | .evClr _ => [(ofEvents k, 5)]
  | .tlAdv _ _ => [(ofEvents k, 6)]
  | .barWait _ _ | .barRd _ _ => [(ofBars t, 0)]
  | .barInit _ _ | .barInitb _ _ => [(ofBars t, 1)]
  | .tlook _ _ => [(ofTags k, 0)]
  | .tset _ _ | .tclr _ => [(ofTags k, 1 + t % 4)]
  | .spQbind _ _ => [(ofQueues, 1)]
  | .seqEnd => [(ofFaults (dieOf t), rankCommit)]
  | .evSet _ => [(ofEvents k, 7)]
  | .taskDispatch k _ => [(ofEvents k, 0)]
  | .taskEvset k _ => (match s.launch (s.cluster k).launchNo with | some L => L.consist.map (fun c => (ofEvents c, 7)) | none => [])
  | .taskCompletion k _ => [(ofFaults (dieOfCluster k), rankCommit)]
  | .taskTlset k _ => [(ofEvents k, 8)]
  | .roundCommit t => [(ofFaults (dieOf t), rankCommit)]
  | .priAnswer d _ _ _ => [(ofFaults d, rankCommit + 1)]
  | .resume _ w => controlPlaces s w (rankCommit + 2)
  | .preempt _ w => controlPlaces s w (rankCommit + 3)
  | .kill _ w => controlPlaces s w (rankCommit + 4)
  | .portWritePerform t p => if publishDue s t p then [] else [(ofMarks (s.tile t).launchNo, 0)]
  | .portReadResponse t _ _ | .storeBufferDrain t | .streamReadUnblock t _
  | .streamWriteUnblock t _ => [(ofMarks (s.tile t).launchNo, 0)]
  | .memoryNodeResponse t _ _ => [(ofMarks (s.tile t).launchNo, 0), (ofTimers, 0)]
  | .cpBulk k _ | .cpMcast k _ | .cpGrp k _ | .cpEnq k _ => [(ofMarks (s.cluster k).launchNo, 0), (ofTimers, 0)]
  | .grpAck _ _ _ _ => [(ofTimers, 0)]
  | .kstepAccept k => [(ofSettings k, 0)]
  | .fabBst f => if f.imm.toNat / 2 ^ 22 % 4 = 1 then [(ofReadouts k, 1)] else []
  | .merge l p => [(ofSession l, p)]
  | .claim l p => [(ofSession l, 2 ^ 8 + p)]
  | .enqRequest _ => [(ofQueues, 0)]
  | .grpMessage _ => (List.range dieCount).map (fun d => (ofReceive d, 1))
  | .ingressMessage _ p _ | .ingressRetry _ p => [(ofIngress, p)]
  | .linkDead d l => [(ofLink d l, 0)]
  | .flit d l _ _ _ => [(ofLink d l, 1)]
  | .seckey p _ _ => [(ofKeys p, 0)]
  | .keyExhaustion p _ => [(ofKeys p, 1)]
  | .amoReply _ _ _ | .loadValueReturn _ _ | .remoteRequest _ => [(ofTimers, 0)]
  | .requestTimeout _ | .retransmission _ _ => [(ofTimers, 1)]
  | .routerWake k => [(ofRouter k, 0)]
  | .routerPowerDown k => [(ofRouter k, 1)]
  | .registerWrite d w =>
    (match w with
     | .receive _ _ => [(ofReceive d, 0)]
     | .ingress _ _ => [(ofIngress, 2 ^ 8)]
     | .seckeyByte p _ _ _ => [(ofKeys (p % 16), 0)]
     | _ => [])
  | _ => []

/-- Rank of a record among the faults of its die: a hardware error first, then by tile, amber before slate, by slot, then by port (R270, R284,
R285). The trap of a pass comes after the other faults of its tile, since a fault beside a pass is taken and the pass counts nothing (R339). -/
def Rec.rank (r : Rec) : Nat :=
  if r.cause = 0x40 then 0
  else if r.cause = 0x27 then 1 + (r.cluster * 4 + r.tile) * 2 ^ 10 + 768 + r.slot % 128
  else 1 + (r.cluster * 4 + r.tile) * 2 ^ 10 + (!r.amber).toNat * 2 ^ 9 + (if r.source = 2 then 128 + r.port else r.slot)

/-- Records that a die holds. -/
def Die.recs (D : Die) : List Rec := D.slots ++ D.waiting

/-- The places that a turn has by what it changes on a die: records, queue indexes that the end of a launch unbinds. -/
def diePlaces (s : State) (d : Nat) (D : Die) : List Place :=
  (D.recs.filter (fun r => !(s.die d).recs.contains r)).map (fun r => (ofFaults d, r.rank)) ++
  (if D.queues = (s.die d).queues then [] else [(ofQueues, 1)])

/-- By what it changes in a cluster: events and timelines (a task that completes sets its mask, though the bits be 1 already), an escalation,
a claim, a setting. -/
def clusterPlaces (s : State) (k : Nat) (K : Cluster) : List Place :=
  let O := s.cluster k
  (if K.events = O.events && K.tl = O.tl && !(K.tasks.any (fun p => (O.task p.1).running && !p.2.running)) then []
   else [(ofEvents k, 7)]) ++
  (if K.mx.escalations = O.mx.escalations then [] else [(ofFaults (dieOfCluster k), rankEscalation)]) ++
  (if K.mx.queue.length ≤ O.mx.queue.length then [] else
    (K.mx.queue.drop O.mx.queue.length).map (fun q => (ofClaims k, q.node.key))) ++
  (if (List.range 4).all (fun b => (K.mx.bank b).set = (O.mx.bank b).set) then [] else [(ofSettings k, 1)]) ++
  (if (List.range 4).all (fun b => (K.mx.bank b).set.obnd = (O.mx.bank b).set.obnd) then [] else [(ofReadouts k, 0)])

/-- The rank of a trap that a sequencer takes into its handler: that of a record of the same cause (R270, R285). -/
def trapRank (t : Nat) (T : Tile) : Nat :=
  1 + t % 160 * 2 ^ 10 + (!causeAmber (T.seq.tcause.toNat % 2 ^ 16)).toNat * 2 ^ 9

/-- By what it changes on a tile: barriers, dropped arrivals among them; a trap taken into a handler. -/
def tilePlaces (s : State) (t : Nat) (T : Tile) : List Place :=
  let O := s.tile t
  (if T.bars = O.bars && T.barDrops = O.barDrops then [] else [(ofBars t, 2)]) ++
  (if T.seq.mode && !O.seq.mode then [(ofFaults (dieOf t), trapRank t T)] else [])

/-- By what it changes of the streams of a launch: releases and readers, reservations, HWM. -/
def launchPlaces (s : State) (l : Nat) (L : Launch) : List Place :=
  match s.launch l with
  | none => []
  | some O =>
    let some_ (p : Stream → Stream → Bool) : Bool := L.streams.any (fun x => (O.streams.find x.1).any (fun y => p x.2 y))
    let marks (st : Stream) : List (Nat × Bool × Nat) := st.readers.map (fun r => (r.1, r.2.live, r.2.release))
    (if some_ (fun a b => marks a != marks b) then [(ofMarks l, 1)] else []) ++
    (if some_ (fun a b => a.rsv != b.rsv) then [(ofMarks l, 2)] else []) ++
    (if some_ (fun a b => a.hwm != b.hwm) then [(ofMarks l, 3)] else [])

/-- The places that a turn has by what it changes. -/
def changePlaces (s s1 : State) : List Place :=
  s1.dies.flatMap (fun p => diePlaces s p.1 p.2) ++ s1.clusters.flatMap (fun p => clusterPlaces s p.1 p.2) ++
    s1.tiles.flatMap (fun p => tilePlaces s p.1 p.2) ++ s1.launches.flatMap (fun p => launchPlaces s p.1 p.2)

/-- The places that a turn has by what it is. -/
def ownPlaces (s : State) (u : Turn) : List Place :=
  (match u with | .slot t _ n => [(ofElement t (n % 64), n / 64)] | _ => []) ++
  match takeTurn s u with
  | .run s1 i => instrPlaces s s1.focus.tile i
  | .act _ _ => []

/-- The places of a turn at a state: none where it does nothing; by what it is before by what it changes. -/
def turnPlaces (s : State) (u : Turn) : List Place :=
  match turnAt s u with
  | .next s1 =>
    if s1 = (takeTurn s u).state then []
    else
      let own := ownPlaces s u
      own ++ (changePlaces s s1).filter (fun p => !(own.any (fun q => q.1 = p.1)))
  | _ => []

/-! ### The turn that comes next -/

/-- Does a turn with some places come before one with others? -/
def comesBefore (p q : List Place) : Bool := p.any (fun x => q.any (fun y => x.1 = y.1 && decide (x.2 < y.2)))

/-- Which of some turns comes first: the first that none of the others comes before; the first of all where every one has such another. -/
def firstOf (ps : List (List Place)) : Nat :=
  ((List.range ps.length).find? (fun i => ps.zipIdx.all (fun q => q.2 = i || !comesBefore q.1 (ps.getD i [])))).getD 0

/-- Is a turn too late for the cycle in hand: one that it comes before has been taken in it? -/
def tooLate (marks : Tbl Nat) (ps : List Place) : Bool := ps.any (fun p => decide (p.2 < marks.get 0 p.1))

/-- The highest ranks taken in the cycle, with those of a turn. -/
def joinMarks (marks : Tbl Nat) (ps : List Place) : Tbl Nat := ps.foldl (fun m p => m.put p.1 (max p.2 (m.get 0 p.1))) marks

/-- Of the turns that the agenda gives one cycle (u, then us at the head of rest) the one that the manual's orders put first; a turn that is
too late for the cycle comes in the next one. -/
def pickTurn (s : State) (u : Turn) (us : List Turn) (rest : List (Nat × Turn)) : State × Turn :=
  let ps := (u :: us).map (turnPlaces s)
  let i := firstOf ps
  let p := ps.getD i []
  let s1 := { s with agenda := if i = 0 then rest else (0, u) :: rest.eraseIdx (i - 1) }
  let s2 := if tooLate s1.marks p then pass s1 1 else s1
  ({ s2 with marks := joinMarks s2.marks p }, (u :: us).getD i u)

/-- The next turn and the state at it: the head of the agenda after the cycles before it, or another turn of the same cycle that the manual
puts before it; with an empty agenda, one cycle passes and the sequencer in focus has its turn. -/
def chosenTurn (s : State) : State × Turn :=
  match s.agenda with
  | [] => (pass s 1, .seq s.focus.tile)
  | (n, u) :: rest =>
    let s1 := pass { s with agenda := rest } n
    let us := (rest.takeWhile (fun x => x.1 = 0)).map (·.2)
    if us.isEmpty && s1.marks.isEmpty then (s1, u) else pickTurn s1 u us rest

/-- The packets of a turn that does something wake the routers on their ways, before it is taken (R400). -/
def routed (s : State) (u : Turn) : State :=
  let ways := turnWays s u
  if ways.isEmpty then s
  else match turnAt s u with
    | .next s1 => if s1 = (takeTurn s u).state then s else wakeWays s ways
    | _ => s

/-- The turn that comes next, at the state at which it is taken. -/
def nextTurn (s : State) : State × Turn := (routed (chosenTurn s).1 (chosenTurn s).2, (chosenTurn s).2)

end Sys2Proof.Machine
end

