-- ==== Sys2Proof/Machine/Step.lean ====
section
/-! DEFINITION. One step of the package: the next turn, after the cycles that pass before it (R4, R31; log entry 1). -/

namespace Sys2Proof.Machine

/-- One step. -/
def step (s : State) : Host.Outcome State Fault Refusal := turnAt (nextTurn s).1 (nextTurn s).2

/-- s with an instruction stored where step fetches its next one: up to 32 bits a sequencer word, more a slot word. -/
def State.withFetchWord (s : State) (nbits w : Nat) : State :=
  if nbits > 32 then placeSlot s (w % 2 ^ nbits) else placeSeq s (w % 2 ^ nbits)

end Sys2Proof.Machine
end

