-- ==== Sys2Proof/WellFormed.lean ====
section
/-! DEFINITION. Which instructions are well formed: the words that R143, R144, R163, R165, R179 and R194 admit, and steps that name
units which exist (R10, R49, R305). -/

namespace Sys2Proof

open Sys2Proof.Machine

/-- The operations that amo and amos carry (R163): ld and st have rows of their own. -/
def amoOpOk (op : BitVec 4) : Bool := op.toNat < 10
/-- Orders of a fence (R165). -/
def fenceOk (ord : BitVec 2) : Bool := ord != 0
/-- A system register that mfs may name (R138). -/
def readableReg (sys : BitVec 12) : Bool := sysAssigned sys.toNat
/-- A system register that mts may name (R138). -/
def writableReg (sys : BitVec 12) : Bool := sysAssigned sys.toNat && !sysReadOnly sys.toNat
/-- The cluster engines 1 to 4 (R178). -/
def engineOk (eng : BitVec 3) : Bool := 1 ≤ eng.toNat && eng.toNat ≤ 4
/-- A word that is no instruction (R144). -/
def notInstruction (w : BitVec 32) : Bool := match decodeSeq w with | .ok _ => false | .error _ => true
/-- A slot word that no check of R194 rejects by itself. -/
def slotOk (op : Nat) (f : FabWord) : Bool := (slotError op f).isNone
/-- Dies 0 to 23. -/
def dieOk (d : Nat) : Bool := d < 24
/-- Clusters, die × 40 + cluster. -/
def clusterOk (k : Nat) : Bool := k < 960
/-- Tiles, die × 160 + cluster × 4 + tile. -/
def tileOk (t : Nat) : Bool := t < 3840
/-- A chain of a cluster: its tile is 0 to 3. -/
def chainOk (k j : Nat) : Bool := clusterOk k && j < 4
/-- Contexts 0 to 7. -/
def ctxOk (c : Nat) : Bool := c < 8
/-- Context indexes (R49). -/
def launchOk (l : Nat) : Bool := l < 2 ^ 14
/-- Consist positions (R24). -/
def positionOk (p : Nat) : Bool := p < 16
/-- Task table entries (R248). -/
def taskOk (i : Nat) : Bool := i < 512
/-- Stream ports 0 to 3. -/
def streamPortOk (p : Nat) : Bool := p < 4
/-- Die-to-die interfaces of a die (R10). -/
def linkOk (l : Nat) : Bool := l < 4
/-- Links that train: 4 die-to-die, 16 UALink. -/
def trainOk (l : Nat) : Bool := l < 20
/-- UALink and Ultra Ethernet ports. -/
def extPortOk (p : Nat) : Bool := p < 20
/-- UALink ports (R390). -/
def ualinkOk (p : Nat) : Bool := p < 16
/-- Ultra Ethernet ports (R393). -/
def etherOk (p : Nat) : Bool := p < 4
/-- Tags of a fabric reduction (R373). -/
def tagOk (t : Nat) : Bool := t < 64
/-- Array codes of a record (R405). -/
def arrayOk (a : Nat) : Bool := 1 ≤ a && a ≤ 9
/-- Arrays that a scrubber reads: those and the TLBs. -/
def scrubOk (a : Nat) : Bool := a ≤ 9
/-- Apertures (R305). -/
def apertureOk (j : Nat) : Bool := j < 256
/-- Stream handles (R287). -/
def handleOk (h : Nat) : Bool := h < 2 ^ 15
/-- A remote atomic that arrives from outside names a die and an operation (R364). -/
def amoSourceOk (r : AmoSource) : Bool := match r with | .inside _ => true | .outside die _ _ _ _ op _ _ _ _ => dieOk die && op < 12
/-- An enqueue that arrives from outside names a die. -/
def enqSourceOk (r : EnqSource) : Bool := match r with | .inside _ => true | .outside die _ _ _ _ _ _ => dieOk die
/-- A timed request names units that exist (R399). -/
def timedOk (w : Timed) : Bool :=
  match w with
  | .copy k j _ _ | .reduction k j _ => chainOk k j
  | .store _ => true
  | .load t _ | .seqLoad t _ => tileOk t
  | .port t p => tileOk t && streamPortOk p
/-- A UPLI request of another package names a die, an endpoint, an address of 38 bits and at most 256 bytes (R390). -/
def remoteSourceOk (r : RemoteSource) : Bool :=
  match r with
  | .inside _ => true
  | .read die e a n => dieOk die && e < 1024 && a < 2 ^ 38 && n ≤ 256
  | .write die e a bs => dieOk die && e < 1024 && a < 2 ^ 38 && bs.length ≤ 256
  | .atomic die e a op _ _ _ => dieOk die && e < 1024 && a < 2 ^ 38 && op < 12
  | .away e a bs => e < 1024 && a < 2 ^ 38 && bs.length ≤ 256

/-- Well-formed instructions: every operand has a value that its encoding admits, and every unit named exists. -/
def wellFormed (i : Instr) : Bool :=
  match i with
  | .add _ _ _ => true
  | .sub _ _ _ => true
  | .and _ _ _ => true
  | .or _ _ _ => true
  | .xor _ _ _ => true
  | .sll _ _ _ => true
  | .srl _ _ _ => true
  | .sra _ _ _ => true
  | .slt _ _ _ => true
  | .sltu _ _ _ => true
  | .min _ _ _ => true
  | .max _ _ _ => true
  | .minu _ _ _ => true
  | .maxu _ _ _ => true
  | .xadd2 _ _ _ => true
  | .xadd4 _ _ _ => true
  | .xadd8 _ _ _ => true
  | .sadd _ _ _ => true
  | .mul _ _ _ => true
  | .mulh _ _ _ => true
  | .mulhu _ _ _ => true
  | .div _ _ _ => true
  | .divu _ _ _ => true
  | .rem _ _ _ => true
  | .remu _ _ _ => true
  | .clz _ _ => true
  | .ctz _ _ => true
  | .popc _ _ => true
  | .nop => true
  | .ret => true
  | .mflk _ => true
  | .mtlk _ => true
  | .addi _ _ _ => true
  | .addi16 _ _ _ => true
  | .addi32 _ _ _ => true
  | .addi48 _ _ _ => true
  | .andi _ _ _ => true
  | .ori _ _ _ => true
  | .xori _ _ _ => true
  | .slti _ _ _ => true
  | .sltiu _ _ _ => true
  | .slli _ _ _ => true
  | .srli _ _ _ => true
  | .srai _ _ _ => true
  | .saddi _ _ _ => true
  | .beq _ _ _ => true
  | .bne _ _ _ => true
  | .blt _ _ _ => true
  | .bge _ _ _ => true
  | .bltu _ _ _ => true
  | .bgeu _ _ _ => true
  | .j _ => true
  | .jal _ => true
  | .jr _ _ => true
  | .jalr _ _ => true
  | .mfs _ sys => readableReg sys
  | .mts _ sys => writableReg sys
  | .ldI8 _ _ _ => true
  | .ldI16 _ _ _ => true
  | .ldI32 _ _ _ => true
  | .ld64 _ _ _ => true
  | .ldN8 _ _ _ => true
  | .ldN16 _ _ _ => true
  | .ldN32 _ _ _ => true
  | .st8 _ _ _ => true
  | .st16 _ _ _ => true
  | .st32 _ _ _ => true
  | .st64 _ _ _ => true
  | .lds _ _ _ kind => loadKindOk kind
  | .sts _ _ _ kind => storeKindOk kind
  | .ldp _ _ _ kind => loadKindOk kind
  | .stp _ _ _ kind => storeKindOk kind
  | .amo _ _ _ scope ord _ op => amoOpOk op && amoOrderOk ord scope
  | .amos _ _ _ scope ord _ op => amoOpOk op && amoOrderOk ord scope
  | .amoLd _ _ scope _ _ => scopeOk scope
  | .amoSt _ _ scope _ _ => scopeOk scope
  | .fence scope ord => fenceOk ord && scopeOk scope
  | .ctxSel _ => true
  | .run _ => true
  | .drain => true
  | .cfgs _ _ => true
  | .barInit _ _ => true
  | .barInitb _ _ => true
  | .barArr _ _ => true
  | .barWait _ _ => true
  | .barRd _ _ => true
  | .evSet _ => true
  | .evClr _ => true
  | .evWait _ => true
  | .evTake _ => true
  | .tlRd _ _ => true
  | .tlAdv _ _ => true
  | .tlWait _ _ => true
  | .evq _ _ => true
  | .evqW _ _ => true
  | .tlook _ _ => true
  | .tset _ _ => true
  | .tclr _ => true
  | .issue eng _ _ _ flags => engineOk eng && issueFlagsOk flags
  | .spCfg _ _ => true
  | .spHwm _ _ => true
  | .spResv _ _ => true
  | .spPub _ _ => true
  | .spRel _ _ => true
  | .spRew _ _ => true
  | .spRdm _ _ => true
  | .spQbind _ _ => true
  | .trap _ => true
  | .eret => true
  | .seqEnd => true
  | .fabMov f => slotOk 0x1 f
  | .fabVmov f => slotOk 0x7 f
  | .fabConst f => slotOk 0x2 f
  | .fabGrd f => slotOk 0x3 f
  | .fabVrd f => slotOk 0x4 f
  | .fabSel f => slotOk 0x5 f
  | .fabVsel f => slotOk 0x6 f
  | .fabAdd f => slotOk 0x10 f
  | .fabSub f => slotOk 0x11 f
  | .fabAddi f => slotOk 0x12 f
  | .fabMul f => slotOk 0x13 f
  | .fabMulh f => slotOk 0x14 f
  | .fabDiv f => slotOk 0x15 f
  | .fabRem f => slotOk 0x16 f
  | .fabAnd f => slotOk 0x17 f
  | .fabOr f => slotOk 0x18 f
  | .fabXor f => slotOk 0x19 f
  | .fabShl f => slotOk 0x1A f
  | .fabShr f => slotOk 0x1B f
  | .fabMin f => slotOk 0x1C f
  | .fabMax f => slotOk 0x1D f
  | .fabAbs f => slotOk 0x1E f
  | .fabNeg f => slotOk 0x1F f
  | .fabClz f => slotOk 0x20 f
  | .fabCtz f => slotOk 0x21 f
  | .fabPopc f => slotOk 0x22 f
  | .fabAdds f => slotOk 0x23 f
  | .fabSubs f => slotOk 0x24 f
  | .fabSadd f => slotOk 0x25 f
  | .fabCeq f => slotOk 0x28 f
  | .fabCne f => slotOk 0x29 f
  | .fabClt f => slotOk 0x2A f
  | .fabCle f => slotOk 0x2B f
  | .fabPand f => slotOk 0x2C f
  | .fabPor f => slotOk 0x2D f
  | .fabPnot f => slotOk 0x2E f
  | .fabPxor f => slotOk 0x2F f
  | .fabFadd f => slotOk 0x30 f
  | .fabFsub f => slotOk 0x31 f
  | .fabFmul f => slotOk 0x32 f
  | .fabFma f => slotOk 0x33 f
  | .fabFnma f => slotOk 0x34 f
  | .fabFdiv f => slotOk 0x35 f
  | .fabFsqrt f => slotOk 0x36 f
  | .fabFrcp f => slotOk 0x37 f
  | .fabFmin f => slotOk 0x38 f
  | .fabFmax f => slotOk 0x39 f
  | .fabFabs f => slotOk 0x3A f
  | .fabFneg f => slotOk 0x3B f
  | .fabFexp2 f => slotOk 0x3C f
  | .fabFlog2 f => slotOk 0x3D f
  | .fabVadd f => slotOk 0x40 f
  | .fabVsub f => slotOk 0x41 f
  | .fabVmul f => slotOk 0x42 f
  | .fabVfma f => slotOk 0x43 f
  | .fabVmin f => slotOk 0x44 f
  | .fabVmax f => slotOk 0x45 f
  | .fabVabs f => slotOk 0x46 f
  | .fabVneg f => slotOk 0x47 f
  | .fabVhsum f => slotOk 0x48 f
  | .fabVhmax f => slotOk 0x49 f
  | .fabVbcast f => slotOk 0x4A f
  | .fabVext f => slotOk 0x4B f
  | .fabVins f => slotOk 0x4C f
  | .fabVceq f => slotOk 0x4D f
  | .fabVclt f => slotOk 0x4E f
  | .fabVand f => slotOk 0x4F f
  | .fabVor f => slotOk 0x50 f
  | .fabVxor f => slotOk 0x51 f
  | .fabVshl f => slotOk 0x52 f
  | .fabVshr f => slotOk 0x53 f
  | .fabVexp2 f => slotOk 0x54 f
  | .fabVrcp f => slotOk 0x55 f
  | .fabCvt f => slotOk 0x60 f
  | .fabVcvt f => slotOk 0x61 f
  | .fabScacc f => slotOk 0x62 f
  | .fabVscacc f => slotOk 0x63 f
  | .fabStop f => slotOk 0x68 f
  | .fabSlvl f => slotOk 0x69 f
  | .fabSgate f => slotOk 0x6A f
  | .fabScount f => slotOk 0x6B f
  | .fabOrdt f => slotOk 0x6C f
  | .fabLd f => slotOk 0x70 f
  | .fabSt f => slotOk 0x71 f
  | .fabVld f => slotOk 0x72 f
  | .fabVst f => slotOk 0x73 f
  | .fabLdx f => slotOk 0x74 f
  | .fabStx f => slotOk 0x75 f
  | .fabVldx f => slotOk 0x76 f
  | .fabVstx f => slotOk 0x77 f
  | .fabLds f => slotOk 0x78 f
  | .fabSts f => slotOk 0x79 f
  | .fabVlds f => slotOk 0x7A f
  | .fabVsts f => slotOk 0x7B f
  | .fabWsplit f => slotOk 0x7C f
  | .fabWjoin f => slotOk 0x7D f
  | .fabAmo f => slotOk 0x7E f
  | .fabAmos f => slotOk 0x7F f
  | .fabRpt f => slotOk 0x88 f
  | .fabMma f => slotOk 0x89 f
  | .fabAccrd f => slotOk 0x8A f
  | .fabBld f => slotOk 0x8B f
  | .fabBst f => slotOk 0x8C f
  | .fabExit f => slotOk 0x90 f
  | .fabNull f => slotOk 0x91 f
  | .fabBar f => slotOk 0x92 f
  | .memoryNodeResponse tile _ _ => tileOk tile
  | .roundStart tile ctx => tileOk tile && ctxOk ctx
  | .roundCommit tile => tileOk tile
  | .storeBufferDrain tile => tileOk tile
  | .portReadResponse tile port _ => tileOk tile && streamPortOk port
  | .portWritePerform tile port => tileOk tile && streamPortOk port
  | .hotnessFlush tile port => tileOk tile && streamPortOk port
  | .streamReadUnblock tile _ => tileOk tile
  | .streamWriteUnblock tile _ => tileOk tile
  | .spill launch handle => launchOk launch && handleOk handle
  | .streamDeadlock launch => launchOk launch
  | .apertureBind j _ => apertureOk j
  | .apertureHwm j _ => apertureOk j
  | .apertureRel j _ => apertureOk j
  | .apertureErr j => apertureOk j
  | .apertureDataRead j _ _ => apertureOk j
  | .apertureDataWrite j _ _ => apertureOk j
  | .cfgWrite _ _ _ _ => true
  | .cfgSelectContext _ _ => true
  | .cfgPageHeader _ _ _ => true
  | .cfgBlockHeader _ _ _ => true
  | .cfgChecksum _ => true
  | .configurationComplete _ => true
  | .seedInject launch => launchOk launch
  | .launchPacket die _ _ => dieOk die
  | .launchQueue => true
  | .place die => dieOk die
  | .retire launch => launchOk launch
  | .quiescent launch => launchOk launch
  | .moveCluster launch position target => launchOk launch && positionOk position && clusterOk target
  | .taskDispatch cluster index => clusterOk cluster && taskOk index
  | .taskCompletion cluster index => clusterOk cluster && taskOk index
  | .graphCond cluster index => clusterOk cluster && taskOk index
  | .graphWhile cluster index => clusterOk cluster && taskOk index
  | .graphJoin cluster index => clusterOk cluster && taskOk index
  | .taskDef cluster tile => chainOk cluster tile
  | .taskDis cluster tile => chainOk cluster tile
  | .taskEvset cluster tile => chainOk cluster tile
  | .taskTlset cluster tile => chainOk cluster tile
  | .taskLaunch cluster tile => chainOk cluster tile
  | .cpBulk cluster turn => chainOk cluster turn.tile
  | .cpMcast cluster turn => chainOk cluster turn.tile
  | .cpGrp cluster turn => chainOk cluster turn.tile
  | .cpAmo cluster turn => chainOk cluster turn.tile
  | .cpEnq cluster turn => chainOk cluster turn.tile
  | .grpMessage _ => true
  | .grpAck cluster tile _ _ => chainOk cluster tile
  | .grpNoResponse cluster tile _ => chainOk cluster tile
  | .amoRequest request => amoSourceOk request
  | .amoReply cluster tile _ => chainOk cluster tile
  | .retransmission cluster tile => chainOk cluster tile
  | .retryInterval cluster tile => chainOk cluster tile
  | .enqRequest request => enqSourceOk request
  | .redFab cluster tile => chainOk cluster tile
  | .reductionStart launch tag => launchOk launch && tagOk tag
  | .redEst cluster tile => chainOk cluster tile
  | .redRd cluster tile => chainOk cluster tile
  | .claim launch position => launchOk launch && positionOk position
  | .merge launch position => launchOk launch && positionOk position
  | .stopNotice launch position => launchOk launch && positionOk position
  | .level2Stop launch position => launchOk launch && positionOk position
  | .kstepAccept cluster => clusterOk cluster
  | .kstep cluster => clusterOk cluster
  | .mxMode cluster tile => chainOk cluster tile
  | .mxSlot cluster tile => chainOk cluster tile
  | .mxFree cluster tile => chainOk cluster tile
  | .mxRd cluster tile => chainOk cluster tile
  | .invalidate die _ _ _ _ => dieOk die
  | .invalidationComplete die => dieOk die
  | .priAnswer die _ _ _ => dieOk die
  | .atsInvalidation die _ _ _ => dieOk die
  | .remoteRequest request => remoteSourceOk request
  | .dupInvalidation _ _ => true
  | .dupAck _ _ => true
  | .preempt die _ => dieOk die
  | .readoutComplete launch => launchOk launch
  | .restore die _ => dieOk die
  | .resume die _ => dieOk die
  | .kill die _ => dieOk die
  | .recordCopy die => dieOk die
  | .flit die link _ _ _ => dieOk die && trainOk link
  | .linkDead die link => dieOk die && linkOk link
  | .laneLockLoss die link => dieOk die && linkOk link
  | .portDown port => extPortOk port
  | .keyExhaustion port _ => ualinkOk port
  | .seckey port _ _ => ualinkOk port
  | .ingressMessage die port _ => dieOk die && etherOk port
  | .ingressRetry die port => dieOk die && etherOk port
  | .requestTimeout who => timedOk who
  | .routerPowerDown cluster => clusterOk cluster
  | .routerWake cluster => clusterOk cluster
  | .bootgo => true
  | .imageVerified => true
  | .packageReset => true
  | .lifeCycleTransition _ => true
  | .getCertificate => true
  | .challenge _ => true
  | .getMeasurements _ => true
  | .scrub die array _ _ => dieOk die && scrubOk array
  | .uncorrectableError tile array _ => tileOk tile && arrayOk array
  | .telemetryFlush => true
  | .orderlyShutdown => true
  | .tmsel _ => true
  | .throttle die => dieOk die
  | .thermalShutdown => true
  | .registerWrite die _ => dieOk die
  | .illegalInstruction word => notInstruction word
  | .loadValueReturn tile _ => tileOk tile
  | .storeQueueDrain tile _ => tileOk tile
  | .lwrRead die _ => dieOk die
  | .powerFailure => true
  | .linkTraining die link _ => dieOk die && trainOk link
  | .cxlMemAccess die _ _ _ => dieOk die
  | .tagHoldExpiry cluster tile => chainOk cluster tile
  | .slotEntryBoundary cluster => clusterOk cluster
  | .wipeComplete => true

end Sys2Proof
end

