-- ==== Sys2Proof/Safety.lean ====
section
/-! DEFINITION. The terms that claims are written in: a sound state, a sequencer that can execute, what an instruction comes to. -/

namespace Sys2Proof

open Sys2Proof.Machine

/-! ### Sound states -/

/-- Memory holds its canonical form: equal memories are equal lists. -/
def memoryOk (s : State) : Bool := s.mem.wf

/-- The place in focus exists (R10, R49). -/
def focusOk (s : State) : Bool :=
  s.focus.tile < tileCount && s.focus.ctx < 8 && s.focus.slot < 128 && s.focus.launch < 2 ^ 14

/-- A step that answers a next state. -/
def completes (o : Host.Outcome State Fault Refusal) : Prop := ∃ t, o = .next t

/-! ### The sequencer in focus -/

/-- The sequencer in focus. -/
def sq (s : State) : Seq := (s.tile s.focus.tile).seq

/-- No load to a register of rs has yet to return (R160). -/
def Free (s : State) (rs : List Reg) : Prop := (sq s).busy rs = false

/-- x[d] := v, nothing when d is x0 (R141). -/
def setReg (s : State) (d : Reg) (v : Word) : State := s.modSeq s.focus.tile (fun q => q.set d v)

/-- The instruction turns s into t, and then pc moves on (R141). -/
def DoesNext (s : State) (i : Instr) (t : State) : Prop := exec i s = .next (next t)

/-- The instruction turns s into t. -/
def Does (s : State) (i : Instr) (t : State) : Prop := exec i s = .next t

/-- The instruction takes the trap of a cause at its own pc, with nothing of it done (R183); xa is the record's copy of x[a]. -/
def Traps (s : State) (i : Instr) (cause : Nat) (tval xa : Word) : Prop :=
  exec i s = .next (takeTrap s s.focus.tile cause tval xa)

/-- The instruction leaves the machine as it is: it waits. -/
def Waits (s : State) (i : Instr) : Prop := exec i s = .next s

/-- Control goes to a target with f done to the sequencer, or the check of R154 fails: alignment, then range. -/
def Goes (s : State) (i : Instr) (tgt xa : Word) (f : Seq → Seq) : Prop :=
  (tgt.toNat % 4 ≠ 0 → Traps s i 4 tgt xa) ∧
  (tgt.toNat % 4 = 0 → 0x10000 ≤ tgt.toNat → Traps s i 3 tgt xa) ∧
  (tgt.toNat % 4 = 0 → tgt.toNat < 0x10000 →
    Does s i (s.modSeq s.focus.tile (fun q => { f q with pc := BitVec.ofNat 14 (tgt.toNat / 4) })))

/-- The tile in focus. -/
def here (s : State) : Tile := s.tile s.focus.tile
/-- The context that ctxsel names. -/
def ctxHere (s : State) : Ctx := (here s).ctx (sq s).ctxsel
/-- The cluster of the tile in focus. -/
def hub (s : State) : Cluster := s.cluster (clusterOf s.focus.tile)
/-- The die of the tile in focus. -/
def dieHere (s : State) : Die := s.die (dieOf s.focus.tile)

/-- Change the tile in focus. -/
def setHere (s : State) (f : Tile → Tile) : State := s.modTile s.focus.tile f
/-- Change the context that ctxsel names. -/
def setCtxHere (s : State) (f : Ctx → Ctx) : State := setHere s (fun T => T.modCtx T.seq.ctxsel f)
/-- Change the cluster of the tile in focus. -/
def setHub (s : State) (f : Cluster → Cluster) : State := s.modCluster (clusterOf s.focus.tile) f
/-- Change the sequencer in focus. -/
def setSeq (s : State) (f : Seq → Seq) : State := s.modSeq s.focus.tile f
/-- s with bytes put at keys. -/
def putMem (s : State) (ws : List (Nat × Byte)) : State := { s with mem := s.mem.writes ws }

/-- The word of an instruction, as tval holds it (R182). -/
def wordOf (i : Instr) : Word := match encode i with | .seq w => w.zeroExtend 64 | _ => 0

/-- Every byte of memory reads in t as it does in s, but those of ks. -/
def sameBytesBut (s t : State) (ks : Nat → Prop) : Prop := ∀ k, ¬ks k → t.mem.read k = s.mem.read k

/-- Nothing of the machine differs between s and t but the sequencer of the tile in focus: every other part of that tile, every other
tile, every cluster, die and launch, the package and every byte of memory are as before. -/
def onlySequencer (s t : State) : Prop :=
  t.now = s.now ∧ t.agenda = s.agenda ∧ t.focus = s.focus ∧ t.marks = s.marks ∧ t.clusters = s.clusters ∧ t.dies = s.dies ∧ t.launches = s.launches ∧
  t.pkg = s.pkg ∧ t.outbox = s.outbox ∧ sameBytesBut s t (fun _ => False) ∧
  (∀ u, u ≠ s.focus.tile → t.tile u = s.tile u) ∧
  { t.tile s.focus.tile with seq := sq s } = s.tile s.focus.tile

/-! ### A fabric slot at its turn -/

/-- The slot in focus has its turn: its place exists, the tile's clocks run, the round in hand is one of its context; e is the slot at
work, with the fields f of its word. -/
def AtWork (s : State) (op : Nat) (f : FabWord) (e : Fab) : Prop :=
  s.focus.tile < tileCount ∧ s.focus.ctx < 8 ∧ s.focus.slot < 128 ∧ (here s).live = true ∧
  ∃ r, (here s).round = some r ∧ r.ctx = s.focus.ctx ∧ e = Fab.at_ s s.focus.tile r s.focus.slot op f

/-- It holds the operands h and its targets have space, and a row of the table of R196 applies. -/
def FiresRow (s : State) (op : Nat) (f : FabWord) (e : Fab) (h : Held3) (row : Row) : Prop :=
  AtWork s op f e ∧ e.operands = some h ∧ e.space = true ∧ judge f op h = row

/-- It fires on data (R196). -/
def FiresOn (s : State) (op : Nat) (f : FabWord) (e : Fab) (h : Held3) : Prop := FiresRow s op f e h .data

/-- The slot comes to act, and the machine is as it leaves it. -/
def Acts (s : State) (i : Instr) (x : Fate) : Prop := ∀ e, x = .ok e → Does s i e.done

/-- The instruction raises a fabric fault in the round in hand, nothing of it done (R215). -/
def FabricFaults (s : State) (i : Instr) (cause : Nat) (value : Word) (pri : Option Nat) : Prop :=
  exec i s = .next (fabricFault s s.focus.tile s.focus.slot 0 0 cause value pri)

/-- The slot acts, and the machine is as it leaves it. -/
def Completes (s : State) (i : Instr) (x : Fate) : Prop := ∃ e, x = .ok e ∧ Does s i e.done

/-- Every output goes to a slot of this page or of another, or nowhere: to no write slot, which takes one token a round, and to no port. -/
def ToSlots (e : Fab) : Prop :=
  ∀ out, out < 2 → e.dest out = .none ∨ (∃ i pos, e.dest out = .slot i pos) ∨ (∃ page i pos, e.dest out = .away page i pos)

/-- One token goes out on both outputs (R188), wherever no output raises a fault of its own: where all go to slots, always. -/
def Sends (s : State) (i : Instr) (e : Fab) (tok : Tok) : Prop :=
  Acts s i (e.emit tok) ∧ (ToSlots e → Completes s i (e.emit tok))

/-- The slots that follow the table of R196 in full, fused opcodes apart: opcode and instruction. -/
def tableSlots (f : FabWord) : List (Nat × Instr) :=
   [(0x01, .fabMov f), (0x05, .fabSel f), (0x06, .fabVsel f), (0x07, .fabVmov f), (0x10, .fabAdd f), (0x11, .fabSub f), 
    (0x12, .fabAddi f), (0x13, .fabMul f), (0x14, .fabMulh f), (0x15, .fabDiv f), (0x16, .fabRem f), (0x17, .fabAnd f), 
    (0x18, .fabOr f), (0x19, .fabXor f), (0x1A, .fabShl f), (0x1B, .fabShr f), (0x1C, .fabMin f), (0x1D, .fabMax f), 
    (0x1E, .fabAbs f), (0x1F, .fabNeg f), (0x20, .fabClz f), (0x21, .fabCtz f), (0x22, .fabPopc f), (0x23, .fabAdds f), 
    (0x24, .fabSubs f), (0x25, .fabSadd f), (0x28, .fabCeq f), (0x29, .fabCne f), (0x2A, .fabClt f), (0x2B, .fabCle f), 
    (0x2C, .fabPand f), (0x2D, .fabPor f), (0x2E, .fabPnot f), (0x2F, .fabPxor f), (0x30, .fabFadd f), (0x31, .fabFsub f), 
    (0x32, .fabFmul f), (0x35, .fabFdiv f), (0x36, .fabFsqrt f), (0x37, .fabFrcp f), (0x38, .fabFmin f), (0x39, .fabFmax f), 
    (0x3A, .fabFabs f), (0x3B, .fabFneg f), (0x3C, .fabFexp2 f), (0x3D, .fabFlog2 f), (0x40, .fabVadd f), (0x41, .fabVsub f), 
    (0x42, .fabVmul f), (0x44, .fabVmin f), (0x45, .fabVmax f), (0x46, .fabVabs f), (0x47, .fabVneg f), (0x48, .fabVhsum f), 
    (0x49, .fabVhmax f), (0x4A, .fabVbcast f), (0x4B, .fabVext f), (0x4C, .fabVins f), (0x4D, .fabVceq f), (0x4E, .fabVclt f), 
    (0x4F, .fabVand f), (0x50, .fabVor f), (0x51, .fabVxor f), (0x52, .fabVshl f), (0x53, .fabVshr f), (0x54, .fabVexp2 f), 
    (0x55, .fabVrcp f), (0x60, .fabCvt f), (0x61, .fabVcvt f), (0x70, .fabLd f), (0x71, .fabSt f), (0x72, .fabVld f), 
    (0x73, .fabVst f), (0x74, .fabLdx f), (0x75, .fabStx f), (0x76, .fabVldx f), (0x77, .fabVstx f), (0x78, .fabLds f), 
    (0x79, .fabSts f), (0x7A, .fabVlds f), (0x7B, .fabVsts f), (0x7E, .fabAmo f), (0x7F, .fabAmos f), (0x8A, .fabAccrd f), 
    (0x8B, .fabBld f), (0x8C, .fabBst f), (0x91, .fabNull f), (0x92, .fabBar f)]

/-- The fused opcodes, which a stop token of a level can reset (R222). -/
def fusedSlots (f : FabWord) : List (Nat × Instr) :=
   [(0x33, .fabFma f), (0x34, .fabFnma f), (0x43, .fabVfma f), (0x62, .fabScacc f), (0x63, .fabVscacc f)]

/-- A counted slot that has acted (R199): noted among those that have. -/
def counted (op : Nat) (e : Fab) : Fab := if opCounted op then { e with r := { e.r with fired := e.r.fired ++ [e.slot] } } else e

/-- Does a rounding of the slot's type draw stochastic words (R104, R107)? -/
def drawsWords (f : FabWord) : Bool := !codeInt (typeOf f) && effMode (fmtFor (typeOf f)) (rndOf f) == 4

/-- The stochastic state after n draws, and the word that the draw from state z gives (R107). -/
def drawState (z : Word) (n : Nat) : Word := z + BitVec.ofNat 64 n * 0x9E3779B97F4A7C15

/-- The i-th lane of width w of a vector (R213). -/
def laneAt (w : Nat) (b : Vec) (i : Nat) : Nat := b.toNat / 2 ^ (w * i) % 2 ^ w

/-! ### Steps without a word -/

/-- The stream of the launch in focus is in delivery, and its next command is not its last word. -/
def Delivers (s : State) (L : Launch) : Prop :=
  s.focus.launch < 2 ^ 14 ∧ s.launch s.focus.launch = some L ∧ cfgLive L = true ∧ L.cfg.words.tail ≠ []

/-- A stream with its next command taken: it is gone, counted and summed (R124). -/
def taken (C : Cfg) (word : Nat) : Cfg :=
  { C with words := C.words.tail, index := C.index + 1, sum := (C.sum + word) % 2 ^ 28 }

/-- A stream with one more command counted by its page header, if it has one (R124). -/
def headed (C : Cfg) : Cfg := if C.header.isSome then { C with left := C.left - 1 } else C

/-- The stream of the launch in focus has been rejected at its next command (R126, R177): before the launch runs it ends; under cfgs the
stream stands as rejected, with the command's index. -/
def StreamRejected (L : Launch) (s t : State) : Prop :=
  (L.cfg.by_ = none → t.launch s.focus.launch = none) ∧
  (L.cfg.by_ ≠ none → t.launch s.focus.launch = some { L with cfg := { L.cfg with rejected := true, words := [] } })

/-- What the completion of entry i of a cluster has done (R253, R256): it no longer runs, its mask has joined the events, its barrier has
one arrival more, and after a final task the launch ends. -/
def TaskCompleted (s t : State) (k i mask : Nat) (arrive : Bool) : Prop :=
  let e := ((s.cluster k).task i).image
  let u := entryTile s k e
  let l := (s.cluster k).launchNo
  ((t.cluster k).task i).running = false ∧
  (∀ x, x < 256 → (t.cluster k).events.get false x = ((s.cluster k).events.get false x || mask.testBit x)) ∧
  (∀ b, arrive = true → entryBar e = some b → (t.tile u).bar b = ((s.tile u).arrive s.now b 1 false).bar b) ∧
  (∀ L, entryFinal e = true → s.launch l = some L → L.phase = .running → ∃ n, t.launch l = some { L with phase := .ending, progress := n }) ∧
  t.mem = s.mem

/-- The head of a tile's chain is a command x of a code that its engine starts now (R14, R179, R180): none of that code is under way, its
turn has come, it passes the checks before the engine's own, its record has room, and it is no release at a scope wider than the die, or
with a write that is pending. -/
def Starts (s : State) (k tile eng cmd : Nat) (desc : Bool) (x : Cmd) : Prop :=
  let c := (s.cluster k).chain eng tile
  k < clusterCount ∧ tile < 4 ∧ x = cmdOf s k eng tile c ∧ x.cmd = cmd ∧ x.scope ≠ 7 ∧ (∀ y ∈ c.started, y.cmd ≠ cmd ∧ assigned y.eng y.cmd = true ∧ y.seq < x.seq) ∧
  canStart s k eng tile = true ∧ turnTile s k eng = some tile ∧ tileRuns s (k * 4 + tile) = true ∧
  cmdReady (startCmd s k eng tile) k tile desc x = true ∧ ((s.cluster k).evq.get [] tile).length < 64 ∧
  (x.release = false ∨ (wideScope x.scope = false ∧ cmdPending s k tile x = false))

/-- A command x, its descriptor read, starts now for a part that names a place beyond the started commands, or stands at that place and goes on,
with nothing of its chain to complete first; where it is a release, no write is on its way (R349, R350). -/
def Runs (s : State) (k tile eng cmd : Nat) (pick : Nat) (x : Cmd) : Prop :=
  let c := (s.cluster k).chain eng tile
  (x.release = false ∨ (wideScope x.scope = false ∧ s.pkg.reqs = [])) ∧
  ((∃ h, Starts s k tile eng cmd true h ∧ c.started.length ≤ pick ∧ x = h.read s k true) ∨
  (k < clusterCount ∧ tile < 4 ∧ c.started[pick]? = some x ∧ x.eng = eng ∧ x.desc.isSome = true ∧ x.scope ≠ 7 ∧
    goesOn s k tile cmd true x = true ∧ (∀ y ∈ c.started, ∀ st r, y.stage ≠ .ended st r) ∧
    ((s.cluster k).evq.get [] tile).length < 64 ∧ c.held = []))

/-- A command that ends now completes, and its record has room in the event queue (R71, R173). -/
def CanEnd (s : State) (k tile : Nat) (x : Cmd) : Prop :=
  canComplete s k tile x = true ∧ ((s.cluster k).evq.get [] tile).length < 64 ∧ ((s.cluster k).chain x.eng tile).held = []

/-- A command has ended with a status (R173, R180): it is no longer under way, its record is queued, where every command before it had ended,
the chain's timeline stands at its number, and the task that issued it no longer runs and has set its mask (R253). -/
def Ended (s t : State) (k tile : Nat) (x : Cmd) (status : Nat) (rest : List Byte) : Prop :=
  let c := (s.cluster k).chain x.eng tile
  let d := (t.cluster k).chain x.eng tile
  (∀ y ∈ d.started, y.seq ≠ x.seq) ∧ d.tail = c.tail ∧ d.next = c.next ∧
  (t.cluster k).evq.get [] tile = (s.cluster k).evq.get [] tile ++
    (if x.records status then [engineRecord x.eng tile x.cmd status x.seq rest] else []) ∧
  (c.finished = [] → c.upTo + 1 = x.seq → serialLt 64 ((s.cluster k).tl.get 0 (48 + (x.eng - 1) * 4 + tile)).toNat (x.seq % 2 ^ 64) = true →
    (t.cluster k).tl.get 0 (48 + (x.eng - 1) * 4 + tile) = BitVec.ofNat 64 x.seq) ∧
  (∀ i, x.task = some i → ((s.cluster k).task i).running = true → ((t.cluster k).task i).running = false ∧
    ∀ b, b < 256 → (entrySet ((s.cluster k).task i).image).testBit b = true → (t.cluster k).events.get false b = true)

/-- The destination of an instruction whose only result is a register, where it takes no trap (R156, R162, R169, R172). -/
def registerRead (i : Instr) : Option Reg :=
  match i with
  | .ldp d _ _ _ | .mfs d _ | .barRd d _ | .tlRd d _ => some d
  | _ => none

/-- The destination of an instruction whose only result is a register, and which takes no trap (R146 to R152). -/
def registerResult (i : Instr) : Option Reg :=
  match i with
  | .add d _ _ | .sub d _ _ | .and d _ _ | .or d _ _ | .xor d _ _ | .sll d _ _ | .srl d _ _ | .sra d _ _ | .slt d _ _
  | .sltu d _ _ | .min d _ _ | .max d _ _ | .minu d _ _ | .maxu d _ _ | .xadd2 d _ _ | .xadd4 d _ _ | .xadd8 d _ _
  | .sadd d _ _ | .mul d _ _ | .mulh d _ _ | .mulhu d _ _ | .div d _ _ | .divu d _ _ | .rem d _ _ | .remu d _ _ => some d
  | .clz d _ | .ctz d _ | .popc d _ | .mflk d => some d
  | .addi d _ _ | .addi16 d _ _ | .addi32 d _ _ | .addi48 d _ _ | .andi d _ _ | .ori d _ _ | .xori d _ _ | .slti d _ _
  | .sltiu d _ _ | .saddi d _ _ => some d
  | .slli d _ _ | .srli d _ _ | .srai d _ _ => some d
  | .tlook d _ => some d
  | _ => none

end Sys2Proof
end

