-- ==== Sys2Proof/Certificates/Slice0/Obligations.lean ====
section
/-! DEFINITION. What is claimed of the model, each claim named for what it states, with the rule of the manual it formalises. -/

open Sys2Proof Sys2Proof.Machine

/-! ### The sequencer: results -/

/-- R146, R151: the results of the ALU group on two registers, for every register, x0 among them. The next state is named whole. R148, R149, R151: the results of the register and immediate operations and the shifted adds. -/
def Obligations.IntegerResults : Prop :=
  (∀ (s : State) (d a b : Reg), Free s [d, a, b] →
    let u := s.x a
    let v := s.x b
    let gives (i : Instr) (w : Word) : Prop := DoesNext s i (setReg s d w)
    gives (.add d a b) (u + v) ∧ gives (.sub d a b) (u - v) ∧ gives (.and d a b) (u &&& v) ∧ gives (.or d a b) (u ||| v) ∧
    gives (.xor d a b) (u ^^^ v) ∧ gives (.sll d a b) (u <<< (v.toNat % 64)) ∧ gives (.srl d a b) (u >>> (v.toNat % 64)) ∧
    gives (.sra d a b) (u.sshiftRight (v.toNat % 64)) ∧ gives (.slt d a b) (if u.toInt < v.toInt then 1 else 0) ∧
    gives (.sltu d a b) (if u.toNat < v.toNat then 1 else 0) ∧ gives (.min d a b) (if u.toInt ≤ v.toInt then u else v) ∧
    gives (.max d a b) (if u.toInt ≥ v.toInt then u else v) ∧ gives (.minu d a b) (if u.toNat ≤ v.toNat then u else v) ∧
    gives (.maxu d a b) (if u.toNat ≥ v.toNat then u else v) ∧ gives (.xadd2 d a b) (u + 2 * v) ∧ gives (.xadd4 d a b) (u + 4 * v) ∧
    gives (.xadd8 d a b) (u + 8 * v) ∧
    gives (.sadd d a b) ((u &&& 0xFFFF000000000000) ||| BitVec.ofNat 64 ((u.toNat + v.toNat) % 2 ^ 48)) ∧
    gives (.mul d a b) (BitVec.ofNat 64 (u.toNat * v.toNat)) ∧ gives (.mulh d a b) (BitVec.ofInt 64 (u.toInt * v.toInt / 2 ^ 64)) ∧
    gives (.mulhu d a b) (BitVec.ofNat 64 (u.toNat * v.toNat / 2 ^ 64))) ∧
  (∀ (s : State) (d a : Reg) (imm : BitVec 16) (sh : BitVec 6), Free s [d, a] →
    let u := s.x a
    let e := imm.signExtend 64
    let z := imm.zeroExtend 64
    let gives (i : Instr) (w : Word) : Prop := DoesNext s i (setReg s d w)
    gives (.addi d a imm) (u + e) ∧ gives (.addi16 d a imm) (u + (e <<< 16)) ∧ gives (.addi32 d a imm) (u + (e <<< 32)) ∧
    gives (.addi48 d a imm) (u + (e <<< 48)) ∧ gives (.andi d a imm) (u &&& z) ∧ gives (.ori d a imm) (u ||| z) ∧
    gives (.xori d a imm) (u ^^^ z) ∧ gives (.slti d a imm) (if u.toInt < e.toInt then 1 else 0) ∧
    gives (.sltiu d a imm) (if u.toNat < e.toNat then 1 else 0) ∧ gives (.slli d a sh) (u <<< sh.toNat) ∧
    gives (.srli d a sh) (u >>> sh.toNat) ∧ gives (.srai d a sh) (u.sshiftRight sh.toNat) ∧
    gives (.saddi d a imm) ((u &&& 0xFFFF000000000000) ||| BitVec.ofNat 64 ((u.toNat + e.toNat) % 2 ^ 48)))

/-- R147: division truncates toward zero, the remainder takes the sign of the dividend, three cases have fixed results, and the
dividend is quotient times divisor plus remainder in every case. -/
def Obligations.DivisionResults : Prop :=
  ∀ (s : State) (d a b : Reg), Free s [d, a, b] →
    ∃ q r qu ru : Word,
      DoesNext s (.div d a b) (setReg s d q) ∧ DoesNext s (.rem d a b) (setReg s d r) ∧
      DoesNext s (.divu d a b) (setReg s d qu) ∧ DoesNext s (.remu d a b) (setReg s d ru) ∧
      (let u := (s.x a).toInt
       let v := (s.x b).toInt
       (v = 0 → q.toInt = (if u = 0 then 0 else if u > 0 then 2 ^ 63 - 1 else -2 ^ 63) ∧ r.toInt = u) ∧
       (u = -2 ^ 63 ∧ v = -1 → q.toInt = 2 ^ 63 - 1 ∧ r.toInt = -1) ∧
       (v ≠ 0 → ¬(u = -2 ^ 63 ∧ v = -1) → q.toInt = u.tdiv v ∧ r.toInt = u.tmod v) ∧
       u = q.toInt * v + r.toInt) ∧
      (let u := (s.x a).toNat
       let v := (s.x b).toNat
       (v = 0 → qu.toNat = (if u = 0 then 0 else 2 ^ 64 - 1) ∧ ru.toNat = u) ∧
       (v ≠ 0 → qu.toNat = u / v ∧ ru.toNat = u % v) ∧
       u = qu.toNat * v + ru.toNat)

/-- R146: clz, ctz and popc count the leading zeros, the trailing zeros and the ones of the operand; 64 for a zero operand of the first
two. -/
def Obligations.BitCountResults : Prop :=
  ∀ (s : State) (d a : Reg), Free s [d, a] →
    let u := s.x a
    ∃ c z : Nat,
      DoesNext s (.clz d a) (setReg s d (BitVec.ofNat 64 c)) ∧ DoesNext s (.ctz d a) (setReg s d (BitVec.ofNat 64 z)) ∧
      DoesNext s (.popc d a) (setReg s d (BitVec.ofNat 64 ((List.range 64).filter (fun i => u.getLsbD i)).length)) ∧
      (u = 0 → c = 64 ∧ z = 64) ∧
      (u ≠ 0 → c < 64 ∧ u.getLsbD (63 - c) = true ∧ (∀ i, 63 - c < i → u.getLsbD i = false) ∧
        z < 64 ∧ u.getLsbD z = true ∧ (∀ i, i < z → u.getLsbD i = false))

/-- R150: the four instructions leave exactly v in d, for every v: each runs at the state the one before leaves. The pieces are those
of R118. -/
def Obligations.ConstantSequence : Prop :=
  ∀ (s : State) (d : Reg) (v : Word), d ≠ 0 → (sq s).loads = [] → (sq s).pc.toNat + 4 ≤ 0x3FFF →
    let lo : BitVec 16 := v.truncate 16
    let hi : BitVec 16 := ((v + 0x8000) >>> 16).truncate 16
    let higher : BitVec 16 := ((v + 0x80008000) >>> 32).truncate 16
    let highest : BitVec 16 := ((v + 0x800080008000) >>> 48).truncate 16
    ∃ s1 s2 s3 s4,
      exec (.addi48 d 0 highest) s = .next s1 ∧ exec (.addi32 d d higher) s1 = .next s2 ∧ exec (.addi16 d d hi) s2 = .next s3 ∧
      exec (.addi d d lo) s3 = .next s4 ∧ (sq s4).get d = v ∧ (sq s4).pc = (sq s).pc + 4 ∧ onlySequencer s s4

/-- R141, R154: an instruction that does not set pc ends with pc + 4; at 0xFFFC the fetch range trap is taken after completion, with
tepc 0xFFFC and tval 0x10000, so pc never wraps. R134, R141: x0 reads zero and a write to it is dropped; a write to any other register gives it its value and leaves the rest. -/
def Obligations.InstructionOrderAndRegisters : Prop :=
  (∀ s : State,
    ((sq s).pc ≠ 0x3FFF → next s = s.modSeq s.focus.tile (fun q => { q with pc := q.pc + 1 })) ∧
    ((sq s).pc = 0x3FFF → next s = takeTrap s s.focus.tile 3 0x10000 (s.xaAt s.focus.tile 0xFFFC) true)) ∧
  (∀ (q : Seq) (d r : Reg) (v : Word),
    q.get 0 = 0 ∧ q.set 0 v = q ∧ (d ≠ 0 → (q.set d v).get d = v) ∧ (r ≠ d → (q.set d v).get r = q.get r))

/-- The frame of every instruction whose only result is a register: nothing of the machine changes but the sequencer in focus, and of
that only its destination and pc; ldp, mfs, bar.rd and tl.rd, whose only result is a register too, may take a trap instead (R156, R162, R168). Away
from the last word, where R154 has its trap. -/
def Obligations.RegisterResultFrame : Prop :=
  ∀ (i : Instr) (d : Reg) (s t : State), (sq s).pc ≠ 0x3FFF → exec i s = .next t →
    let frame := onlySequencer s t ∧ (∀ r, r ≠ d → (sq t).get r = (sq s).get r) ∧
      { sq t with pc := (sq s).pc, x := (sq s).x } = sq s ∧ ((sq t).pc = (sq s).pc + 1 ∨ t = s)
    (registerResult i = some d → frame) ∧
    (registerRead i = some d → frame ∨ ∃ cause tval xa, t = takeTrap s s.focus.tile cause tval xa)

/-- R160: an instruction that names the destination of a load which has not returned waits: it changes nothing. Every instruction of the
integer, branch and miscellaneous groups named here. -/
def Obligations.WaitsForPendingLoad : Prop :=
  ∀ (s : State) (d a b : Reg) (imm : BitVec 16),
    ((sq s).busy [d, a, b] = true → Waits s (.add d a b) ∧ Waits s (.mul d a b) ∧ Waits s (.div d a b)) ∧
    ((sq s).busy [d, a] = true → Waits s (.addi d a imm) ∧ Waits s (.ld64 d a imm) ∧ Waits s (.st64 d a imm)) ∧
    ((sq s).busy [a, b] = true → Waits s (.beq a b imm)) ∧ ((sq s).busy [a] = true → Waits s (.mtlk a) ∧ Waits s (.jr a imm))

/-! ### The sequencer: control -/

/-- R152: nop moves on, mflk reads lk, mtlk sets it to any value, ret jumps to it after the check of R154. R153, R155: a branch that is taken and every jump check their target and go there, jal and jalr writing lk with it; a branch that is
not taken checks nothing and moves on. -/
def Obligations.BranchesJumpsAndMisc : Prop :=
  (∀ (s : State) (d a : Reg),
    DoesNext s .nop s ∧ (Free s [d] → DoesNext s (.mflk d) (setReg s d (sq s).lk)) ∧
    (Free s [a] → DoesNext s (.mtlk a) (setSeq s (fun q => { q with lk := s.x a }))) ∧ Goes s .ret (sq s).lk 0 id) ∧
  (∀ (s : State) (a b : Reg) (imm : BitVec 16) (off : BitVec 26), Free s [a, b] →
    let u := s.x a
    let v := s.x b
    let pc : Word := BitVec.ofNat 64 ((sq s).pc.toNat * 4)
    let branch (i : Instr) (cond : Prop) : Prop := (cond → Goes s i (pc + 4 * imm.signExtend 64) u id) ∧ (¬cond → DoesNext s i s)
    let link (q : Seq) : Seq := { q with lk := pc + 4 }
    branch (.beq a b imm) (u = v) ∧ branch (.bne a b imm) (u ≠ v) ∧ branch (.blt a b imm) (u.toInt < v.toInt) ∧
    branch (.bge a b imm) (u.toInt ≥ v.toInt) ∧ branch (.bltu a b imm) (u.toNat < v.toNat) ∧
    branch (.bgeu a b imm) (u.toNat ≥ v.toNat) ∧
    Goes s (.j off) (pc + 4 * off.signExtend 64) 0 id ∧ Goes s (.jal off) (pc + 4 * off.signExtend 64) 0 link ∧
    Goes s (.jr a imm) (u + 4 * imm.signExtend 64) u id ∧ Goes s (.jalr a imm) (u + 4 * imm.signExtend 64) u link)

/-- R138, R156: what mfs gives for every assigned register, in system mode and, for the registers open to it, in program mode; the
privilege trap for the others in program mode. R138, R139, R144, R156: what mts writes for every writable register, bits outside those used being ignored; a write of rseed restarts
the stochastic state of every context; the privilege trap in program mode, and the illegal-instruction trap for a read-only register in
both modes. -/
def Obligations.SystemRegisters : Prop :=
  (∀ (s : State) (d : Reg) (n : BitVec 12), Free s [d] →
    let T := here s
    let q := sq s
    let c := ctxHere s
    let t := s.focus.tile
    let open_ (k : BitVec 12) (v : Word) : Prop := DoesNext s (.mfs d k) (setReg s d v)
    let system (k : BitVec 12) (v : Word) : Prop :=
      (q.mode = true → DoesNext s (.mfs d k) (setReg s d v)) ∧ (q.mode = false → Traps s (.mfs d k) 2 (wordOf (.mfs d k)) 0)
    open_ 0x000 (BitVec.ofNat 64 (s.now - (dieHere s).cycleBase)) ∧
    open_ 0x001 (BitVec.ofNat 64 (t % 4 + t / 4 % 40 * 4 + t / 160 * 256 + (dieHere s).endpoint % 1024 * 65536)) ∧
    open_ 0x002 (BitVec.ofNat 64 q.ctxsel) ∧ open_ 0x003 (c.ctxid.zeroExtend 64) ∧ open_ 0x010 (c.fstat.zeroExtend 64) ∧
    open_ 0x011 T.rseed ∧ open_ 0x030 (if q.mode then 1 else 0) ∧
    system 0x020 c.tbase ∧ system 0x021 (c.pasid.zeroExtend 64) ∧ system 0x022 c.hotbase ∧ system 0x023 (c.hotlen.zeroExtend 64) ∧
    system 0x024 (c.hotnext.zeroExtend 64) ∧ system 0x025 (c.hotovr.zeroExtend 64) ∧
    system 0x031 (BitVec.ofNat 64 (q.tvec.toNat * 4)) ∧ system 0x032 (BitVec.ofNat 64 (q.tepc.toNat * 4)) ∧
    system 0x033 (q.tcause.zeroExtend 64) ∧ system 0x034 q.tval ∧ system 0x035 q.tscratch ∧
    (0x800 ≤ n.toNat → n.toNat ≤ 0x8FF → open_ n (s.pkg.caps.get 0 (n.toNat - 0x800))) ∧
    (sysAssigned n.toNat = false → Traps s (.mfs d n) 1 (wordOf (.mfs d n)) 0)) ∧
  (∀ (s : State) (a : Reg) (n : BitVec 12), Free s [a] →
    let v := s.x a
    let open_ (k : BitVec 12) (t : State) : Prop := DoesNext s (.mts a k) t
    let system (k : BitVec 12) (t : State) : Prop :=
      ((sq s).mode = true → DoesNext s (.mts a k) t) ∧ ((sq s).mode = false → Traps s (.mts a k) 2 (wordOf (.mts a k)) v)
    open_ 0x010 (setCtxHere s (fun c => { c with fstat := v.truncate 6 })) ∧
    (∃ ctxs, open_ 0x011 (setHere s (fun T => { T with rseed := v, ctxs := ctxs })) ∧
      ∀ i, i < 8 → ctxs.get Ctx.reset i = { (here s).ctx i with fresh := true }) ∧
    system 0x020 (setCtxHere s (fun c => { c with tbase := v &&& 0x0000FFFFFFFF0000 })) ∧
    system 0x021 (setCtxHere s (fun c => { c with pasid := v.truncate 20 })) ∧
    system 0x022 (setCtxHere s (fun c => { c with hotbase := v &&& 0x01FFFFFFFFFFFFF0 })) ∧
    system 0x023 (setCtxHere s (fun c => { c with hotlen := v.truncate 32 })) ∧
    system 0x024 (setCtxHere s (fun c => { c with hotnext := v.truncate 32 })) ∧
    system 0x025 (setCtxHere s (fun c => { c with hotovr := v.truncate 32 })) ∧
    system 0x030 (setSeq s (fun q => { q with mode := v.getLsbD 0 })) ∧
    system 0x031 (setSeq s (fun q => { q with tvec := v.extractLsb' 2 14 })) ∧
    system 0x032 (setSeq s (fun q => { q with tepc := v.extractLsb' 2 14 })) ∧
    system 0x033 (setSeq s (fun q => { q with tcause := v.truncate 32 &&& 0xC000FFFF })) ∧
    system 0x034 (setSeq s (fun q => { q with tval := v })) ∧ system 0x035 (setSeq s (fun q => { q with tscratch := v })) ∧
    (n.toNat ≤ 0x003 ∨ 0x800 ≤ n.toNat ∨ sysAssigned n.toNat = false → Traps s (.mts a n) 1 (wordOf (.mts a n)) v))

/-- R183: at a trap tepc, tcause (with the mode before it and the completed bit, R182) and tval are set. In program mode with a handler
the mode becomes system and pc the handler's, and nothing is recorded; without one a record goes to the cause's lane and the sequencer
stops; in system mode an amber record of cause 0x41 is written and it stops. Registers, lk and memory stay. -/
def Obligations.TrapEntry : Prop :=
  ∀ (s : State) (t cause : Nat) (tval xa : Word) (completed : Bool), cause < 2 ^ 16 →
    let q := (s.tile t).seq
    let t1 := takeTrap s t cause tval xa completed
    let p := (t1.tile t).seq
    p.tepc = q.pc ∧ p.tval = tval ∧ p.x = q.x ∧ p.lk = q.lk ∧ t1.mem = s.mem ∧ p.ctxsel = q.ctxsel ∧ p.tvec = q.tvec ∧
    p.tscratch = q.tscratch ∧ p.loads = q.loads ∧ p.queue = q.queue ∧
    p.tcause.getLsbD 31 = q.mode ∧ p.tcause.getLsbD 30 = completed ∧ p.tcause.toNat % 2 ^ 16 = cause ∧
    (q.mode = false → q.tvec ≠ 0 → p.mode = true ∧ p.pc = q.tvec ∧ p.phase = q.phase ∧ t1.dies = s.dies) ∧
    (q.mode = false → q.tvec = 0 → p.phase = .stopped ∧ p.mode = q.mode ∧ p.pc = q.pc ∧
      ∃ r, t1.die (dieOf t) = (s.die (dieOf t)).place r ∧ r.amber = causeAmber cause ∧ r.cause = cause ∧ r.value = tval) ∧
    (q.mode = true → p.phase = .stopped ∧ p.mode = q.mode ∧ p.pc = q.pc ∧
      ∃ r, t1.die (dieOf t) = (s.die (dieOf t)).place r ∧ r.amber = true ∧ r.cause = 0x41)

/-- R184: in system mode eret goes to tepc, past it when the trapping instruction's effects stand, with the mode of tcause; at 0x10000
the check fails in system mode. In program mode it is the privilege trap (R181). R181, R144: trap takes the program trap with x[a], its effects standing; a word that is no instruction takes the illegal-instruction
trap with the word. -/
def Obligations.TrapCausesAndReturn : Prop :=
  (∀ s : State,
    let q := sq s
    let tgt := q.tepc.toNat * 4 + (if q.tcause.getLsbD 30 then 4 else 0)
    (q.mode = true → tgt < 0x10000 →
      Does s .eret (setSeq s (fun q => { q with mode := q.tcause.getLsbD 31, pc := BitVec.ofNat 14 (tgt / 4) }))) ∧
    (q.mode = true → 0x10000 ≤ tgt → Traps s .eret 3 (BitVec.ofNat 64 tgt) 0) ∧
    (q.mode = false → Traps s .eret 2 (wordOf .eret) 0)) ∧
  (∀ (s : State) (a : Reg) (w : BitVec 32),
    (Free s [a] → Does s (.trap a) (takeTrap s s.focus.tile 0x10 (s.x a) (s.x a) true)) ∧
    Traps s (.illegalInstruction w) 1 (w.zeroExtend 64) 0)

/-! ### The sequencer: memory -/

/-- R78, R159: the pieces of an access are ascending and contiguous, cover it, and each is naturally aligned and of a size that is a
power of two up to 64. R159, R160: a load whose pieces translate joins the loads that have not returned and the sequencer goes on; a fault of its access
takes the trap of R51 with the address of the lowest faulting piece and nothing loaded. R78, R159, R160: a load reads its pieces one by one, ascending, once the home of each may serve it: every byte from the youngest older queued
store that holds it, else from memory; with the last piece its register is given the bytes, extended as it asks; a value that an atomic bound
at its home is given as it stands (R164). Memory stays. -/
def Obligations.LoadsFromIssueToReturn : Prop :=
  (∀ (a n : Nat),
    ((split a n).map (fun p => p.2)).sum = n ∧
    (∀ i (h : i < (split a n).length), ((split a n)[i]).1 = a + (((split a n).take i).map (fun p => p.2)).sum) ∧
    (∀ p ∈ split a n, p.1 % p.2 = 0 ∧ ∃ k, k ≤ 6 ∧ p.2 = 2 ^ k)) ∧
  (∀ (s : State) (d base : Reg) (imm : BitVec 16), Free s [d, base] →
    let a := s.x base + imm.signExtend 64
    let issues (i : Instr) (n : Nat) (sgn : Bool) : Prop :=
      (∀ ps s1, seqLv s a n false = .ok (ps, s1) →
        DoesNext s i (setSeq s1 (fun q => { q with no := q.no + 1, loads := q.loads ++
          [{ no := q.no, d := d, pieces := ps, got := [], sgn := sgn, value := none, addr := a, since := s.now, retries := 0 }] }))) ∧
      (∀ f, seqLv s a n false = .error f →
        Does s i (takeTrap (priRequest s (dieOf s.focus.tile) (ctxHere s).ctxid.toNat f.pri) s.focus.tile f.cause f.addr (s.x base)))
    issues (.ldI8 d base imm) 1 true ∧ issues (.ldI16 d base imm) 2 true ∧ issues (.ldI32 d base imm) 4 true ∧
    issues (.ld64 d base imm) 8 false ∧ issues (.ldN8 d base imm) 1 false ∧ issues (.ldN16 d base imm) 2 false ∧
    issues (.ldN32 d base imm) 4 false) ∧
  (∀ (s : State) (tile i : Nat) (l : SeqLoad), tile < tileCount → ((s.tile tile).seq.loads)[i]? = some l →
    let q := (s.tile tile).seq
    let byte (p : Piece) (j : Nat) : Byte :=
      let k := p.key + j
      match (q.queue.filter (fun e => e.no < l.no && e.piece.key ≤ k && k < e.piece.key + e.data.length)).getLast? with
      | some e => e.data.getD (k - e.piece.key) 0
      | none => s.mem.read (readKey s p + j)
    let word (bytes : List Byte) : Word :=
      if l.sgn then BitVec.ofInt 64 (signedOf (8 * bytes.length) (leNat bytes)) else BitVec.ofNat 64 (leNat bytes)
    let becomes (p : Seq) : Prop :=
      ∃ t, Does s (.loadValueReturn tile i) t ∧ (t.tile tile).seq = p ∧ t.mem = s.mem ∧ (∀ u, u ≠ tile → t.tile u = s.tile u)
    let returns (v : Word) : Prop := becomes { q.set l.d v with loads := q.loads.eraseIdx i }
    (∀ e ∈ q.queue, e.data.length = e.piece.size) →
    (∀ v, l.value = some v → returns v) ∧
    (∀ p rest, l.value = none → l.pieces = p :: rest → pieceReady s tile l.no p = true →
      let bytes := l.got ++ (List.range p.size).map (byte p)
      (rest = [] → returns (word bytes)) ∧
      (rest ≠ [] → becomes { q with loads := q.loads.set i { l with pieces := rest, got := bytes } })))

/-- R44 to R48, R410: without a cached translation an LV address walks from the root table of its context down, each level's entry at the level's index
bits: an entry that is not valid gives no mapping, a reserved field, a leaf at a level that does not allow its size, a pointer at L0 or a misaligned
one a table-format fault, both at the first level where either arises; a leaf that is not present faults so whatever its permissions, a missing permission
only on a present leaf; a byte lies at the leaf's frame plus the LV bits below the page size; under a host-delegated entry a resident
page has what ATS answers, and one that is not asks the host. R40, R159: an address with bit 63 set or any of bits 62 to 57 takes the address fault, for a
load and for a store. R168: a register that names a barrier, event, timeline, context or scratchpad line beyond the last takes the
operand-range trap with the value, and so does each other limit stated for a register's value, those of cfgs (R177) among them. The model's choices: the
value of x[a] where both operands are out of range (DESIGN CHOICE, log entry 89), which frames a leaf may name (log entry 38), a table beyond the stack SRAM (log entry 83), what ATS answers (log entries 41 and 84). -/
def Obligations.TranslationAndFaultingOperands : Prop :=
  (∀ (s : State) (k : Nat) (c : Ctx) (tlb : List Xlat) (wr : Bool) (lv : Nat), lv < 2 ^ 57 → tlbFind tlb c.ctxid.toNat lv = none →
    let die := dieOfCluster k
    let root := bits c.tbase 47 16 * 65536
    let entry (base level : Nat) : Word :=
      BitVec.ofNat 64 (s.mem.nat (sramKey die (base + 8 * (lv / 2 ^ levelShift level % 2 ^ levelBits level))) 8)
    let clean (e : Word) : Prop := bit e 63 = true ∧ bits e 52 48 = 0 ∧ bits e 10 0 = 0
    let points (e : Word) (to_ size : Nat) : Prop := clean e ∧ bit e 62 = false ∧ bits e 47 11 * 2048 = to_ ∧ to_ % size = 0
    let leaf (e : Word) (size span : Nat) : Prop :=
      clean e ∧ bit e 62 = true ∧ bits e 61 59 = size ∧ bits e 13 11 = 0 ∧ frameOk s e span = true
    let permits (e : Word) : Bool := if wr then bit e 55 else bit e 56
    let fault (cause : Nat) (page : Option Nat) : Prop :=
      lvPiece s k c tlb wr lv = .error { cause := cause, addr := BitVec.ofNat 64 lv, pri := page }
    let gives (e : Word) (span : Nat) : Prop :=
      (bit e 53 = false → fault 0xC none) ∧ (bit e 53 = true → permits e = false → fault 0xB none) ∧
      (bit e 53 = true → permits e = true → ∃ x, lvPiece s k c tlb wr lv = .ok x ∧ x.span = span ∧ x.leaf = e ∧
        let frame := bits e 42 14 * 16384 + lv % 2 ^ span
        (bits e 58 57 = 0 → xlatKey x lv = sramKey (bits e 47 43) frame) ∧ (bits e 58 57 = 1 → xlatKey x lv = lpddrKey (bits e 47 43) frame) ∧
        (bits e 58 57 = 2 → xlatKey x lv = remoteKey (bits e 47 38) (bit e 37) (bits e 36 14 * 16384 + lv % 2 ^ span)) ∧
        (bits e 58 57 = 3 → xlatKey x lv = hostKey (bits e 47 14 * 16384 + lv % 2 ^ span)))
    (∀ e2 e1 e0 t2 t1 t0, points (entry root 3) t2 (2 ^ 17) → entry t2 2 = e2 →
      (leaf e2 4 30 → gives e2 30) ∧
      (points e2 t1 (2 ^ 11) → entry t1 1 = e1 → (leaf e1 2 22 → gives e1 22) ∧ (leaf e1 3 26 → gives e1 26) ∧
        (points e1 t0 (2 ^ 11) → entry t0 0 = e0 → (leaf e0 0 14 → gives e0 14) ∧ (leaf e0 1 18 → gives e0 18)))) ∧
    (∀ base level, level ≤ 3 →
      let e := entry base level
      let w := walkFrom s die lv level base
      let allowed := (level, bits e 61 59) ∈ [(0, 0), (0, 1), (1, 2), (1, 3), (2, 4)] ∨ (level = 3 ∧ bits e 61 59 = 7 ∧ bits e 58 57 = 3)
      (bit e 63 = false → w = .error 9) ∧
      (bit e 63 = true → ¬clean e ∨ (bit e 62 = true ∧ (¬allowed ∨ bits e 13 11 ≠ 0 ∨ (level ≠ 3 ∧ frameOk s e ([14, 18, 22, 26, 30].getD (bits e 61 59) 0) = false))) ∨
        (bit e 62 = false ∧ (level = 0 ∨ bits e 47 11 * 2048 % (8 * 2 ^ levelBits (level - 1)) ≠ 0)) → w = .error 0xA) ∧
      (∀ t, points e t (8 * 2 ^ levelBits (level - 1)) → level ≠ 0 → w = walkFrom s die lv (level - 1) t)) ∧
    (∀ cause, walkFrom s die lv 3 root = .error cause → fault cause none) ∧
    (∀ e, walkFrom s die lv 3 root = .ok (e, 44) →
      let page := lv / 2 ^ 14
      let x := atsXlat s c e page
      (bit e 53 = false → fault 0xC none) ∧
      (bit e 53 = true → tlbFind ((s.cluster k).tlb.filter (·.isAts)) c.ctxid.toNat lv = none →
        (s.pkg.resident.contains (c.ctxid.toNat, page) = false → fault 0xD (some page)) ∧
        (s.pkg.resident.contains (c.ctxid.toNat, page) = true →
          ((if wr then x.wr else x.rd) = false → fault 0xB none) ∧ ((if wr then x.wr else x.rd) = true → lvPiece s k c tlb wr lv = .ok x))))) ∧
  (∀ (s : State) (d base : Reg) (imm : BitVec 16), Free s [d, base] →
    let a := s.x base + imm.signExtend 64
    2 ^ 57 ≤ a.toNat → Traps s (.ld64 d base imm) 5 a (s.x base) ∧ Traps s (.ldN8 d base imm) 5 a (s.x base) ∧
      Traps s (.st64 d base imm) 5 a (s.x base) ∧ Traps s (.st8 d base imm) 5 a (s.x base)) ∧
  (∀ (s : State) (d a b : Reg),
    let u := s.x a
    let v := s.x b
    let range (i : Instr) (w : Word) : Prop := Traps s i 0x11 w u
    (Free s [a, b] →
      (1024 ≤ u.toNat → range (.barInit a b) u ∧ range (.barInitb a b) u ∧ range (.barWait a b) u ∧ range (.tset a b) u) ∧
      (u.toNat < 1024 → (v.toNat = 0 ∨ 2 ^ 30 ≤ v.toNat) → range (.barInit a b) v ∧ range (.barInitb a b) v) ∧
      (64 ≤ u.toNat → range (.tlWait a b) u ∧ range (.tlAdv a b) u) ∧
      (u.toNat < 48 → 2 ^ 63 ≤ v.toNat → range (.tlAdv a b) v) ∧
      (u.toNat % 4 ≠ 0 → range (.cfgs a b) u) ∧ (u.toNat % 4 = 0 → v.toNat = 0 ∨ 2 ^ 20 < v.toNat → range (.cfgs a b) v)) ∧
    (Free s [d, a] →
      (1024 ≤ u.toNat → range (.barArr d a) u ∧ range (.barRd d a) u) ∧ (64 ≤ u.toNat → range (.tlRd d a) u) ∧
      (u.toNat < 1024 → ((here s).bar u.toNat).target = 0 ∨ ((here s).bar u.toNat).bytes = true → range (.barArr d a) u) ∧
      (u.toNat % 64 ≠ 0 → range (.evq d a) u ∧ range (.evqW d a) u)) ∧
    (Free s [a] →
      (1024 ≤ u.toNat → range (.tclr a) u) ∧ (8 ≤ u.toNat → range (.ctxSel a) u) ∧ (2 ^ 32 ≤ u.toNat → range (.run a) u) ∧
      (256 ≤ u.toNat → range (.evSet a) u ∧ range (.evClr a) u ∧ range (.evWait a) u ∧ range (.evTake a) u)))

/-- R159, R160: a store whose pieces translate enters the store queue with the low bytes of its data register, one entry for each piece, and
waits while the queue has no room for them. R160, R75: a queued store that may leave, whose home is the cluster, the private memory, outside the package, or the tile's own die
with every covered write applied, puts its bytes at its piece and leaves the queue; every other byte of memory stays. R75, R61, R390: one whose
home is another die or package, or whose page is duplicated, leaves as a request that carries the bytes and the clock of its die, with the
other holders of a duplicated page to be heard; memory stays until the home applies it. -/
def Obligations.StoresFromQueueToMemory : Prop :=
  (∀ (s : State) (d base : Reg) (imm : BitVec 16), Free s [d, base] →
    let a := s.x base + imm.signExtend 64
    let data := leBytes 8 (s.x d).toNat
    let queues (i : Instr) (n : Nat) : Prop :=
      (∀ ps s1, seqLv s a n true = .ok (ps, s1) → (sq s).queue.length + ps.length ≤ 16 →
        DoesNext s i (setSeq s1 (fun q => { q with no := q.no + 1, queue := q.queue ++ storePieces q.no a (data.take n) ps 0 }))) ∧
      (∀ ps s1, seqLv s a n true = .ok (ps, s1) → 16 < (sq s).queue.length + ps.length → Waits s i) ∧
      (∀ f, seqLv s a n true = .error f →
        Does s i (takeTrap (priRequest s (dieOf s.focus.tile) (ctxHere s).ctxid.toNat f.pri) s.focus.tile f.cause f.addr (s.x base)))
    queues (.st8 d base imm) 1 ∧ queues (.st16 d base imm) 2 ∧ queues (.st32 d base imm) 4 ∧ queues (.st64 d base imm) 8) ∧
  (∀ (s : State) (tile i : Nat) (e : SeqStore), tile < tileCount → memoryOk s = true →
    ((s.tile tile).seq.queue)[i]? = some e → drainReady s tile i e = true → dupOf s e.piece = none →
    (e.piece.home = .near ∨ (e.piece.home = .outside ∧ keyKind e.piece.key ≠ 4) ∨
      (e.piece.home = .die (dieOf tile) ∧ servable s (dieOf tile) e.piece = true)) →
    ∃ t fs, Does s (.storeQueueDrain tile i) t ∧ t.mem = s.mem.writes (putBytes e.piece.key e.data) ∧
      sameBytesBut s t (fun k => e.piece.key ≤ k ∧ k < e.piece.key + e.data.length) ∧
      (t.tile tile).seq = { (s.tile tile).seq with queue := (s.tile tile).seq.queue.eraseIdx i, fences := fs } ∧
      (∀ u, u ≠ tile → t.tile u = s.tile u)) ∧
  (∀ (s : State) (tile i : Nat) (e : SeqStore), tile < tileCount → ((s.tile tile).seq.queue)[i]? = some e → drainReady s tile i e = true →
    let sent (home : Nat) (p : Piece) (holders : List Nat) : Prop :=
      ∃ t fs r, Does s (.storeQueueDrain tile i) t ∧ t.mem = s.mem ∧ t.pkg.reqs = s.pkg.reqs ++ [r] ∧
        (t.tile tile).seq = { (s.tile tile).seq with queue := (s.tile tile).seq.queue.eraseIdx i, fences := fs } ∧
        (∀ u, u ≠ tile → t.tile u = s.tile u) ∧ r.src = dieOf tile ∧ r.home = home ∧ r.piece = p ∧ r.data = e.data ∧ r.tile = tile ∧
        r.round = none ∧ r.cmd = none ∧ r.addr = e.addr ∧ r.holders = holders ∧ r.clock = (s.die (dieOf tile)).clock ∧ r.since = s.now
    (∀ h, dupOf s e.piece = none → e.piece.home = .die h → h ≠ dieOf tile → sent h e.piece []) ∧
    (dupOf s e.piece = none → e.piece.home = .outside → keyKind e.piece.key = 4 → sent dieCount e.piece []) ∧
    (∀ d c off h, dupOf s e.piece = some (d, c, off) → keyHome s d.homeKey = .die h →
      sent h { e.piece with key := d.homeKey + off, home := .die h }
        ((d.copies.map (fun x => x.1)).filter (fun x => x != dieOf tile && !d.dropped.contains x))))

/-- R162, R42, R136: scratchpad loads join the pending loads and scratchpad stores the queue; private memory answers and changes at once,
for every later fetch. The address wraps at the width of its space and an access past the end takes the range trap. -/
def Obligations.ScratchpadAndPrivate : Prop :=
  ∀ (s : State) (d a b : Reg) (off : BitVec 6) (kind : BitVec 3),
    let n := kindSize kind
    let ea := s.x a + BitVec.ofNat 64 n * off.signExtend 64
    let o := ea.toNat % 2 ^ 21
    let p := ea.toNat % 2 ^ 16
    let key := privKey s.focus.tile p
    (Free s [d, a] →
      (o + n ≤ 2 ^ 21 → ∃ ps, spadAccess (clusterOf s.focus.tile) o n = .ok ps ∧
        DoesNext s (.lds d a off kind) (setSeq s (fun q => { q with no := q.no + 1, loads := q.loads ++
          [{ no := q.no, d := d, pieces := ps, got := [], sgn := decide (kind.toNat < 3), value := none, addr := BitVec.ofNat 64 o, since := s.now, retries := 0 }] }))) ∧
      (2 ^ 21 < o + n → Traps s (.lds d a off kind) 6 (BitVec.ofNat 64 o) (s.x a)) ∧
      (p + n ≤ 2 ^ 16 → DoesNext s (.ldp d a off kind) (setReg s d
        (let v := leNat (s.mem.bytes key n)
         if kind.toNat < 3 then BitVec.ofInt 64 (signedOf (8 * n) v) else BitVec.ofNat 64 v))) ∧
      (2 ^ 16 < p + n → Traps s (.ldp d a off kind) 7 (BitVec.ofNat 64 p) (s.x a))) ∧
    (Free s [a, b] →
      (o + n ≤ 2 ^ 21 → ∃ ps, spadAccess (clusterOf s.focus.tile) o n = .ok ps ∧
        ((sq s).queue.length + ps.length ≤ 16 → DoesNext s (.sts a b off kind) (setSeq s (fun q =>
          { q with no := q.no + 1,
                   queue := q.queue ++ storePieces q.no (BitVec.ofNat 64 o) (leBytes n (s.x b).toNat) ps 0 }))) ∧
        (16 < (sq s).queue.length + ps.length → Waits s (.sts a b off kind))) ∧
      (2 ^ 21 < o + n → Traps s (.sts a b off kind) 6 (BitVec.ofNat 64 o) (s.x a)) ∧
      (p + n ≤ 2 ^ 16 → Does s (.stp a b off kind) (putMem (next s) (putBytes key (leBytes n (s.x b).toNat)))) ∧
      (2 ^ 16 < p + n → Traps s (.stp a b off kind) 7 (BitVec.ofNat 64 p) (s.x a)))

/-- The frame of stp: its own bytes of private memory, at the address its meaning computes, read as the data register's low bytes, and
every other byte of memory as before; registers stay. -/
def Obligations.PrivateStoreFrame : Prop :=
  ∀ (s t : State) (a b : Reg) (off : BitVec 6) (kind : BitVec 3), memoryOk s = true → Free s [a, b] →
    (sq s).pc ≠ 0x3FFF → spadAddr s a off kind 16 + kindSize kind ≤ 2 ^ 16 → exec (.stp a b off kind) s = .next t →
    let key := privKey s.focus.tile (spadAddr s a off kind 16)
    (∀ i, i < kindSize kind → t.mem.read (key + i) = BitVec.ofNat 8 ((s.x b).toNat / 2 ^ (8 * i))) ∧
    sameBytesBut s t (fun k => key ≤ k ∧ k < key + kindSize kind) ∧
    t.tiles = (setSeq s (fun q => { q with pc := q.pc + 1 })).tiles ∧ t.clusters = s.clusters ∧ t.dies = s.dies ∧
    t.launches = s.launches ∧ t.pkg = s.pkg

/-- R163: the new value of every operation on the location, at 32 and at 64 bits: arithmetic wraps at the access width, and a minimum or
maximum compares values of that width. R163, R164, R42: an atomic or ordered access of the scratchpad that may be performed reads its location, writes the new value as one
event and returns the old value to d through the pending loads; a release store returns nothing; past the end it is the range trap, and
an address that is not a multiple of its size the alignment trap, with nothing performed. R163, R164, R79: an LV atomic whose address is aligned and translates with permission, performed at the home of its piece: the next
state returns the location's old value to d, and memory holds the new value at the location and is unchanged elsewhere. An address
outside LV space is the address fault before an alignment fault, and both before translation. -/
def Obligations.Atomics : Prop :=
  (∀ (w : Nat) (old t c : BitVec w), w = 32 ∨ w = 64 →
    let new (op : Nat) := amoNew op w old.toNat t.toNat c.toNat
    new 0 = t.toNat ∧ new 1 = (old + t).toNat ∧ new 2 = (old &&& t).toNat ∧ new 3 = (old ||| t).toNat ∧ new 4 = (old ^^^ t).toNat ∧
    new 5 = (if old.toInt ≤ t.toInt then old else t).toNat ∧ new 6 = (if old.toInt ≥ t.toInt then old else t).toNat ∧
    new 7 = (if old.toNat ≤ t.toNat then old else t).toNat ∧ new 8 = (if old.toNat ≥ t.toNat then old else t).toNat ∧
    new 9 = (if old = c then t else old).toNat ∧ new 11 = t.toNat) ∧
  (∀ (s : State) (d a b : Reg) (scope : BitVec 3) (ord : BitVec 2) (wide : BitVec 1) (op : BitVec 4), Free s [a, b, d] → op.toNat < 10 →
    let n := if wide = 1 then 8 else 4
    let o := (s.x a).toNat % 2 ^ 21
    let p : Piece := { key := spadKey (clusterOf s.focus.tile) o, size := n, home := .near }
    let old := s.mem.nat p.key n
    let new (op : Nat) := amoNew op (8 * n) old ((s.x b).toNat % 2 ^ (8 * n)) ((s.x d).toNat % 2 ^ (8 * n))
    let returns (u : State) : State := setSeq u (fun q => { q with no := q.no + 1, loads := q.loads ++
      [{ no := q.no, d := d, pieces := [p], got := [], sgn := false, value := some (BitVec.ofNat 64 old), addr := s.x a, since := s.now, retries := 0 }] })
    let ready (stores release : Bool) : Prop := amoReady s s.focus.tile p stores release (wideScope scope.toNat) = true
    (o + n ≤ 2 ^ 21 → o % n = 0 →
      (ready true (decide (2 ≤ ord.toNat)) →
        Does s (.amos d a b scope ord wide op) (putMem (next (returns s)) (putBytes p.key (leBytes n (new op.toNat))))) ∧
      (ready false false → Free s [a, 0, d] → DoesNext s (.amoLd d a scope wide 1) (returns s)) ∧
      (ready true true →
        Does s (.amoSt a b scope wide 1) (putMem (next s) (putBytes p.key (leBytes n ((s.x b).toNat % 2 ^ (8 * n))))))) ∧
    (2 ^ 21 < o + n → Traps s (.amos d a b scope ord wide op) 6 (BitVec.ofNat 64 o) (s.x a)) ∧
    (o + n ≤ 2 ^ 21 → o % n ≠ 0 → Traps s (.amos d a b scope ord wide op) 8 (BitVec.ofNat 64 o) (s.x a))) ∧
  (∀ (s : State) (d a b : Reg) (scope : BitVec 3) (ord : BitVec 2) (wide : BitVec 1) (op : BitVec 4), Free s [a, b, d] → op.toNat < 10 →
    let n := if wide = 1 then 8 else 4
    let x := s.x a
    let t := s.focus.tile
    let ready (p : Piece) (s1 : State) (stores release : Bool) : Prop :=
      dupOf s1 p = none ∧ servable s1 (dieOf t) p = true ∧ amoReady s t p stores release (wideScope scope.toNat) = true
    let returned (u : State) (p : Piece) (v : Nat) : Prop :=
      (u.tile t).seq.loads = (sq s).loads ++
        [{ no := (sq s).no, d := d, pieces := [p], got := [], sgn := false, value := some (BitVec.ofNat 64 v), addr := x, since := s.now, retries := 0 }]
    (2 ^ 57 ≤ x.toNat → Traps s (.amo d a b scope ord wide op) 5 x x) ∧
    (x.toNat < 2 ^ 57 → x.toNat % n ≠ 0 → Traps s (.amo d a b scope ord wide op) 8 x x) ∧
    (∀ p s1, x.toNat < 2 ^ 57 → x.toNat % n = 0 → seqLv s x n true = .ok ([p], s1) → ready p s1 true (decide (2 ≤ ord.toNat)) →
      let old := s1.mem.nat p.key p.size
      let new := amoNew op.toNat (8 * p.size) old ((s.x b).toNat % 2 ^ (8 * n)) ((s.x d).toNat % 2 ^ (8 * n))
      ∃ u, Does s (.amo d a b scope ord wide op) u ∧ u.mem = s.mem.writes (putBytes p.key (leBytes p.size new)) ∧ returned u p old) ∧
    (∀ p s1, x.toNat < 2 ^ 57 → x.toNat % n = 0 → seqLv s x n true = .ok ([p], s1) → ready p s1 true true →
      ∃ u, Does s (.amoSt a b scope wide 0) u ∧ (u.tile t).seq.loads = (sq s).loads ∧
        u.mem = s.mem.writes (putBytes p.key (leBytes p.size ((s.x b).toNat % 2 ^ (8 * n))))) ∧
    (∀ p s1, x.toNat < 2 ^ 57 → x.toNat % n = 0 → seqLv s x n false = .ok ([p], s1) → ready p s1 false false → Free s [a, 0, d] →
      ∃ u, Does s (.amoLd d a scope wide 0) u ∧ u.mem = s.mem ∧ returned u p (s.mem.nat p.key p.size)))

/-- R165, R166, R68: a fence waits for the values of earlier loads, and with release also for the held stores of committed rounds that this
sequencer started, for those of them pending on a duplicated page (R61) and, at a scope wider than the die, for their requests on their way. Then it moves on: with release and a store of its own
still queued, pending on a duplicated page, or at such a scope on its way, it leaves a fence that later stores and atomics wait for (a store behind it may not leave);
else it changes nothing. -/
def Obligations.Fences : Prop :=
  ∀ (s : State) (scope : BitVec 3) (ord : BitVec 2),
    let T := here s
    let t := s.focus.tile
    let wide := decide (4 ≤ scope.toNat)
    let loads := T.seq.loads.any (fun l => l.value.isNone)
    let rounds := T.drain.any (fun h => h.bySeq) ||
      s.pkg.reqs.any (fun r => r.tile = t && r.piece.dup != 0 && r.round.any (fun w => w.bySeq)) ||
      (wide && s.pkg.reqs.any (fun r => r.tile = t && r.round.isSome))
    let stores := !T.seq.queue.isEmpty ||
      s.pkg.reqs.any (fun r => r.tile = t && r.round.isNone && r.cmd.isNone && r.piece.dup != 0) ||
      (wide && s.pkg.reqs.any (fun r => r.tile = t && r.cmd.isNone))
    (loads = true → Waits s (.fence scope ord)) ∧
    (2 ≤ ord.toNat → rounds = true → Waits s (.fence scope ord)) ∧
    (loads = false → ord.toNat < 2 → DoesNext s (.fence scope ord) s) ∧
    (loads = false → 2 ≤ ord.toNat → rounds = false → stores = false → DoesNext s (.fence scope ord) s) ∧
    (loads = false → 2 ≤ ord.toNat → rounds = false → stores = true →
      DoesNext s (.fence scope ord) (setSeq s (fun q => { q with fences := q.fences ++ [(q.no, wide)] }))) ∧
    (∀ (i : Nat) (e f : SeqStore), ∀ x ∈ T.seq.fences, t < tileCount → f ∈ T.seq.queue → f.no < x.1 → T.seq.queue[i]? = some e →
      x.1 ≤ e.no → Waits s (.storeQueueDrain t i))

/-! ### The sequencer: synchronisation and tile control -/

/-- R169: bar.init and bar.initb set kind and target and clear the count, the phase staying; bar.arr, once
what its release covers is performed (R68, R72), gives the phase before the flip of its cycle and counts one arrival, flipping the phase when
the target is reached, at most once in a cycle; bar.wait completes when the phase differs from x[b] bit 0 and waits until
then; bar.rd gives the fields; both see the phase as their cycle began, a flip of it from the next one on. R171: ev.set, as a release, sets the bit and ev.clr clears it; ev.wait completes when it is set and leaves it, ev.take clears it; both wait while it
is clear. R172, R247: tl.rd reads a timeline; tl.adv, as a release, adds to it, the chain timelines 48 to 63 being privileged; tl.wait completes when the value
waited for is serially at or before it, and waits until then. -/
def Obligations.BarriersEventsTimelines : Prop :=
  (∀ (s : State) (d a b : Reg),
    let i := (s.x a).toNat
    let n := (here s).bar i
    let flips := decide (n.target ≤ n.count + 1) && n.flipped != some s.now
    let phase := if n.flipped = some s.now then !n.phase else n.phase
    let bars (m : Bar) : State := setHere s (fun T => T.setBar i m)
    i < 1024 →
    (Free s [a, b] → 0 < (s.x b).toNat → (s.x b).toNat < 2 ^ 30 →
      DoesNext s (.barInit a b) (bars { n with bytes := false, count := 0, target := (s.x b).toNat }) ∧
      DoesNext s (.barInitb a b) (bars { n with bytes := true, count := 0, target := (s.x b).toNat })) ∧
    (Free s [d, a] → n.target ≠ 0 → n.bytes = false → released s s.focus.tile false = true →
      DoesNext s (.barArr d a) (setReg (bars (if flips
          then { n with count := n.count + 1 - n.target, phase := !n.phase, flipped := some s.now } else { n with count := n.count + 1 }))
        d (if phase then 1 else 0))) ∧
    (Free s [a, b] → (phase ≠ (s.x b).getLsbD 0 → DoesNext s (.barWait a b) s) ∧ (phase = (s.x b).getLsbD 0 → Waits s (.barWait a b))) ∧
    (Free s [d, a] → DoesNext s (.barRd d a) (setReg s d
      (BitVec.ofNat 64 (phase.toNat * 2 ^ 63 + n.bytes.toNat * 2 ^ 62 + n.count * 2 ^ 30 + n.target))))) ∧
  (∀ (s : State) (a : Reg), Free s [a] →
    let i := (s.x a).toNat
    let e := (hub s).events.get false i
    let put (v : Bool) : State := setHub s (fun K => { K with events := K.events.put i v })
    i < 256 →
    (released s s.focus.tile false = true → DoesNext s (.evSet a) (put true)) ∧ DoesNext s (.evClr a) (put false) ∧ (e = true → DoesNext s (.evWait a) s) ∧
    (e = true → DoesNext s (.evTake a) (put false)) ∧ (e = false → Waits s (.evWait a) ∧ Waits s (.evTake a))) ∧
  (∀ (s : State) (d a b : Reg),
    let i := (s.x a).toNat
    let n := (hub s).tl.get 0 i
    i < 64 →
    (Free s [d, a] → DoesNext s (.tlRd d a) (setReg s d n)) ∧
    (Free s [a, b] → (s.x b).toNat < 2 ^ 63 → (i < 48 ∨ (sq s).mode = true) → released s s.focus.tile false = true →
      DoesNext s (.tlAdv a b) (setHub s (fun K => { K with tl := K.tl.put i (n + s.x b) }))) ∧
    (Free s [a, b] → 48 ≤ i → (sq s).mode = false → Traps s (.tlAdv a b) 2 (wordOf (.tlAdv a b)) (s.x a)) ∧
    (Free s [a, b] →
      ((n - s.x b).toNat < 2 ^ 63 → DoesNext s (.tlWait a b) s) ∧ (2 ^ 63 ≤ (n - s.x b).toNat → Waits s (.tlWait a b))))

/-- R173: evq and evq.w take this tile's oldest record, copy its bytes to the scratchpad at x[a] and give its first eight; with no record
evq gives 0 and copies nothing, and evq.w waits. R178, R55: tset writes an entry with the index of the selected context and the line of x[b]; tclr clears its valid bit; tlook gives the
lowest line whose valid entry matches index and line, and 0xFFFF when none does. -/
def Obligations.EventQueueAndTagTable : Prop :=
  (∀ (s : State) (d a : Reg), Free s [d, a] → (s.x a).toNat % 64 = 0 →
    let j := s.focus.tile % 4
    let k := clusterOf s.focus.tile
    let o := (s.x a).toNat % 2 ^ 21
    (∀ r rest, (hub s).evq.get [] j = r :: rest →
      (sq s).touches { key := spadKey k o, size := 64, home := .near } = false →
      let t := putMem (next (setReg (setHub s (fun K => { K with evq := K.evq.put j rest })) d (BitVec.ofNat 64 (leNat (r.take 8)))))
        (putBytes (spadKey k o) r)
      Does s (.evq d a) t ∧ Does s (.evqW d a) t) ∧
    ((hub s).evq.get [] j = [] → DoesNext s (.evq d a) (setReg s d 0) ∧ Waits s (.evqW d a))) ∧
  (∀ (s : State) (d a b : Reg),
    let idx := (ctxHere s).ctxid.toNat % 2 ^ 14
    let line (w : Word) : Nat := w.toNat / 2 ^ 11 % 2 ^ 46
    let hit (l : Nat) : Prop :=
      let e := (hub s).tags.get 0 l
      e.getLsbD 63 = true ∧ e.toNat / 2 ^ 46 % 2 ^ 14 = idx ∧ e.toNat % 2 ^ 46 = line (s.x a)
    (Free s [a, b] → (s.x a).toNat < 1024 →
      DoesNext s (.tset a b) (setHub s (fun K =>
        { K with tags := K.tags.put (s.x a).toNat (BitVec.ofNat 64 (2 ^ 63 + idx * 2 ^ 46 + line (s.x b))) }))) ∧
    (Free s [a] → (s.x a).toNat < 1024 →
      DoesNext s (.tclr a) (setHub s (fun K =>
        { K with tags := K.tags.put (s.x a).toNat (K.tags.get 0 (s.x a).toNat &&& 0x7FFFFFFFFFFFFFFF) }))) ∧
    (Free s [d, a] →
      (∀ l, l < 1024 → hit l → (∀ m, m < l → ¬hit m) → DoesNext s (.tlook d a) (setReg s d (BitVec.ofNat 64 l))) ∧
      ((∀ l, l < 1024 → ¬hit l) → DoesNext s (.tlook d a) (setReg s d 0xFFFF))))

/-- R174, R175, R176: ctx.sel selects a context, in program mode one of the sequencer's own launch; run starts a run of the selected
context, waits while one is active, and takes the no-block trap where it holds no block; drain completes when nothing it covers is left. R185, R253: end waits until everything drain covers is done and its own accesses are performed; then the sequencer goes idle and its task
completes: it no longer runs, its mask joins the events, its barrier has one arrival more, and a final one ends the launch. What drain covers of a
port program is DEDUCED (log entry 11). -/
def Obligations.ContextControlAndEnd : Prop :=
  (∀ (s : State) (a : Reg),
    let i := (s.x a).toNat
    let loaded := (ctxHere s).block.slots.any (fun p => p.2 != 0)
    let covered := (List.range 8).any (fun c => match ((here s).ctx c).run with | some r => r.by_ == .sequencer | none => false)
    (Free s [a] →
      (i < 8 → ((sq s).mode = true ∨ ((here s).ctx i).ctxid.toNat = s.tileCtxid s.focus.tile) →
        DoesNext s (.ctxSel a) (setSeq s (fun q => { q with ctxsel := i }))) ∧
      (i < 8 → (sq s).mode = false → ((here s).ctx i).ctxid.toNat ≠ s.tileCtxid s.focus.tile →
        Traps s (.ctxSel a) 2 (wordOf (.ctxSel a)) (s.x a)) ∧
      (i < 2 ^ 32 → loaded = true → (ctxHere s).run = none →
        DoesNext s (.run a) (setCtxHere s (fun c =>
          { c with run := some { asked := i, done := 0, by_ := .sequencer, below := (sq s).fences.foldl (fun n f => max n f.1) 0 },
                   steps := [], unchecked := [] }))) ∧
      (i < 2 ^ 32 → loaded = true → (ctxHere s).run ≠ none → Waits s (.run a)) ∧
      (i < 2 ^ 32 → loaded = false → Traps s (.run a) 0x13 (BitVec.ofNat 64 (sq s).ctxsel) (s.x a))) ∧
    (drained s s.focus.tile = true → DoesNext s .drain s) ∧
    (covered = true → Waits s .drain) ∧ ((here s).drain.any (fun h => h.bySeq) = true → Waits s .drain)) ∧
  (∀ s : State,
    (drained s s.focus.tile = true → (sq s).queue = [] → (sq s).loads = [] → inFlight s s.focus.tile = false → (sq s).task = none →
      Does s .seqEnd (setSeq s (fun q => { q with phase := .idle, task := none }))) ∧
    (∀ i, drained s s.focus.tile = true → (sq s).queue = [] → (sq s).loads = [] → inFlight s s.focus.tile = false → (sq s).task = some i →
      let k := clusterOf s.focus.tile
      let x := (s.cluster k).task i
      (x.running = true → ∃ t, Does s .seqEnd t ∧ sq t = { sq s with phase := .idle, task := none } ∧ TaskCompleted s t k i (entrySet x.image) true) ∧
      (x.running = false → Does s .seqEnd (setSeq s (fun q => { q with phase := .idle, task := none })))) ∧
    (drained s s.focus.tile = false ∨ (sq s).queue ≠ [] ∨ (sq s).loads ≠ [] ∨ inFlight s s.focus.tile = true → Waits s .seqEnd))

/-- R179, R180: issue to a cluster engine appends an entry to the chain of its engine and tile, its 32 bytes as R180 lays them out, and
advances the tail and the sequence counter; with no free entry it waits. -/
def Obligations.EngineIssue : Prop :=
  ∀ (s : State) (eng : BitVec 3) (cmd : BitVec 8) (a b : Reg) (flags : BitVec 5), Free s [a, b] → 1 ≤ eng.toNat → eng.toNat ≤ 4 →
    let j := s.focus.tile % 4
    let c := (hub s).chain eng.toNat j
    let word := cmd.toNat * 2 ^ 56 + eng.toNat * 2 ^ 53 + flags.toNat * 2 ^ 48 + j * 2 ^ 46 + (sq s).mode.toNat * 2 ^ 45 + c.next % 2 ^ 32
    let bytes := leBytes 8 word ++ leBytes 8 (s.x a).toNat ++ leBytes 8 (s.x b).toNat ++ leBytes 8 0
    let at_ := spadKey (clusterOf s.focus.tile) (ringOff eng.toNat j c.tail)
    (c.next - c.first < 64 →
      Does s (.issue eng cmd a b flags) (putMem (next (setHub s (fun K => K.setChain eng.toNat j
        { c with tail := (c.tail + 1) % 64, next := c.next + 1, notes := c.notes.put c.tail ((sq s).no, none) }))) (putBytes at_ bytes))) ∧
    (64 ≤ c.next - c.first → Waits s (.issue eng cmd a b flags))

/-- R296, R297, R299: the mark commands on a declared stream: sp.hwm moves HWM and RSV to h where R296 admits it and is refused as operand
range elsewhere; sp.resv takes the next n bytes and stores the extent's start address, waiting at 64 outstanding; sp.pub of the oldest
reservation moves HWM past it; sp.rel moves a live reader's release mark, closes it if asked, is refused behind the mark and faults with
0x29 past HWM. An address without bit 63 is operand range, then a second operand
beyond its limits (R168), then an undeclared handle no mapping; a command whose packet does not reach the stream's home waits (R398). R299, R300, R304, R308: sp.cfg loads an accepted program into a port whose last one has ended; sp.rdm stores the five words of the
marks; sp.rew moves the base and the reader's cursor back and is refused past the release mark; sp.qbind binds a queue index to a
declared stream with a reader, and 0 unbinds it with the next generation. -/
def Obligations.StreamCommands : Prop :=
  (∀ (s : State) (a b : Reg) (L : Launch) (st : Stream), Free s [a, b] →
    let l := focusLaunch s
    let u := s.x a
    let v := s.x b
    let h := u.toNat / 2 ^ 48 % 2 ^ 15
    let o := u.toNat % 2 ^ 48
    let after (i : Instr) (ws : List (Nat × Byte)) (P : Stream → Prop) : Prop :=
      ∃ t st1, Does s i t ∧ t.stream l h = some st1 ∧ P st1 ∧ t.mem = s.mem.writes ws ∧ (sq t).x = (sq s).x
    (u.getLsbD 63 = false → Traps s (.spHwm a b) 0x11 u u ∧ Traps s (.spResv a b) 0x11 u u ∧ Traps s (.spPub a b) 0x11 u u ∧
      Traps s (.spRel a b) 0x11 u u ∧ Traps s (.spRdm a b) 0x11 u u) ∧
    let n := v.toNat % 2 ^ 32
    let off := v.toNat / 2 ^ 32 % 2 ^ 21
    let extentOk : Prop := v.toNat < 2 ^ 53 ∧ n ≠ 0 ∧ off % 8 = 0
    let marksOk : Prop := v.toNat % 32 = 0 ∧ v.toNat + 40 ≤ 2 ^ 21
    (u.getLsbD 63 = true →
      (v ≠ 0 → Traps s (.spHwm a b) 0x11 v u) ∧ (¬extentOk → Traps s (.spResv a b) 0x11 v u) ∧ (16 ≤ v.toNat → Traps s (.spRel a b) 0x11 v u) ∧
      (¬marksOk → Traps s (.spRdm a b) 0x11 v u)) ∧
    (u.getLsbD 63 = true → s.stream l h = none → (v = 0 → Traps s (.spHwm a b) 9 u u) ∧ (extentOk → Traps s (.spResv a b) 9 u u) ∧
      Traps s (.spPub a b) 9 u u ∧ (v.toNat < 16 → Traps s (.spRel a b) 9 u u) ∧ (marksOk → Traps s (.spRdm a b) 9 u u)) ∧
    (u.getLsbD 63 = true → (s.stream l h).isSome = true → streamReached s (some (dieOf s.focus.tile)) l = false →
      Waits s (.spPub a b) ∧ (v = 0 → Waits s (.spHwm a b)) ∧ (extentOk → Waits s (.spResv a b)) ∧ (v.toNat < 16 → Waits s (.spRel a b)) ∧
      (marksOk → Waits s (.spRdm a b))) ∧
    let released_ := released s s.focus.tile (wideScope st.scope) = true
    let clear (off n : Nat) : Prop := (sq s).touches { key := spadKey (clusterOf s.focus.tile) off, size := n, home := .near } = false
    (u.getLsbD 63 = true → s.launch l = some L → L.streams.find h = some st → streamReached s (some (dieOf s.focus.tile)) l = true →
      (v = 0 →
        (released_ → st.rsv = st.hwm ∧ serialLe 48 st.hwm o = true ∧ gap o st.tf ≤ st.extent →
          after (.spHwm a b) [] (fun st1 => st1.hwm = o ∧ st1.rsv = o ∧ st1.readers = st.readers)) ∧
        (¬(st.rsv = st.hwm ∧ serialLe 48 st.hwm o = true ∧ gap o st.tf ≤ st.extent) → Traps s (.spHwm a b) 0x11 u u)) ∧
      (extentOk → n ≤ st.extent →
        ((st.resvs.filter (fun r => !r.published)).length < 64 → clear off 8 →
          after (.spResv a b) (putBytes (spadKey (clusterOf s.focus.tile) off) (leBytes 8 (2 ^ 63 + h * 2 ^ 48 + st.rsv % 2 ^ 48)))
            (fun st1 => st1.rsv = (st.rsv + n) % 2 ^ 48 ∧ st1.hwm = st.hwm ∧
              st1.resvs = st.resvs ++ [{ start := st.rsv, size := n, published := false }])) ∧
        (64 ≤ (st.resvs.filter (fun r => !r.published)).length → Waits s (.spResv a b))) ∧
      (∀ rest, st.resvs = { start := o, size := v.toNat, published := false } :: rest → st.hwm = o → released_ →
        (∀ r ∈ rest, r.published = false ∧ (r.start ≠ o ∨ r.size ≠ v.toNat)) →
        after (.spPub a b) [] (fun st1 => st1.hwm = (o + v.toNat) % 2 ^ 48 ∧ st1.rsv = st.rsv ∧ st1.resvs = rest)) ∧
      ((∀ r ∈ st.resvs, r.published = true ∨ r.start ≠ o ∨ r.size ≠ v.toNat) → Traps s (.spPub a b) 0x11 u u) ∧
      (∀ r, v.toNat < 16 → st.readers.find (v.toNat % 8) = some r → r.live = true → serialLt 48 o r.release = false →
        (serialLe 48 o st.hwm = true →
          after (.spRel a b) [] (fun st1 => st1.hwm = st.hwm ∧
            ∃ r1, st1.readers.find (v.toNat % 8) = some r1 ∧ r1.release = o ∧ (r1.live = true ↔ v.toNat < 8) ∧
              r1.cursor = (if serialLt 48 r.cursor o then o else r.cursor))) ∧
        (serialLe 48 o st.hwm = false → Traps s (.spRel a b) 0x29 u u)) ∧
      (∀ r, v.toNat < 16 → st.readers.find (v.toNat % 8) = some r → r.live = false ∨ serialLt 48 o r.release = true →
        Traps s (.spRel a b) 0x11 u u))) ∧
  (∀ (s : State) (a b : Reg) (L : Launch) (st : Stream), Free s [a, b] →
    let l := focusLaunch s
    let u := s.x a
    let v := s.x b
    let k := clusterOf s.focus.tile
    let T := here s
    let reached : Prop := streamReached s (some (dieOf s.focus.tile)) l = true
    (let img := s.mem.bytes (spadKey k u.toNat) 64
     let g := parsePort img
     let P := T.port v.toNat
     u.toNat % 64 = 0 → u.toNat + 64 ≤ 2 ^ 21 → v.toNat < 4 → (sq s).queue = [] → portOk s l img = true → T.round = none →
       P.loan = false → P.delivered = 0 → P.starved = 0 → writePending s s.focus.tile = false →
       (P.ended = true → ∃ P1, DoesNext s (.spCfg a b) (setHere s (fun T => T.setPort v.toNat P1)) ∧ P1.prog = some g ∧ P1.bySeq = true ∧
         P1.c = 0 ∧ P1.issued = 0 ∧ P1.buf = [] ∧ P1.committed = [] ∧ P1.fault = none) ∧
       (P.ended = false → Waits s (.spCfg a b))) ∧
    (let h := u.toNat / 2 ^ 48 % 2 ^ 15
     let o := v.toNat
     let q := match st.queue with | some i => queueHandle s L.home i | none => 0
     u.getLsbD 63 = true → s.launch l = some L → L.streams.find h = some st → reached → o % 32 = 0 → o + 40 ≤ 2 ^ 21 →
       (sq s).touches { key := spadKey k o, size := 40, home := .near } = false →
       Does s (.spRdm a b) (putMem (next s) (putBytes (spadKey k o)
         (leBytes 8 st.hwm ++ leBytes 8 st.rsv ++ leBytes 8 st.tail ++ leBytes 8 st.extent ++ leBytes 8 q)))) ∧
    (∀ g r, let P := T.port u.toNat
      let h := streamHandle g.base
      let cur := if P.c = 0 then streamOff (g.addr 0) else (streamOff (g.addr (P.c - 1)) + eszBytes g.esz) % 2 ^ 48
      u.toNat < 4 → v.toNat ≤ 2 ^ 40 → reached → P.prog = some g → g.write = false → g.isStream = true → T.round = none →
      s.launch l = some L → L.streams.find h = some st → st.readers.find g.rdr = some r →
      (serialLt 48 (gap cur v.toNat) r.release = false →
        ∃ t st1 P1, Does s (.spRew a b) t ∧ t.stream l h = some st1 ∧ st1.readers = st.readers.put g.rdr { r with cursor := gap cur v.toNat } ∧
          (here t).port u.toNat = P1 ∧ P1.toks = [] ∧ P1.issued = P.c ∧ P1.c = P.c ∧
          P1.prog = some { g with base := streamAdd g.base (0 - BitVec.ofNat 64 v.toNat) }) ∧
      (serialLt 48 (gap cur v.toNat) r.release = true → Traps s (.spRew a b) 0x11 v u)) ∧
    (let i := u.toNat
     let h := v.toNat / 2 ^ 48 % 2 ^ 15
     let Q := (s.die L.home).queues.get Queue.reset i
     i < 4096 → s.launch l = some L → reached →
       (v.getLsbD 63 = true → L.streams.find h = some st → st.readers ≠ [] → Q.retired = false → (Q.bound = none ∨ Q.bound = some (l, h)) →
         ∃ t, Does s (.spQbind a b) t ∧ (t.die L.home).queues.get Queue.reset i = { Q with bound := some (l, h) } ∧
           t.stream l h = some { st with queue := some i }) ∧
       (v.getLsbD 63 = true → L.streams.find h = some st → (st.readers = [] ∨ (∃ x, Q.bound = some x ∧ x ≠ (l, h))) →
         Traps s (.spQbind a b) 0x11 u u) ∧
       (Q.retired = true → Traps s (.spQbind a b) 0x11 u u) ∧
       (∀ h1, v = 0 → Q.retired = false → Q.bound = some (l, h1) → ∃ t, Does s (.spQbind a b) t ∧
         (t.die L.home).queues.get Queue.reset i =
           (if Q.gen = 1023 then { Q with bound := none, retired := true } else { Q with bound := none, gen := Q.gen + 1 }))))

/-! ### The fabric -/

/-- R216, R223, R225: the tokens of the moves, the selectors, the 512-bit operations and the lane moves. R218: the results of the integer opcodes for every integer type, the division corners of R147 and the saturation of R108 among
them; no integer opcode rounds, and only the saturating two raise a flag. -/
def Obligations.FabricIntegerResults : Prop :=
  (∀ (s : State) (f : FabWord) (e : Fab) (h : Held3),
    let w := codeWidth (typeOf f)
    let l := h.l.bits
    let r := h.r.bits
    let sends (op : Nat) (i : Instr) (k : Kind) (b : Vec) : Prop := FiresOn s op f e h → Sends s i (e.consume.note 0 e.sto) (dataTok k b h.deps)
    let first : Bool := (h.pred.getD (bitTok false [])).bits.getLsbD 0
    sends 0x01 (.fabMov f) .scalar ((l.truncate 64).zeroExtend 512) ∧ sends 0x07 (.fabVmov f) .vector l ∧
    sends 0x05 (.fabSel f) .scalar (((if first then l else r).truncate 64).zeroExtend 512) ∧
    sends 0x06 (.fabVsel f) .vector (if first then l else r) ∧
    sends 0x4F (.fabVand f) .vector (l &&& r) ∧ sends 0x50 (.fabVor f) .vector (l ||| r) ∧ sends 0x51 (.fabVxor f) .vector (l ^^^ r) ∧
    sends 0x4B (.fabVext f) .scalar (widen (typeOf f) (if f.imm.toNat % 128 < 512 / w then laneAt w l (f.imm.toNat % 128) else 0)) ∧
    (∀ b : Vec, (∀ i, i < 512 / w → laneAt w b i = laneAt w l 0) → sends 0x4A (.fabVbcast f) .vector b) ∧
    (∀ b : Vec, (∀ i, i < 512 / w → laneAt w b i = if i = f.imm.toNat % 128 then laneAt w r 0 else laneAt w l i) →
      sends 0x4C (.fabVins f) .vector b)) ∧
  (∀ (s : State) (f : FabWord) (e : Fab) (h : Held3), typeOf f < 8 →
    let c := typeOf f
    let w := codeWidth c
    let x := h.l.low w
    let y := h.r.low w
    let a := intOf c x
    let b := intOf c y
    let gives (op : Nat) (i : Instr) (v : Int) (fl : Flags) : Prop :=
      FiresOn s op f e h → Sends s i (e.consume.note fl e.sto) (dataTok .scalar (widen c (v % 2 ^ w).toNat) h.deps)
    let lo : Int := if codeSigned c then -2 ^ (w - 1) else 0
    let hi : Int := if codeSigned c then 2 ^ (w - 1) - 1 else 2 ^ w - 1
    let corner : Prop := codeSigned c = true ∧ a = lo ∧ b = -1
    let clamp (v : Int) : Int := if v < lo then lo else if v > hi then hi else v
    let clampFlag (v : Int) : Flags := if v < lo ∨ v > hi then flNV else 0
    gives 0x10 (.fabAdd f) (a + b) 0 ∧ gives 0x11 (.fabSub f) (a - b) 0 ∧
    gives 0x12 (.fabAddi f) (a + (f.imm.signExtend 64).toInt) 0 ∧ gives 0x13 (.fabMul f) (a * b) 0 ∧
    gives 0x14 (.fabMulh f) (a * b / 2 ^ w) 0 ∧
    gives 0x15 (.fabDiv f) (if b = 0 then (if a = 0 then 0 else if a > 0 then hi else lo) else if corner then hi else a.tdiv b) 0 ∧
    gives 0x16 (.fabRem f) (if b = 0 then a else if corner then -1 else a.tmod b) 0 ∧
    gives 0x17 (.fabAnd f) ((x &&& y : Nat) : Int) 0 ∧ gives 0x18 (.fabOr f) ((x ||| y : Nat) : Int) 0 ∧
    gives 0x19 (.fabXor f) ((x ^^^ y : Nat) : Int) 0 ∧ gives 0x1A (.fabShl f) (a * 2 ^ (y % w)) 0 ∧
    gives 0x1B (.fabShr f) (a / 2 ^ (y % w)) 0 ∧ gives 0x1C (.fabMin f) (if a ≤ b then a else b) 0 ∧
    gives 0x1D (.fabMax f) (if a ≥ b then a else b) 0 ∧ gives 0x1E (.fabAbs f) (if a < 0 then -a else a) 0 ∧
    gives 0x1F (.fabNeg f) (-a) 0 ∧
    gives 0x20 (.fabClz f) (((List.range w).takeWhile (fun i => !x.testBit (w - 1 - i))).length : Int) 0 ∧
    gives 0x21 (.fabCtz f) (((List.range w).takeWhile (fun i => !x.testBit i)).length : Int) 0 ∧
    gives 0x22 (.fabPopc f) (((List.range w).filter (fun i => x.testBit i)).length : Int) 0 ∧
    gives 0x23 (.fabAdds f) (clamp (a + b)) (clampFlag (a + b)) ∧ gives 0x24 (.fabSubs f) (clamp (a - b)) (clampFlag (a - b)) ∧
    (c = 0 → gives 0x25 (.fabSadd f) ((x / 2 ^ 48 * 2 ^ 48 + (x + y) % 2 ^ 48 : Nat) : Int) 0))

/-- R219: the bit of every compare, integers by value as the type is signed, floats by value with a NaN unequal and unordered, NV for a
signalling NaN in all four and for any NaN in clt and cle; and of every predicate operation. R220, R221, R104, R107: the scalar float opcodes give the rounding of the exact result, drawing one stochastic word where the rounding
mode does; fmin and fmax take the other operand where one is a NaN; fabs and fneg change the sign bit and give the canonical NaN
for a NaN. -/
def Obligations.FabricFloatResults : Prop :=
  (∀ (s : State) (f : FabWord) (e : Fab) (h : Held3),
    let c := typeOf f
    let w := codeWidth c
    let bit (op : Nat) (i : Instr) (v : Bool) (fl : Flags) : Prop :=
      FiresOn s op f e h → Sends s i (e.consume.note fl e.sto) (bitTok v h.deps)
    let a := intOf c (h.l.low w)
    let b := intOf c (h.r.low w)
    let p := h.l.bits.getLsbD 0
    let q := h.r.bits.getLsbD 0
    (c < 8 → bit 0x28 (.fabCeq f) (decide (a = b)) 0 ∧ bit 0x29 (.fabCne f) (decide (a ≠ b)) 0 ∧ bit 0x2A (.fabClt f) (decide (a < b)) 0 ∧
      bit 0x2B (.fabCle f) (decide (a ≤ b)) 0) ∧
    (∀ fm, fmtOf c = some fm →
      let u := decodeFmt fm (h.l.low w)
      let v := decodeFmt fm (h.r.low w)
      let nan := u.isNan || v.isNan
      let quiet := flIf (u.isSnan || v.isSnan) flNV
      let loud := flIf nan flNV
      bit 0x28 (.fabCeq f) (!nan && veq u v) quiet ∧ bit 0x29 (.fabCne f) (nan || !veq u v) quiet ∧
      bit 0x2A (.fabClt f) (!nan && vlt u v) loud ∧ bit 0x2B (.fabCle f) (!nan && (vlt u v || veq u v)) loud) ∧
    bit 0x2C (.fabPand f) (p && q) 0 ∧ bit 0x2D (.fabPor f) (p || q) 0 ∧ bit 0x2E (.fabPnot f) (!p) 0 ∧ bit 0x2F (.fabPxor f) (p != q) 0) ∧
  (∀ (s : State) (f : FabWord) (e : Fab) (h : Held3) (fm : Fmt), fmtOf (typeOf f) = some fm → 8 ≤ typeOf f → typeOf f ≤ 11 →
    let c := typeOf f
    let x := h.l.low fm.width
    let y := h.r.low fm.width
    let a := decodeFmt fm x
    let b := decodeFmt fm y
    let mode := rndOf f
    let gives (op : Nat) (i : Instr) (v : Nat) (fl : Flags) (z : Word) : Prop :=
      FiresOn s op f e h → Sends s i (e.consume.note fl z) (dataTok .scalar (widen c v) h.deps)
    let word : Word := if drawsWords f then mix64 (drawState e.sto 1) else 0
    let z : Word := if drawsWords f then drawState e.sto 1 else e.sto
    let rounds (op : Nat) (i : Instr) (v : Val × Flags) : Prop :=
      gives op i (round fm v.1 mode word).1 (v.2 ||| (round fm v.1 mode word).2) z
    let sgn := 2 ^ (fm.width - 1)
    let snan := flIf (a.isSnan || b.isSnan) flNV
    let less := vlt a b || (veq a b && a.sign && !b.sign)
    rounds 0x30 (.fabFadd f) (vadd a b (effMode fm mode)) ∧ rounds 0x31 (.fabFsub f) (vadd a b.neg (effMode fm mode)) ∧
    rounds 0x32 (.fabFmul f) (vmul a b) ∧ rounds 0x35 (.fabFdiv f) (vdiv a b) ∧ rounds 0x36 (.fabFsqrt f) (vsqrt a) ∧
    rounds 0x37 (.fabFrcp f) (vdiv (Val.ofInt 1) a) ∧
    gives 0x38 (.fabFmin f) (if a.isNan && b.isNan then fm.nanBits else if a.isNan then y else if b.isNan then x else if less then x else y)
      snan e.sto ∧
    gives 0x39 (.fabFmax f) (if a.isNan && b.isNan then fm.nanBits else if a.isNan then y else if b.isNan then x else if less then y else x)
      snan e.sto ∧
    gives 0x3A (.fabFabs f) (if a.isNan then fm.nanBits else x % sgn) 0 e.sto ∧
    gives 0x3B (.fabFneg f) (if a.isNan then fm.nanBits else if x < sgn then x + sgn else x - sgn) 0 e.sto ∧
    gives 0x3C (.fabFexp2 f) (fexp2 fm c x).1 (fexp2 fm c x).2 e.sto ∧ gives 0x3D (.fabFlog2 f) (flog2 fm c x).1 (flog2 fm c x).2 e.sto)

/-- R222, R224, R227, R107: a fused opcode adds the exact product of each lane to its addend. A register addend is rounded once; the
running value is rounded into the widened range and kept, and what is sent is its rounding; a stop of a level that the word resets
at clears it. The same for the negated product, the scaled partial sums and the vector forms. -/
def Obligations.FusedResults : Prop :=
  ∀ (s : State) (f : FabWord) (e : Fab) (h : Held3) (fm : Fmt), fmtOf (typeOf f) = some fm → 8 ≤ typeOf f → typeOf f ≤ 11 →
    let c := typeOf f
    let w := fm.width
    let mode := rndOf f
    let scalar (l r : Val) (fn : Val → Val → Val × Flags) (op : Nat) (i : Instr) : Prop :=
      let p := fn l r
      let draw (n : Nat) : Word := if drawsWords f then mix64 (drawState e.sto n) else 0
      let after (n : Nat) : Word := if drawsWords f then drawState e.sto n else e.sto
      FiresOn s op f e h →
        (f.imm.toNat / 2 ^ 24 % 8 = 1 →
          let x := vadd p.1 (decodeFmt fm ((e.T.g.get 0 (f.imm.toNat % 64)).toNat % 2 ^ w)) (effMode fm mode)
          let q := round fm x.1 mode (draw 1)
          Sends s i (e.consume.note (p.2 ||| x.2 ||| q.2) (after 1)) (dataTok .scalar (widen c q.1) h.deps)) ∧
        (f.imm.toNat / 2 ^ 24 % 8 ≠ 1 →
          let x := vadd p.1 ((e.st.acc.map Val.held).headD .zero) (effMode fm mode)
          let q := roundAcc fm x.1 mode (draw 1)
          let y := round fm q.1 mode (draw 2)
          ∃ fl, (∀ k, fl.getLsbD k = (p.2.getLsbD k || x.2.getLsbD k || q.2.getLsbD k || y.2.getLsbD k)) ∧
            Sends s i ((e.consume.setSt { e.st with acc := [q.1.hold] }).note fl (after 2)) (dataTok .scalar (widen c y.1) h.deps))
    let vector (ps : List (Val × Val)) (op : Nat) (i : Instr) : Prop :=
      FiresOn s op f e h →
        (f.imm.toNat / 2 ^ 24 % 8 = 1 →
          let q := regLanes c mode vmul ((lanesOf w (e.T.v.get 0 (f.imm.toNat % 16)).toNat).map (decodeFmt fm)) ps e.sto
          Sends s i (e.consume.note q.2.1 q.2.2) (dataTok .vector (packLanes w q.1) h.deps)) ∧
        (f.imm.toNat / 2 ^ 24 % 8 ≠ 1 →
          let q := runLanes c mode vmul (e.st.acc.map Val.held) ps e.sto
          Sends s i ((e.consume.setSt { e.st with acc := q.2.2.2.map Val.hold }).note q.2.1 q.2.2.1) (dataTok .vector (packLanes w q.1) h.deps))
    let resets (op : Nat) (i : Instr) : Prop := ∀ k, FiresRow s op f e h (.stop k) →
      let reset := f.imm.toNat / 2 ^ 21 % 8
      let e1 := if reset ≠ 0 ∧ reset ≤ k then e.consume.setSt { e.st with acc := [] } else e.consume
      Acts s i (e1.emitStop k h.deps)
    let a := decodeFmt fm (h.l.low w)
    let b := decodeFmt fm (h.r.low w)
    let part := codeVal (f.imm.toNat / 64 % 16) (h.l.low (codeWidth (f.imm.toNat / 64 % 16)))
    let lanes (t : Tok) (g : Nat → Val) : List Val := (lanesOf w t.bits.toNat).map g
    scalar a b vmul 0x33 (.fabFma f) ∧ scalar a b (fun u v => ((vmul u v).1.neg, (vmul u v).2)) 0x34 (.fabFnma f) ∧
    (c ≤ 9 → scalar b part vmul 0x62 (.fabScacc f)) ∧
    vector ((lanes h.l (decodeFmt fm)).zip (lanes h.r (decodeFmt fm))) 0x43 (.fabVfma f) ∧
    (c ≤ 9 → vector ((lanes h.r (decodeFmt fm)).zip (lanes h.l (codeVal (f.imm.toNat / 64 % 16)))) 0x63 (.fabVscacc f)) ∧
    resets 0x33 (.fabFma f) ∧ resets 0x34 (.fabFnma f) ∧ resets 0x43 (.fabVfma f) ∧ resets 0x62 (.fabScacc f) ∧ resets 0x63 (.fabVscacc f)

/-- R223, R224, R107: a lane-wise vector opcode gives in each lane what its scalar rule gives on the operands' lanes, the i-th lane drawing
the i-th stochastic word where the mode draws, and raises the flags of all lanes. -/
def Obligations.LaneResults : Prop :=
  ∀ (s : State) (f : FabWord) (e : Fab) (h : Held3),
    let c := typeOf f
    let w := codeWidth c
    let fm := fmtFor c
    let n := 512 / w
    let mode := rndOf f
    let x := laneAt w h.l.bits
    let y := laneAt w h.r.bits
    let gives (op : Nat) (i : Instr) (draws : Bool) (rule : Nat → Word → Nat × Flags) : Prop :=
      let lane (k : Nat) : Nat × Flags := rule k (if draws then mix64 (drawState e.sto (k + 1)) else 0)
      FiresOn s op f e h → ∃ (b : Vec) (fl : Flags),
        (∀ k, k < n → laneAt w b k = (lane k).1 % 2 ^ w) ∧
        (∀ m, m < 6 → (fl.getLsbD m = true ↔ ∃ k, k < n ∧ (lane k).2.getLsbD m = true)) ∧
        Sends s i (e.consume.note fl (if draws then drawState e.sto n else e.sto)) (dataTok .vector b h.deps)
    let ints (op : Nat) (i : Instr) (v : Int → Int → Int) : Prop :=
      c < 8 → gives op i false (fun k _ => ((v (intOf c (x k)) (intOf c (y k)) % 2 ^ w).toNat, 0))
    let floats (op : Nat) (i : Instr) (v : Val → Val → Val × Flags) : Prop :=
      8 ≤ c → c ≤ 11 → gives op i (drawsWords f) (fun k r =>
        let q := v (decodeFmt fm (x k)) (decodeFmt fm (y k))
        ((round fm q.1 mode r).1, q.2 ||| (round fm q.1 mode r).2))
    let pure_ (op : Nat) (i : Instr) (v : Nat → Nat → Nat × Flags) : Prop := 8 ≤ c → c ≤ 11 → gives op i false (fun k _ => v (x k) (y k))
    let mask (which : Nat) (op : Nat) (i : Instr) : Prop :=
      c ≤ 11 → gives op i false (fun k _ => (if (compareCode c which (x k) (y k)).1 then 2 ^ w - 1 else 0, (compareCode c which (x k) (y k)).2))
    ints 0x40 (.fabVadd f) (fun a b => a + b) ∧ ints 0x41 (.fabVsub f) (fun a b => a - b) ∧ ints 0x42 (.fabVmul f) (fun a b => a * b) ∧
    ints 0x44 (.fabVmin f) (fun a b => if a ≤ b then a else b) ∧ ints 0x45 (.fabVmax f) (fun a b => if a ≥ b then a else b) ∧
    ints 0x46 (.fabVabs f) (fun a _ => if a < 0 then -a else a) ∧ ints 0x47 (.fabVneg f) (fun a _ => -a) ∧
    floats 0x40 (.fabVadd f) (fun a b => vadd a b (effMode fm mode)) ∧ floats 0x41 (.fabVsub f) (fun a b => vadd a b.neg (effMode fm mode)) ∧
    floats 0x42 (.fabVmul f) vmul ∧ floats 0x55 (.fabVrcp f) (fun a _ => vdiv (Val.ofInt 1) a) ∧
    pure_ 0x44 (.fabVmin f) (minMax c false) ∧ pure_ 0x45 (.fabVmax f) (minMax c true) ∧
    pure_ 0x46 (.fabVabs f) (fun a _ => (if (decodeFmt fm a).isNan then fm.nanBits else a % 2 ^ (w - 1), 0)) ∧
    pure_ 0x47 (.fabVneg f) (fun a _ => (if (decodeFmt fm a).isNan then fm.nanBits else (a + 2 ^ (w - 1)) % 2 ^ w, 0)) ∧
    pure_ 0x54 (.fabVexp2 f) (fun a _ => fexp2 fm c a) ∧
    (c < 8 → gives 0x52 (.fabVshl f) false (fun k _ => (x k * 2 ^ (y k % w), 0)) ∧
      gives 0x53 (.fabVshr f) false (fun k _ => ((intOf c (x k) / 2 ^ (y k % w) % 2 ^ w).toNat, 0))) ∧
    mask 0 0x4D (.fabVceq f) ∧ mask 2 0x4E (.fabVclt f)

/-- R225, R226, R111: the horizontal sum and maximum over the lanes, the sum of a float type by the pairwise tree of R112, and the
conversions of a scalar and of the part of a vector that the word names, element by element. -/
def Obligations.ReductionAndConversionResults : Prop :=
  ∀ (s : State) (f : FabWord) (e : Fab) (h : Held3),
    let c := typeOf f
    let w := codeWidth c
    let src := f.imm.toNat % 16
    let mode := rndOf f
    let sends (op : Nat) (i : Instr) (k : Kind) (b : Vec) (fl : Flags) (z : Word) : Prop :=
      FiresOn s op f e h → Sends s i (e.consume.note fl z) (dataTok k b h.deps)
    let x := laneAt w h.l.bits
    let word : Word := if drawsWords f then mix64 (drawState e.sto 1) else 0
    let z : Word := if drawsWords f then drawState e.sto 1 else e.sto
    (c < 8 → sends 0x48 (.fabVhsum f) .scalar (widen c (((List.range (512 / w)).map (fun i => intOf c (x i))).sum % 2 ^ w).toNat) 0 e.sto) ∧
    (8 ≤ c → c ≤ 11 → let q := treeSum (fmtFor c) mode 8 ((List.range (512 / w)).map (fun i => decodeFmt (fmtFor c) (x i))) e.sto
      sends 0x48 (.fabVhsum f) .scalar (widen c q.1) q.2.1 q.2.2) ∧
    (c < 8 → ∀ m, m < 512 / w → (∀ i, i < 512 / w → intOf c (x i) ≤ intOf c (x m)) →
      sends 0x49 (.fabVhmax f) .scalar (widen c (x m)) 0 e.sto) ∧
    (8 ≤ c → c ≤ 11 → sends 0x49 (.fabVhmax f) .scalar (widen c (hmax c h.l.bits.toNat).1) (hmax c h.l.bits.toNat).2 e.sto) ∧
    (src ≤ 0xD → c ≤ 0xD → let q := convert c src (h.l.low (codeWidth src)) mode word
      sends 0x60 (.fabCvt f) .scalar (widen c q.1) q.2 z) ∧
    (src = 0xF → c = 8 ∨ c = 9 → let q := codeRound c (bndVal (BitVec.ofNat 16 (h.l.low 16))) mode word
      sends 0x60 (.fabCvt f) .scalar (widen c q.1) q.2 z) ∧
    (src ≤ 0xE → c ≤ 0xD →
      let part := f.imm.toNat / 16 % 8
      let ns := codeLanes src
      let nd := codeLanes c
      let n := min ns nd
      let from_ := if nd ≤ ns then part * nd else 0
      let to_ (k : Nat) : Nat := if nd ≤ ns then k else part * ns + k
      let q4x := q4xDecode (lanesOf 8 h.l.bits.toNat)
      let conv (k : Nat) : Nat × Flags :=
        let r := if drawsWords f then mix64 (drawState e.sto (k + 1)) else 0
        if src = 0xE then codeRound c (q4x.1.getD (from_ + k) .zero) mode r
        else convert c src (laneAt (codeWidth src) h.l.bits (from_ + k)) mode r
      part * n + n ≤ max ns nd →
      ∃ (b : Vec) (fl : Flags), sends 0x61 (.fabVcvt f) .vector b fl (if drawsWords f then drawState e.sto n else e.sto) ∧
        (∀ k, k < n → laneAt w b (to_ k) = (conv k).1 % 2 ^ w) ∧
        (∀ i, i < nd → (∀ k, k < n → i ≠ to_ k) → laneAt w b i = 0) ∧
        (∀ m, m < 6 → (fl.getLsbD m = true ↔ (src = 0xE ∧ q4x.2.getLsbD m = true) ∨ ∃ k, k < n ∧ (conv k).2.getLsbD m = true)))

/-- R203, R216, R217, R242, R243, R244: const, grd and vrd send their one token of the round; exit counts and ends the run on a data token
with its end bit or a stop of its level; null sends nulls; bar holds one arrival and sends its bit. R228 to R232: the stop operators: stop turns data into a stop of its level and passes stops on; slvl tells whether a stop reaches its
level; ordt sends 1; sgate keeps the last data token and scount the count until a stop of their level. A null makes the first three
send null and leaves the state of the others; a refused predicate only consumes the token. -/
def Obligations.StopAndSourceNodes : Prop :=
  (∀ (s : State) (f : FabWord) (e : Fab),
    let c := typeOf f
    let w := codeWidth c
    let sends (op : Nat) (i : Instr) (k : Kind) (b : Vec) : Prop :=
      AtWork s op f e → e.st.active = false → e.space = true → Sends s i (e.setSt { e.st with active := true }) (dataTok k b [])
    let v : Int :=
      if c = 8 then f.imm.toNat * 2 ^ 34 else if c = 9 then f.imm.toNat * 4 else if c = 10 ∨ c = 11 then f.imm.toNat % 2 ^ 16
      else if c = 12 ∨ c = 13 then f.imm.toNat % 2 ^ 8 else if c < 4 then (f.imm.signExtend 64).toInt else f.imm.toNat
    (c ≤ 13 → sends 0x02 (.fabConst f) .scalar (widen c (v % 2 ^ w).toNat)) ∧
    sends 0x03 (.fabGrd f) .scalar ((e.T.g.get 0 (f.imm.toNat % 64)).zeroExtend 512) ∧
    sends 0x04 (.fabVrd f) .vector (e.T.v.get 0 (f.imm.toNat % 16)) ∧
    (∀ op i, (op, i) ∈ [(0x02, Instr.fabConst f), (0x03, .fabGrd f), (0x04, .fabVrd f)] → AtWork s op f e → e.st.active = true → Waits s i) ∧
    (∀ h, AtWork s 0x90 f e → e.operands = some h →
      let null := (h.vals ++ h.pred.toList).any (·.null)
      let refused := refuses f 0x90 h.pred
      let ends := if h.l.level = 0 then f.imm.getLsbD 3 else decide (f.imm.toNat % 8 ≠ 0 ∧ f.imm.toNat % 8 ≤ h.l.level)
      (h.pred.any (·.null) = false → refused = true → Does s (.fabExit f) e.consume.done) ∧
      (h.pred.any (·.null) = true ∨ refused = false → e.r.fired.contains e.slot = true → ∃ v, FabricFaults s (.fabExit f) 0x23 v none) ∧
      (h.pred.any (·.null) = true ∨ refused = false → e.r.fired.contains e.slot = false →
        Does s (.fabExit f) (Fab.done { e.consume with r :=
          { e.consume.r with ends := e.r.ends || (!null && ends), fired := e.r.fired ++ [e.slot] } }))) ∧
    (∀ h, FiresOn s 0x91 f e h → Acts s (.fabNull f) (e.consume.emitNull h.deps)) ∧
    (∀ h, FiresOn s 0x92 f e h → e.r.fired.contains e.slot = true → ∃ v, FabricFaults s (.fabBar f) 0x23 v none) ∧
    (∀ h, FiresOn s 0x92 f e h → e.r.fired.contains e.slot = false →
      Acts s (.fabBar f) (Fab.send { e.consume with r :=
        { e.consume.r with fired := e.r.fired ++ [e.slot], bars := e.r.bars ++ [f.imm.toNat % 1024] } } 1 (bitTok true h.deps)))) ∧
  (∀ (s : State) (f : FabWord) (e : Fab) (h : Held3),
    let k := f.imm.toNat % 8
    let kind : Kind := if f.imm.getLsbD 3 then .vector else .scalar
    let null := (h.vals ++ h.pred.toList).any (·.null)
    let ready (op : Nat) : Prop := AtWork s op f e ∧ e.operands = some h ∧ e.space = true
    let takes (op : Nat) : Prop := ready op ∧ null = false ∧ refuses f op h.pred = false
    let j := h.l.level
    (takes 0x68 → Sends s (.fabStop f) e.consume (stopTok kind (if j = 0 then k else j) h.deps)) ∧
    (takes 0x69 → Sends s (.fabSlvl f) e.consume (bitTok (decide (k ≤ j)) h.deps)) ∧
    (takes 0x6C → Sends s (.fabOrdt f) e.consume (bitTok true h.deps)) ∧
    (takes 0x6A →
      (j = 0 → Does s (.fabSgate f) (e.consume.setSt { e.st with held := some { h.l with deps := h.deps } }).done) ∧
      (j ≠ 0 → j < k → Does s (.fabSgate f) e.consume.done) ∧
      (j ≠ 0 → k ≤ j → (∀ d, e.st.held = some d →
          Sends s (.fabSgate f) (e.consume.setSt { e.st with held := none }) { d with deps := unionDeps d.deps h.deps }) ∧
        (e.st.held = none → Acts s (.fabSgate f) ((e.consume.setSt { e.st with held := none }).emitNull h.deps)))) ∧
    (takes 0x6B →
      (j = 0 → Does s (.fabScount f) (e.consume.setSt { e.st with n := e.st.n + 1, deps := unionDeps e.st.deps h.deps }).done) ∧
      (j ≠ 0 → j < k → Does s (.fabScount f) e.consume.done) ∧
      (j ≠ 0 → k ≤ j → Sends s (.fabScount f) (e.consume.setSt { e.st with n := 0, deps := [] })
        (dataTok .scalar (BitVec.ofNat 512 (e.st.n % 2 ^ 64)) (unionDeps e.st.deps h.deps)))) ∧
    (∀ op i, (op, i) ∈ [(0x68, Instr.fabStop f), (0x69, .fabSlvl f), (0x6C, .fabOrdt f)] → ready op → null = true →
      Acts s i (e.consume.emitNull h.deps)) ∧
    (∀ op i, (op, i) ∈ [(0x6A, Instr.fabSgate f), (0x6B, .fabScount f)] → ready op → null = true → Does s i e.consume.done) ∧
    (∀ op i, (op, i) ∈ [(0x68, Instr.fabStop f), (0x69, .fabSlvl f), (0x6C, .fabOrdt f), (0x6A, .fabSgate f), (0x6B, .fabScount f)] →
      ready op → null = false → refuses f op h.pred = true → Does s i e.consume.done))

/-- R233 to R235, R42, R56: a load node issues a request for its size at its address, in the space that bit 63 of its base chooses or in the
scratchpad, where it waits while the queue of a bank is full; an LV address outside LV space raises the address fault. The indexed forms scale the index by the size and add a block register. R234, R235, R237, R66: a store node joins the round's held stores with the low bytes of its data and sends its completion bit, memory
staying as it is; an atomic does so with its operation, once its address is in its space and aligned. A second firing in a round is the
collision fault. -/
def Obligations.MemoryNodes : Prop :=
  (∀ (s : State) (f : FabWord) (e : Fab) (h : Held3),
    let size := codeWidth (typeOf f) / 8
    let l := h.l.word
    let d24 : Word := ((f.imm.truncate 24 : BitVec 24)).signExtend 64
    let d18 : Word := (((f.imm >>> 6).truncate 18 : BitVec 18)).signExtend 64
    let g := e.T.g.get 0 (f.imm.toNat % 64)
    let issues (i : Instr) (sp : MemSpace) (a : Word) (n : Nat) : Prop :=
      let add (e1 : Fab) (ps : List Piece) (blocked : Option Nat) : Prop :=
        Does s i (Fab.done { e1 with r := { e.consume.r with loads := e.r.loads ++
          [{ slot := e.slot, addr := a, pieces := ps, got := [], size := n, blocked := blocked, deps := h.deps, since := s.now, saw := none }] } })
      (∀ ps us, e.access sp a n false = .pieces ps us →
        (e.r.bankFull ps = false → add (e.consume.noteUsed us) ps none) ∧ (e.r.bankFull ps = true → Waits s i)) ∧
      (∀ b, e.access sp a n false = .stream b → add e.consume [] (if b then some s.now else none)) ∧
      (∀ c v p, e.access sp a n false = .fault c v p → FabricFaults s i c v p)
    let based (i : Instr) (base off : Word) (n : Nat) : Prop :=
      (base.getLsbD 63 = true →
        issues i .memory ((base &&& 0xFFFF000000000000) ||| BitVec.ofNat 64 ((base.toNat + off.toNat) % 2 ^ 48)) n) ∧
      (base.getLsbD 63 = false → (base + off).toNat < 2 ^ 57 → issues i .memory (base + off) n) ∧
      (base.getLsbD 63 = false → 2 ^ 57 ≤ (base + off).toNat → FabricFaults s i 5 (base + off) none)
    let spad (i : Instr) (n : Nat) : Prop := issues i .spad (BitVec.ofNat 64 ((l + d24).toNat % 2 ^ 21)) n
    (FiresOn s 0x70 f e h → based (.fabLd f) l d24 size) ∧ (FiresOn s 0x72 f e h → based (.fabVld f) l d24 64) ∧
    (FiresOn s 0x74 f e h → based (.fabLdx f) g (l * BitVec.ofNat 64 size + d18) size) ∧
    (FiresOn s 0x76 f e h → based (.fabVldx f) g (l * 64 + d18) 64) ∧
    (FiresOn s 0x78 f e h → spad (.fabLds f) size) ∧ (FiresOn s 0x7A f e h → spad (.fabVlds f) 64)) ∧
  (∀ (s : State) (f : FabWord) (e : Fab) (h : Held3),
    let size := codeWidth (typeOf f) / 8
    let l := h.l.word
    let d24 : Word := ((f.imm.truncate 24 : BitVec 24)).signExtend 64
    let d18 : Word := (((f.imm >>> 6).truncate 18 : BitVec 18)).signExtend 64
    let g := e.T.g.get 0 (f.imm.toNat % 64)
    let low (n : Nat) : List Byte := (List.range n).map (fun i => BitVec.ofNat 8 (h.r.bits.toNat / 2 ^ (8 * i)))
    let holds (i : Instr) (a : Word) (ps : List Piece) (e1 : Fab) (data : List Byte) (amo : Option (Nat × Nat)) : Prop :=
      ∀ x : Held, x.slot = e.slot → x.addr = a → x.pieces = ps → x.data = data → x.amo = amo → x.signed = codeSigned (typeOf f) →
        x.ctx = e.r.ctx → x.no = e.r.no → x.place = e.r.stores.length → x.blocked = none → x.retries = 0 →
        (x.bySeq = true ↔ ∃ r, e.c.run = some r ∧ r.by_ = .sequencer) →
        let fate := Fab.send { e1 with r := { e.consume.r with stores := e.r.stores ++ [x], fired := e.r.fired ++ [e.slot] } } 1
          (bitTok true (unionDeps h.deps [e.r.stores.length]))
        Acts s i fate ∧ (ToSlots e → Completes s i fate)
    let stores (op : Nat) (i : Instr) (sp : MemSpace) (a : Word) (n : Nat) : Prop := FiresOn s op f e h →
      (e.r.fired.contains e.slot = false →
        (∀ ps us, e.access sp a n true = .pieces ps us → holds i a ps (e.consume.noteUsed us) (low n) none) ∧
        (∀ b, e.access sp a n true = .stream b → holds i a [] e.consume (low n) none) ∧
        (∀ c v p, e.access sp a n true = .fault c v p → FabricFaults s i c v p)) ∧
      (e.r.fired.contains e.slot = true → ∃ v, FabricFaults s i 0x23 v none)
    let based (op : Nat) (i : Instr) (base off : Word) (n : Nat) : Prop :=
      (base.getLsbD 63 = true →
        stores op i .memory ((base &&& 0xFFFF000000000000) ||| BitVec.ofNat 64 ((base.toNat + off.toNat) % 2 ^ 48)) n) ∧
      (base.getLsbD 63 = false → (base + off).toNat < 2 ^ 57 → stores op i .memory (base + off) n)
    let spad (op : Nat) (i : Instr) (n : Nat) : Prop := stores op i .spad (BitVec.ofNat 64 ((l + d24).toNat % 2 ^ 21)) n
    based 0x71 (.fabSt f) l d24 size ∧ based 0x73 (.fabVst f) l d24 64 ∧ based 0x75 (.fabStx f) g (l * BitVec.ofNat 64 size + d18) size ∧
    based 0x77 (.fabVstx f) g (l * 64 + d18) 64 ∧ spad 0x79 (.fabSts f) size ∧ spad 0x7B (.fabVsts f) 64 ∧
    (let n := size
     let op := f.imm.toNat % 16
     let code := if 5 ≤ op ∧ codeSigned (typeOf f) = false then op + 2 else op
     let amo := some (code, f.imm.toNat / 2 ^ 27)
     (e.r.fired.contains e.slot = true → (FiresOn s 0x7E f e h → ∃ v, FabricFaults s (.fabAmo f) 0x23 v none) ∧
       (FiresOn s 0x7F f e h → ∃ v, FabricFaults s (.fabAmos f) 0x23 v none)) ∧
     (e.r.fired.contains e.slot = false →
     (FiresOn s 0x7E f e h →
       (2 ^ 57 ≤ l.toNat → FabricFaults s (.fabAmo f) 5 l none) ∧
       (l.toNat < 2 ^ 57 → l.toNat % n ≠ 0 → FabricFaults s (.fabAmo f) 8 l none) ∧
       (l.toNat < 2 ^ 57 → l.toNat % n = 0 → ∀ ps us, e.access .memory l n true = .pieces ps us →
         holds (.fabAmo f) l ps (e.consume.noteUsed us) (low n) amo)) ∧
     (FiresOn s 0x7F f e h →
       let a : Word := BitVec.ofNat 64 (l.toNat % 2 ^ 21)
       (2 ^ 21 < a.toNat + n → FabricFaults s (.fabAmos f) 6 a none) ∧
       (a.toNat + n ≤ 2 ^ 21 → a.toNat % n ≠ 0 → FabricFaults s (.fabAmos f) 8 a none) ∧
       (a.toNat + n ≤ 2 ^ 21 → a.toNat % n = 0 → ∀ ps us, e.access .spad a n true = .pieces ps us →
         holds (.fabAmos f) a ps (e.consume.noteUsed us) (low n) amo)))))

/-- R196, R199, R208: the rows of the table for every slot that follows it: a null, a mismatch, a refusal and stop tokens of one level;
and the wait of a slot that lacks an operand or has no space. A slot with tokens of an earlier firing still to send is not at this table. -/
def Obligations.FiringTableRows : Prop :=
  ∀ (s : State) (f : FabWord) (e : Fab) (h : Held3) (op : Nat) (i : Instr), e.st.out = [] →
    ((op, i) ∈ tableSlots f ++ fusedSlots f →
      (FiresRow s op f e h .null → (opCounted op = true → e.r.fired.contains e.slot = false) →
        Acts s i ((counted op e.consume).emitNull h.deps)) ∧
      (FiresRow s op f e h .mismatch → ∃ v, FabricFaults s i 0x22 v none) ∧
      (FiresRow s op f e h .refuse → Does s i e.consume.done) ∧
      (FiresRow s op f e h .null → opCounted op = true → e.r.fired.contains e.slot = true → ∃ v, FabricFaults s i 0x23 v none) ∧
      (AtWork s op f e → e.operands = none → Waits s i) ∧
      (AtWork s op f e → e.operands = some h → e.space = false → Waits s i)) ∧
    ((op, i) ∈ tableSlots f → ∀ k, FiresRow s op f e h (.stop k) →
      ((opCounted op = true → e.r.fired.contains e.slot = false) → Acts s i ((counted op e.consume).emitStop k h.deps)) ∧
      (opCounted op = true → e.r.fired.contains e.slot = true → ∃ v, FabricFaults s i 0x23 v none))

/-- R191, R198, R201, R206, R208: where an output's token goes: nowhere for a target of none that no port takes from; into the switch box of its
slot's element, toward a slot of the tile or of another page; to a register's write slot once. A null or stop token at a write slot keeps the register. -/
def Obligations.TokenDelivery : Prop :=
  ∀ (e : Fab) (out : Nat) (tok : Tok), out < 2 →
    let tg := if out = 0 then e.f.t0.toNat else e.f.t1.toNat
    let i := tg % 256
    let pos := tg / 256
    let ports := feedPorts e.T e.r.ctx e.slot
    let with_ (r : Round) : Fate := .ok { e with r := r }
    let injects (page : Option Nat) (tok : Tok) : Prop := e.slot < 128 → e.send out tok = with_ { e.r with transit := e.r.transit ++
      [{ src := e.slot, out := out, index := i, pos := pos, page := page, tok := tok, box := e.slot % 64, way := 4 + e.slot / 64,
         born := e.s.now, since := e.s.now }] }
    (pos = 0 → (out = 1 ∨ ports = []) → e.send out tok = .ok e) ∧
    (pos ≠ 0 → exportOf e.c.block e.slot out = none →
      (i < 128 → injects none tok) ∧
      (128 ≤ i → i < 192 → e.r.gw.find (i - 128) = none → e.send out tok =
        with_ { e.r with gw := e.r.gw.put (i - 128) (if tok.null = true ∨ tok.level ≠ 0 then none else some (tok.bits.truncate 64)) }) ∧
      (128 ≤ i → i < 192 → e.r.gw.find (i - 128) ≠ none → ∃ v, e.send out tok = .fault 0x23 v none) ∧
      (192 ≤ i → e.r.vw.find (i - 192) = none → e.send out tok =
        with_ { e.r with vw := e.r.vw.put (i - 192) (if tok.null = true ∨ tok.level ≠ 0 then none else some tok.bits) }) ∧
      (192 ≤ i → e.r.vw.find (i - 192) ≠ none → ∃ v, e.send out tok = .fault 0x23 v none)) ∧
    (∀ p, pos ≠ 0 → exportOf e.c.block e.slot out = some p → injects (some p) { tok with deps := [] })

/-- R235, R66, R67, R78: a fabric load reads its pieces one by one, ascending. Each byte comes from the youngest store of its round that it sees
without an edge, the same ones for all its pieces, else from the youngest edge-ordered store of its round, else from the youngest write that a committed round of the tile has
still to perform, else from memory. With the last piece, or later if it cannot then, it sends its value and, with it, its completion bit.
Memory stays as it is. For loads of LV space and of the scratchpad. R18, R66, R237: the oldest committed store of a tile drains, once the writes of earlier rounds and
the stores of its own that entered before it are performed: its bytes reach memory at its piece, every other byte staying, and the rest
of a split store keeps its place; an atomic reads and writes its location as one event and returns nothing. R75, R61, R79, R390: a store or
atomic whose home is another die or package, or a store to a duplicated page, leaves as a request; memory stays until the home applies it. R292, R236, R411: a store to a stream is performed at
the stream's home, piece by piece, waits at a full window, and is dropped with one record where the released tail has passed it. -/
def Obligations.FabricMemoryTraffic : Prop :=
  (∀ (s : State) (tile i : Nat) (seen : List Bool) (r : Round) (l : FabLoad), tile < tileCount → (s.tile tile).round = some r →
    r.loads[i]? = some l → l.addr.getLsbD 63 = false →
    let w := ((s.tile tile).ctx r.ctx).block.word l.slot
    let e := Fab.at_ s tile r l.slot (slotOp w) (slotFields w)
    slotOp w ≠ 0x8B →
    let byte (p : Piece) (j : Nat) : Byte :=
      match youngest (sawStores r l seen) (p.key + j) with
      | some b => b
      | none => match youngest (orderedStores r l) (p.key + j) with
        | some b => b
        | none => match youngest (committedStores s tile) (p.key + j) with
          | some b => b
          | none => s.mem.read (readKey s p + j)
    let sends (bs : List Byte) (s1 : State) : Prop :=
      let v := leNat bs
      let tok := if e.outKind 0 = .vector then dataTok .vector (BitVec.ofNat 512 v) l.deps else dataTok .scalar (widen (typeOf e.f) v) l.deps
      let e0 := { e with s := s1, r := { r with loads := r.loads.eraseIdx i } }
      ∀ e1 e2, e0.send 0 tok = .ok e1 → e1.send 1 (bitTok true l.deps) = .ok e2 → Does s (.memoryNodeResponse tile i seen) e2.done
    let ready := e.delivers (bankOf (slotFields w))
    (∀ p ps, l.whole = false → l.pieces = p :: ps → e.serves l = true → servable s (dieOf tile) p = true →
      let bs := l.got ++ (List.range p.size).map (byte p)
      (l.size ≤ bs.length → ready = true → sends bs (mergeRead s (dieOf tile) [p])) ∧
      (bs.length < l.size ∨ ready = false → ∃ t, Does s (.memoryNodeResponse tile i seen) t ∧ t.mem = s.mem ∧
        (t.tile tile).round = some { r with loads := r.loads.set i { l with
          pieces := ps, got := bs, saw := some ((sawStores r l seen).map (fun h => h.place)) } })) ∧
    (l.whole = true → ready = true → sends l.got s)) ∧
  (∀ (s : State) (tile : Nat) (h : Held) (rest : List Held) (p : Piece) (ps : List Piece), tile < tileCount →
    (s.tile tile).drain = h :: rest → h.pieces = p :: ps → heldWaits s tile h = false →
    let left : List Held := if ps = [] then []
      else [{ h with pieces := ps, data := h.data.drop p.size, addr := h.addr + BitVec.ofNat 64 p.size }]
    let sent (home : Nat) (q : Piece) (data : List Byte) (amo : Option Nat) (left : List Held) (holders : List Nat) : Prop :=
      ∃ t r, Does s (.storeBufferDrain tile) t ∧ t.mem = s.mem ∧ t.pkg.reqs = s.pkg.reqs ++ [r] ∧ (t.tile tile).drain = left ++ rest ∧
        r.src = dieOf tile ∧ r.home = home ∧ r.piece = q ∧ r.data = data ∧ r.amo = amo ∧ r.tile = tile ∧ r.cmd = none ∧ r.addr = h.addr ∧
        r.round = some { no := h.no, place := h.place, port := none, ctx := h.ctx, slot := h.slot, bySeq := h.bySeq } ∧
        r.holders = holders ∧ r.clock = (s.die (dieOf tile)).clock ∧ r.since = s.now
    let far (home : Nat) : Prop := dupOf s p = none ∧
      ((p.home = .die home ∧ home ≠ dieOf tile) ∨ (p.home = .outside ∧ keyKind p.key = 4 ∧ home = dieCount))
    (∀ home, far home → h.amo = none → sent home p (h.data.take p.size) none left []) ∧
    (∀ home op scope, far home → h.amo = some (op, scope) → scope < 4 → sent home p h.data (some op) [] []) ∧
    (∀ d c off home, dupOf s p = some (d, c, off) → keyHome s d.homeKey = .die home → h.amo = none →
      sent home { p with key := d.homeKey + off, home := .die home } (h.data.take p.size) none left
        ((d.copies.map (fun x => x.1)).filter (fun x => x != dieOf tile && !d.dropped.contains x)))) ∧
  (∀ (s : State) (tile : Nat) (h : Held) (rest : List Held) (p : Piece) (ps : List Piece), tile < tileCount → memoryOk s = true →
    (s.tile tile).drain = h :: rest → h.pieces = p :: ps → dupOf s p = none → heldWaits s tile h = false →
    (p.home = .near ∨ (p.home = .outside ∧ keyKind p.key ≠ 4) ∨ (p.home = .die (dieOf tile) ∧ servable s (dieOf tile) p = true)) →
    (h.amo = none →
      ∃ t, Does s (.storeBufferDrain tile) t ∧ t.mem = s.mem.writes (putBytes p.key (h.data.take p.size)) ∧
        sameBytesBut s t (fun k => p.key ≤ k ∧ k < p.key + p.size) ∧
        (t.tile tile).drain = (if ps = [] then rest
          else { h with pieces := ps, data := h.data.drop p.size, addr := h.addr + BitVec.ofNat 64 p.size } :: rest) ∧
        (∀ u, u ≠ tile → t.tile u = s.tile u)) ∧
    (∀ op scope, h.amo = some (op, scope) → scope < 4 → servable s (dieOf tile) p = true →
      ∃ t, Does s (.storeBufferDrain tile) t ∧
        t.mem = s.mem.writes (putBytes p.key (leBytes p.size (amoNew op (8 * p.size) (s.mem.nat p.key p.size) (leNat h.data) 0))) ∧
        (t.tile tile).drain = rest)) ∧
  (∀ (s : State) (tile : Nat) (h : Held) (rest : List Held), tile < tileCount → (s.tile tile).drain = h :: rest → h.pieces = [] →
    heldWaits s tile h = false → h.blocked = none →
    let l := (s.tile tile).launchNo
    let hd := streamHandle h.addr
    let o := streamOff h.addr
    let n := pieceAt o h.data.length
    streamReached s (some (dieOf tile)) l = true →
    (∀ s1 ws, writeDecision s l hd o n = .pass → streamWrite s (some (dieOf tile)) l hd o (h.data.take n) = some (s1, ws) →
      ∃ t, Does s (.storeBufferDrain tile) t ∧ t.mem = s.mem.writes ws ∧ (t.tile tile).drain =
        (if h.data.length ≤ n then [] else [{ h with data := h.data.drop n, addr := streamAdd h.addr (BitVec.ofNat 64 n) }]) ++ rest) ∧
    (writeDecision s l hd o n = .block →
      ∃ t, Does s (.storeBufferDrain tile) t ∧ t.mem = s.mem ∧ (t.tile tile).drain = { h with blocked := some s.now } :: rest) ∧
    (∀ c, writeDecision s l hd o n = .fault c →
      ∃ t r, Does s (.storeBufferDrain tile) t ∧ t.mem = s.mem ∧ t.dies = (s.modDie r.die (fun D => D.place r)).dies ∧ r.die = dieOf tile ∧
        r.amber = true ∧ r.source = 0 ∧ r.slot = h.slot ∧ r.ctx = h.ctx ∧ r.cause = 0x2C ∧ r.value = h.addr ∧ (t.tile tile).drain = rest))

/-- R238, R239: wsplit takes a vector and sends its n pieces of 64 bits one by one to the n slots from its target, each once the slot before
has taken its own; wjoin collects n scalars, the n-th sending the vector of them with zeros above; a stop token within a collection is
the join mismatch. R240: rpt fills its buffer with data, at most 64 tokens, up to a stop token; with a count c at .r it then sends buffer and terminator c
times and starts over. A null in the group gives one null; c = 0 gives nothing; c above 2^32 - 1 is operand range. -/
def Obligations.ConvertersAndRepeat : Prop :=
  (∀ (s : State) (f : FabWord) (e : Fab) (h : Held3),
    let n := f.imm.toNat % 16
    let null := (h.vals ++ h.pred.toList).any (·.null)
    let admits := null = false ∧ refuses f 0x7D h.pred = false
    (AtWork s 0x7C f e → e.st.out = [] → e.operands = some h → judge f 0x7C h = .data →
      let pieces := (List.range n).map (fun j => dataTok .scalar (BitVec.ofNat 512 (h.l.bits.toNat / 2 ^ (64 * j) % 2 ^ 64)) h.deps)
      Does s (.fabWsplit f) (e.consume.setSt { e.st with sent := 0, out := pieces }).done) ∧
    (∀ x rest, AtWork s 0x7C f e → e.st.out = x :: rest →
      let j := e.st.sent
      let k := f.t0.toNat % 256 + j
      let pos := f.t0.toNat / 256
      (e.room true .scalar (.slot k pos) = true → (j = 0 ∨ pieceGone e (j - 1) = true) →
        Does s (.fabWsplit f) (Fab.done { e with r := { e.r with
          slotSt := e.r.slotSt.put e.slot { e.st with out := rest, sent := if rest = [] then 0 else j + 1 },
          transit := e.r.transit ++
            [{ src := e.slot, out := 0, index := k, pos := pos, page := none, tok := { x with deps := unionDeps x.deps (pieceDeps e j) },
               box := e.slot % 64, way := 4 + e.slot / 64, born := s.now, since := s.now }] } })) ∧
      (e.room true .scalar (.slot k pos) = false ∨ (j ≠ 0 ∧ pieceGone e (j - 1) = false) → Waits s (.fabWsplit f))) ∧
    (AtWork s 0x7D f e → e.operands = some h → e.space = true → admits → h.l.level = 0 →
      let toks := e.st.toks ++ [{ h.l with deps := h.deps }]
      (toks.length < n → Does s (.fabWjoin f) (e.consume.setSt { e.st with toks := toks }).done) ∧
      (n ≤ toks.length → e.st.nul = false → ∀ b : Vec, toks.length ≤ 8 →
        (∀ i, i < 8 → laneAt 64 b i = if i < toks.length then (toks.getD i h.l).bits.toNat % 2 ^ 64 else 0) →
        Sends s (.fabWjoin f) (e.consume.setSt { e.st with toks := [], nul := false })
          (dataTok .vector b (toks.foldl (fun d x => unionDeps d x.deps) [])))) ∧
    (AtWork s 0x7D f e → e.operands = some h → e.space = true → admits → h.l.level ≠ 0 →
      (e.st.toks = [] → Acts s (.fabWjoin f) (e.consume.emitStop h.l.level h.deps)) ∧
      (e.st.toks ≠ [] → ∃ v, FabricFaults s (.fabWjoin f) 0x26 v none))) ∧
  (∀ (s : State) (f : FabWord) (e : Fab), AtWork s 0x88 f e →
    (∀ x, e.st.term = none → e.r.at_ e.slot 1 = some x →
      let took (st : SlotSt) : Prop := Does s (.fabRpt f) (Fab.done { e with r := { e.r with
        latch := e.r.latch.del (e.slot * 4 + 1), slotSt := e.r.slotSt.put e.slot { st with deps := unionDeps e.st.deps x.deps } } })
      (x.null = true → took { e.st with nul := true }) ∧
      (x.null = false → x.level ≠ 0 → took { e.st with term := some x.level }) ∧
      (x.null = false → x.level = 0 → e.st.toks.length < 64 → took { e.st with toks := e.st.toks ++ [x] }) ∧
      (x.null = false → x.level = 0 → 64 ≤ e.st.toks.length → ∃ v, FabricFaults s (.fabRpt f) 0x25 v none)) ∧
    (∀ j c, e.st.term = some j → e.r.at_ e.slot 2 = some c → e.space = true → c.null = false → e.st.nul = false → c.level = 0 →
      let n := (c.bits.truncate 64 : Word).toNat
      let tok := match e.st.toks[e.st.sent]? with
        | some x => { x with deps := unionDeps x.deps c.deps }
        | none => stopTok .vector j (unionDeps e.st.deps c.deps)
      let last := e.st.toks.length ≤ e.st.sent
      let st := if last then (if e.st.passes + 1 = n then SlotSt.reset else { e.st with sent := 0, passes := e.st.passes + 1 })
        else { e.st with sent := e.st.sent + 1 }
      (0 < n → n < 2 ^ 32 → ∀ e1, (e.setSt st).emit tok = .ok e1 → ∃ r1, Does s (.fabRpt f) (Fab.done { e1 with r := r1 }) ∧
        r1.transit = e1.r.transit ∧ r1.gw = e1.r.gw ∧ r1.vw = e1.r.vw ∧ r1.st e.slot = st ∧
        r1.at_ e.slot 1 = e.r.at_ e.slot 1 ∧ r1.at_ e.slot 2 = if last ∧ e.st.passes + 1 = n then none else some c) ∧
      (n = 0 → ∃ r1, Does s (.fabRpt f) (Fab.done { e with r := r1 }) ∧ r1.transit = e.r.transit ∧ r1.st e.slot = SlotSt.reset ∧
        r1.at_ e.slot 2 = none) ∧
      (2 ^ 32 ≤ n → FabricFaults s (.fabRpt f) 0x11 (c.bits.truncate 64) none)) ∧
    (∀ j, e.st.term = some j → e.r.at_ e.slot 2 = none → Waits s (.fabRpt f)))

/-- R314 to R317: a mma takes a token into one of the two operand tiles of its position, of which every k-step not yet performed holds one, or
waits; with an operand whole at both positions, its predicate, its destination and engine space there, nulls come first (R196), then two panels
open its tile if it does not own it and their k-step joins the engine's queue, two stop tokens of one level pass the level on and at the word's
level or above close the group, and any other pair is a mismatch; a refusing predicate consumes the operands and nothing
else (R317). R323: a gang's leader sends the shared panel to every member, and waits for a
member without a free operand tile. R320: a gathering node builds its A panel from the rows that its index tokens name, or faults on a row that
is not aligned, a null B panel goes by without a k-step, and a stop before any B panel begins a group of no k-steps. R321, R340, R343, R344: accrd of a complete tile of its context converts its
elements, sets the readout's bound and then sends their tokens one by one, an emptying read freeing the banks with the last where they still hold
the tile that it read; bld writes a bound
setting from its token or requests it from memory; bst holds a store of the two bytes of the bound it names. What tokens a tile takes from an
operand cut short is DEDUCED (log entry 74). -/
def Obligations.MatrixAndBoundNodes : Prop :=
  (∀ (s : State) (f : FabWord) (e : Fab), AtWork s 0x89 f e →
    let imm := f.imm.toNat
    let i := Instr.fabMma f
    let b0 := imm / 2 ^ 19 % 4
    let few : Prop := e.mx.unperformed e.node < 2
    let claims : Prop := acceptable e.mx e.node e.r.no b0 (mmaM imm) (mmaN imm) e.mmaWidth s.now = true
    let members : Prop := ∀ m ∈ e.members, memberFree s (mmaCastPos imm) m = true
    let ready : Prop := predPresent e.r 0x89 f e.slot = true ∧ e.space = true ∧ few ∧ claims ∧ members
    let plain : Prop := e.mmaPred.any (·.null) = false
    let goes : Prop := plain ∧ refuses f 0x89 e.mmaPred = false
    let of_ (q : Kstep) : Prop := q.node = e.node ∧ q.round = e.r.no
    let room (pos : Nat) (x : Tok) : Prop := e.r.at_ e.slot pos = some x ∧ ¬(mmaMember imm = true ∧ mmaCastPos imm = pos) ∧
      operandTiles 3 (e.st.side pos ++ [x]) (operandNeed (typeOf f) imm pos) + e.mx.unperformed e.node ≤ 2
    let took (pos : Nat) (st : SlotSt) : State := Fab.done { e with r := { e.r with
      latch := e.r.latch.del (e.slot * 4 + pos), slotSt := e.r.slotSt.put e.slot st } }
    let derives (B : Bank) : Bank := if B.tag ≠ .empty ∧ B.first = b0 then { B with deps := unionDeps B.deps e.mmaDeps } else B
    let begins : Prop := mmaGat imm = true ∧ ∃ idx k, e.opA = .panel idx ∧ e.opB = .stop k
    (e.whole = false ∨ (¬ready ∧ ¬begins) →
      (∀ x, room 1 x → Does s i (took 1 { e.st with toks := e.st.toks ++ [x] })) ∧
      (∀ x, (∀ y, ¬room 1 y) → room 2 x → Does s i (took 2 { e.st with toksR := e.st.toksR ++ [x] })) ∧
      ((∀ y, ¬room 1 y) → (∀ y, ¬room 2 y) → Waits s i)) ∧
    (ready → mmaGat imm = false → ∀ a b, e.opA = .panel a → e.opB = .panel b → goes →
      ∃ (e1 : Fab) (q : Kstep), Does s i e1.done ∧ e1.mx.queue = e.mx.queue ++ [q] ∧ of_ q ∧ q.imm = imm ∧
        q.amod = typeOf f ∧ q.width = e.mmaWidth ∧ q.a = (tokBytes a).map (·.toNat) ∧ q.b = (tokBytes b).map (·.toNat) ∧ q.started = false ∧
        q.accepted = false ∧
        (ownTile e.mx e.node e.r.no b0 = true → ∀ k, k < 4 → e1.mx.bank k = derives (e.mx.bank k)) ∧
        (ownTile e.mx e.node e.r.no b0 = false → ∀ k, k < tileBanks (mmaM imm) (mmaN imm) e.mmaWidth →
          (e1.mx.bank (b0 + k)).tag = .open_ ∧ (e1.mx.bank (b0 + k)).owner = e.node ∧ (e1.mx.bank (b0 + k)).acc = []) ∧
        e1.st.toks = e.st.toks.drop a.length ∧ e1.st.toksR = e.st.toksR.drop b.length ∧
        (e.members.Nodup → (∀ m ∈ e.members, m.1 ≠ e.t) → ∀ m ∈ e.members, ∃ r r1, (s.tile m.1).round = some r ∧
          (e1.done.tile m.1).round = some r1 ∧ r1.ganged = true ∧ (r1.st m.2.2).side (mmaCastPos imm) =
            (r.st m.2.2).side (mmaCastPos imm) ++ (if mmaCastPos imm = 1 then a else b).map (fun x => { x with deps := [] }))) ∧
    (ready → e.opA = .null ∨ (mmaGat imm = false ∧ e.whole = true ∧ (e.opB = .null ∨ ¬plain)) →
      ∃ e1 : Fab, e1.st.toks = e.st.toks.drop e.aToks.length ∧ e1.st.toksR = e.st.toksR.drop e.bToks.length ∧ e1.mx = e.mx ∧
        (e.whole = true → Acts s i (e1.emitNull e.mmaDeps) ∧ (ToSlots e → Completes s i (e1.emitNull e.mmaDeps)))) ∧
    (∀ k, ready → e.opA = .stop k → e.opB = .stop k → goes →
      ∃ e1 : Fab, e1.st.toks = e.st.toks.drop 1 ∧ e1.st.toksR = e.st.toksR.drop 1 ∧ e1.mx.queue = e.mx.queue ∧ Acts s i (e1.emitStop k e.mmaDeps) ∧
        (ToSlots e → Completes s i (e1.emitStop k e.mmaDeps)) ∧
        (k < mmaElv imm → e1.mx.banks = e.mx.banks ∧ e1.mx.gathers = e.mx.gathers) ∧
        (mmaElv imm ≤ k → (∀ g ∈ e1.mx.gathers, g.node ≠ e.node) ∧
          ∀ b, b < 4 → (e.mx.bank b).tag = .open_ → (e.mx.bank b).owner = e.node → (e.mx.bank b).round = e.r.no →
          ((∀ q ∈ e.mx.queue, ¬of_ q) → (e1.mx.bank b).tag = .complete) ∧
          ((∃ q ∈ e.mx.queue, of_ q) → (e1.mx.bank b).tag = .open_ ∧ (e1.mx.bank b).closing = true))) ∧
    (ready → mmaGat imm = false → e.whole = true → e.opA ≠ .null → e.opB ≠ .null → plain → ¬(∃ a b, e.opA = .panel a ∧ e.opB = .panel b) →
      ¬(∃ k, e.opA = .stop k ∧ e.opB = .stop k) → ∃ v, FabricFaults s i 0x22 v none) ∧
    (ready → plain → refuses f 0x89 e.mmaPred = true →
      ((∃ k, e.opA = .stop k ∧ e.opB = .stop k) ∨ (mmaGat imm = false ∧ ∃ a b, e.opA = .panel a ∧ e.opB = .panel b)) →
      ∃ e1 : Fab, Does s i e1.done ∧ e1.mx = e.mx ∧ e1.r.transit = e.r.transit ∧ e1.st.toks = e.st.toks.drop e.aToks.length ∧
        e1.st.toksR = e.st.toksR.drop e.bToks.length) ∧
    (∀ idx k, mmaGat imm = true → e.opA = .panel idx → e.opB = .stop k →
      ∃ e1 : Fab, Does s i e1.done ∧ e1.mx.queue = e.mx.queue ∧ e1.mx.banks = e.mx.banks ∧ (∃ g ∈ e1.mx.gathers, g.node = e.node ∧ g.steps = 0) ∧
        e1.st.toks = e.st.toks.drop idx.length ∧ e1.st.toksR = e.st.toksR) ∧
    (ready → mmaGat imm = true → e.group = none → imm / 2 ^ 11 % 2 = 0 → ∀ idx b, e.opA = .panel idx → e.opB = .panel b → goes →
      let ra := mmaRowBytes (typeOf f)
      let rows := idx.flatMap (fun x => (List.range 8).map (fun j => x.bits.toNat / 2 ^ (64 * j) % 2 ^ 21))
      let key (w : Nat) : Nat := spadKey (clusterOf e.t) w
      let settled (w : Nat) : Prop := settledBytes s e.t [{ key := key (w / 64 * 64), size := 64, home := .near }]
        ((List.range 64).map (fun j => key (w / 64 * 64) + j)) = true
      let byte (w j : Nat) : Byte := match youngest (committedStores s e.t) (key w + j) with | some x => x | none => s.mem.read (key w + j)
      ((∀ w ∈ rows, w % ra = 0 ∧ settled w) → ∃ (e1 : Fab) (q : Kstep), Does s i e1.done ∧ e1.mx.queue = e.mx.queue ++ [q] ∧ of_ q ∧
        q.a = (rows.flatMap (fun w => (List.range ra).map (byte w))).map (·.toNat) ∧ q.b = (tokBytes b).map (·.toNat) ∧
        ∃ g ∈ e1.mx.gathers, g.node = e.node ∧ g.steps = 1) ∧
      (∀ done w rest, rows = done ++ w :: rest → (∀ x ∈ done, x % ra = 0 ∧ settled x) → w % ra ≠ 0 → w + ra ≤ 2 ^ 21 →
        Does s i (fabricFault s e.t e.slot 0 6 8 (BitVec.ofNat 64 w) none))) ∧
    (∀ g, ready → e.group = some g → e.members = [] → e.opA ≠ .null → e.opA ≠ .mixed → e.opB = .null →
      ∃ e1 : Fab, e1.mx.queue = e.mx.queue ∧ (∃ g1 ∈ e1.mx.gathers, g1.node = e.node ∧ g1.steps = g.steps + 1) ∧
        Acts s i (e1.emitNull e.mmaDeps) ∧ (ToSlots e → Completes s i (e1.emitNull e.mmaDeps)))) ∧
  (∀ (s : State) (f : FabWord) (e : Fab) (h : Held3),
    let imm := f.imm.toNat
    let dt := typeOf f
    let b0 := imm / 2 ^ 19 % 4
    let bank := imm / 2 ^ 20 % 4
    (FiresOn s 0x8A f e h → e.st.out = [] → (e.mx.bank b0).tag = .complete → (e.mx.bank b0).first = b0 → (e.mx.bank b0).since ≠ some s.now →
      (e.mx.bank b0).owner.tile = e.t % 4 → (e.mx.bank b0).owner.ctx = e.r.ctx →
      (imm / 2 ^ 15 % 2 = 1 ∨ (e.s.cluster (clusterOf e.t)).copyHolds b0 = false) →
      let q := readElements dt (rndOf f) (e.mx.elements b0) e.sto
      let deps := if (e.mx.bank b0).round = e.r.no then unionDeps h.deps (e.mx.bank b0).deps else h.deps
      ∃ e1 : Fab, Does s (.fabAccrd f) e1.done ∧ e1.st.out = readTokens dt (imm / 2 ^ 16 % 8) q.1 deps ∧ e1.st.n = (e.mx.bank b0).claims ∧ e1.r.flags = e.r.flags ||| q.2.1 ∧
        (e1.mx.bank b0).set.obnd = readBound dt (rndOf f) (e.mx.bank b0).bnd q.2.2.2.1 q.2.2.2.2 ∧ (e1.mx.bank b0).acc = (e.mx.bank b0).acc) ∧
    (∀ x rest, AtWork s 0x8A f e → e.st.out = x :: rest → e.space = true →
      let e1 := e.setSt { e.st with out := rest }
      let keep := decide (imm / 2 ^ 15 % 2 = 1)
      (rest ≠ [] → Sends s (.fabAccrd f) e1 x) ∧
      let copied := (e.s.cluster (clusterOf e.t)).copyHolds b0
      let held : Prop := (e.mx.bank b0).tag = .complete ∧ (e.mx.bank b0).claims = e.st.n
      (rest = [] → keep = false → held → copied = true → Waits s (.fabAccrd f)) ∧
      (rest = [] → keep = true ∨ ¬held ∨ copied = false → ∃ e2 : Fab, Sends s (.fabAccrd f) e2 x ∧ e2.r = e1.r ∧
        (keep = true ∨ ¬held → e2.mx.banks = e.mx.banks) ∧
        (keep = false → held → ∀ b, b < 4 → (e.mx.bank b).tag ≠ .empty → (e.mx.bank b).first = b0 →
          ((e.mx.bank b0).round = e.r.no → (e2.mx.bank b).tag = .empty) ∧
          ((e.mx.bank b0).round ≠ e.r.no → (e2.mx.bank b).tag = (e.mx.bank b).tag ∧ (e2.mx.bank b).readOut = true)))) ∧
    (FiresOn s 0x8B f e h → bldWaits s e.t e.r.ctx bank = false → imm / 2 ^ 19 % 2 = 1 →
      let v := h.l.word.toNat
      let c : BitVec 16 := BitVec.ofNat 16 v
      let up (old : BitVec 16) : BitVec 16 := if imm / 2 ^ 18 % 2 = 1 ∧ c.toNat < old.toNat then old else c
      let B := e.mx.bank bank
      let set : BndSet := if imm / 2 ^ 22 % 4 = 0 then { B.set with ea := up B.set.ea } else if imm / 2 ^ 22 % 4 = 1 then { B.set with eb := up B.set.eb }
        else { B.set with thr := c, rel := v.testBit 16, lim := min 2 (v / 2 ^ 17 % 4) }
      let e0 : Fab :=
        { e.consume with s := s.modCluster (clusterOf e.t) (fun K => { K with mx := K.mx.modBank bank (fun b => { b with set := set }) }) }
      (∀ e1 e2, e0.send 0 (dataTok .scalar (BitVec.ofNat 512 (v % 2 ^ 16)) h.deps) = .ok e1 → e1.send 1 (bitTok true h.deps) = .ok e2 →
        Does s (.fabBld f) e2.done) ∧
      (ToSlots e → ∃ e1 e2, e0.send 0 (dataTok .scalar (BitVec.ofNat 512 (v % 2 ^ 16)) h.deps) = .ok e1 ∧
        e1.send 1 (bitTok true h.deps) = .ok e2 ∧ Does s (.fabBld f) e2.done)) ∧
    (∀ a, boundAddr f h = .ok a → boundFault f a = none →
      (FiresOn s 0x8B f e h → bldWaits s e.t e.r.ctx bank = false → imm / 2 ^ 19 % 2 = 0 →
        ∀ ps us, e.access (boundSpace f) a 2 false = .pieces ps us → e.r.bankFull ps = false →
        Does s (.fabBld f) (Fab.done { e.consume.noteUsed us with r := { e.consume.r with loads := e.r.loads ++
          [{ slot := e.slot, addr := a, pieces := ps, got := [], size := 2, blocked := none, deps := h.deps, since := s.now, saw := none }] } })) ∧
      (FiresOn s 0x8C f e h → e.r.fired.contains e.slot = true → (imm / 2 ^ 22 % 4 = 1 ∨ (e.mx.bank bank).tag ≠ .open_) →
        ∃ v, FabricFaults s (.fabBst f) 0x23 v none) ∧
      (FiresOn s 0x8C f e h → e.r.fired.contains e.slot = false → (imm / 2 ^ 22 % 4 = 1 ∨ (e.mx.bank bank).tag ≠ .open_) →
        ∀ ps us, e.access (boundSpace f) a 2 true = .pieces ps us → ∃ x : Held,
          x.slot = e.slot ∧ x.addr = a ∧ x.pieces = ps ∧ x.amo = none ∧ x.no = e.r.no ∧
          x.data = leBytes 2 (if imm / 2 ^ 22 % 4 = 1 then (e.mx.bank bank).set.obnd else (e.mx.bank bank).bnd).toNat ∧
          let fate := Fab.send { e.consume.noteUsed us with
            r := { e.consume.r with stores := e.r.stores ++ [x], fired := e.r.fired ++ [e.slot] } } 1
            (bitTok true (unionDeps h.deps [e.r.stores.length]))
          Acts s (.fabBst f) fate ∧ (ToSlots e → Completes s (.fabBst f) fate))))

/-! ### Rounds, ports and streams -/

/-- R175, R203, R206, R207, R210: a tile without a round takes one of the context whose turn it is, everything of it empty, but waits for the
stores that a release fence before the run has ordered (R235); a fault that a write port holds voids the round at once (R303). A round that meets
the conditions of R206 commits: its register writes take effect, its stores form the draining half of the store buffer, its flags join fstat, the
run counts it, the matrix engine closes its open groups and empties the tiles read (R318, R321), its barrier arrivals are made once its writes
are performed (R72), its exported tokens reach the seam ports of their pages, and its write ports take over its writes and its read ports release
(R302). Memory stays. The rounds of a gang commit together or not at all (R324). The condition on k-steps and the count of sinks are DEDUCED (log
entry 46), the rotation is DEDUCED (log entry 44). -/
def Obligations.RoundsStartAndCommit : Prop :=
  ∀ (s : State) (tile ctx : Nat), tile < tileCount → ctx < 8 →
    let T := s.tile tile
    let may : Prop := T.round = none ∧ T.live = true ∧ turnOf T = some ctx ∧ recordWaits s tile ctx = false ∧
      ∀ x, (T.ctx ctx).run = some x → (x.below = 0 ∨ writePending s tile = false) ∧ ∀ y ∈ T.seq.queue, x.below ≤ y.no
    (may → heldFault T ctx = none →
      ∃ t r, Does s (.roundStart tile ctx) t ∧ (t.tile tile).round = some r ∧ r.ctx = ctx ∧ r.latch = [] ∧ r.order = [] ∧ r.fired = [] ∧
        r.gw = [] ∧ r.vw = [] ∧ r.stores = [] ∧ r.loads = [] ∧ r.transit = [] ∧ r.flags = 0 ∧ r.slotSt = [] ∧ (t.tile tile).last = ctx ∧
        (t.tile tile).g = T.g ∧ (t.tile tile).v = T.v ∧ (t.tile tile).drain = T.drain ∧ t.mem = s.mem) ∧
    (∀ p cause a pri, may → heldFault T ctx = some (p, cause, a, pri) →
      ∃ s1, Does s (.roundStart tile ctx) (fabricFault s1 tile 0 p 2 cause a pri) ∧ ((s1.tile tile).port p).fault = none ∧
        (∃ r, (s1.tile tile).round = some r ∧ r.ctx = ctx) ∧ s1.mem = s.mem) ∧
    (¬may → Waits s (.roundStart tile ctx)) ∧
    (∀ r, T.round = some r →
      let gang := gangOf s tile r.ctx
      let agree : Prop := ∀ p ∈ gang, canCommit s p.1 = true ∧ inSet s tile r.ctx p = true
      (canCommit s tile = true → agree → ∃ t, Does s (.roundCommit tile) t ∧ t.mem = s.mem ∧ (t.tile tile).round = none ∧
        (t.tile tile).drain = r.stores ∧ (∀ p ∈ gang, (t.tile p.1).round = none ∧ ∃ q, (s.tile p.1).round = some q ∧ (t.tile p.1).drain = q.stores) ∧
        (gang = [] →
          (t.tile tile).g = r.gw.foldl (fun m w => match w.2 with | some v => m.put w.1 v | none => m) T.g ∧
          (t.tile tile).v = r.vw.foldl (fun m w => match w.2 with | some v => m.put w.1 v | none => m) T.v ∧
          ((t.tile tile).ctx r.ctx).fstat = (T.ctx r.ctx).fstat ||| r.flags ∧
          ((t.tile tile).ctx r.ctx).run = (match (T.ctx r.ctx).run with
            | some x => if r.ends = true ∨ (x.asked ≠ 0 ∧ x.asked ≤ x.done + 1) then none else some { x with done := x.done + 1 }
            | none => none) ∧
          (let m := (s.cluster (clusterOf tile)).mx
           let m1 := (t.cluster (clusterOf tile)).mx
           (∀ g ∈ m1.gathers, ¬(g.node.tile = tile % 4 ∧ g.node.ctx = r.ctx)) ∧
           ∀ b, b < 4 → (m.bank b).owner.tile = tile % 4 → (m.bank b).owner.ctx = r.ctx →
            ((m.bank b).tag ≠ .empty → (m.bank b).readOut = true → (m1.bank b).tag = .empty) ∧
            ((m.bank b).tag = .open_ → (m.bank b).readOut = false → (m.bank b).round = r.no →
              ((∀ q ∈ m.queue, ¬(q.node = (m.bank b).owner ∧ q.round = r.no)) → (m1.bank b).tag = .complete) ∧
              ((∃ q ∈ m.queue, q.node = (m.bank b).owner ∧ q.round = r.no) → (m1.bank b).tag = .open_ ∧ (m1.bank b).closing = true))) ∧
          (∀ L, T.launch = some T.launchNo → s.launch T.launchNo = some L → L.session = none →
            (T.arrivals = [] → r.stores ≠ [] → (∀ x ∈ r.stores, x.no = r.no) →
              (t.tile tile).arrivals = r.bars.map (fun b => (r.no, b)) ∧ (t.tile tile).bars = T.bars) ∧
            (T.arrivals = [] → r.stores = [] → (∀ p, p < 4 → (T.port p).committed = [] ∧ (T.port p).buf = []) →
              roundPending s tile (fun w => decide (w.no < r.no + 1)) = false →
              (t.tile tile).arrivals = [] ∧ (t.tile tile).bars = (T.arriveAll s.now r.bars).bars) ∧
            (∀ d, (t.tile d).seam = (s.tile d).seam ++ ((r.allExports T.page).filter (fun x => L.place[x.page]? = some d)).map (·.tok)) ∧
            (∀ p g, p < 4 → (T.port p).prog = some g → g.ctx = r.ctx → (T.port p).loan = false → g.write = true →
              let P := T.port p
              let Q := (t.tile tile).port p
              Q.committed = P.committed ++ P.buf ∧ Q.buf = [] ∧ Q.issued = P.issued + P.buf.length ∧ Q.c = P.c ∧
              (g.pub = false → P.pubDue = [] → Q.pubDue = [])) ∧
            (∀ p g m st st1, p < 4 → (T.port p).prog = some g → g.ctx = r.ctx → (T.port p).loan = false → g.write = false → g.isStream = true →
              g.rel = true → (∀ q, q < 4 → (T.port q).pubDue = [] ∧ (q ≠ p → (T.port q).serves r.ctx = false)) → (T.port p).read = some m →
              s.stream T.launchNo (streamHandle g.base) = some st → st.releaseTo g.rdr m false = .ok st1 →
              ∃ st2, t.stream T.launchNo (streamHandle g.base) = some st2 ∧ st2.readers = st1.readers ∧ st2.hwm = st.hwm)))) ∧
      (canCommit s tile = false ∨ ¬agree → Waits s (.roundCommit tile)))

/-- R57, R67, R200, R301: a read port's access returns, with what committed rounds of the tile have still to write, and its tokens join the
port's, the value and, at the end of a level, a stop token; the port injects its next token into its switch box, toward its slot in the round
of its context. R58, R302, R292: a write port performs the oldest write of its committed rounds at its place, every other byte of memory staying,
once the writes before it and the held stores that its token derives from are (R66, R67); one whose home is another die leaves as a request (R75);
at a full window it waits; one that the released tail has passed is dropped with one record (R411); an implicit HWM advance that is due comes first (R73). A hotness flush that cannot be written is counted as lost, and its
counters start over. A token with a mark, a seed, is no element of the program, so its delivery leaves the port's count: the model's choice
(DESIGN CHOICE, log entry 47). -/
def Obligations.PortsOfARound : Prop :=
  (∀ (s : State) (tile p : Nat) (g : PortProg), tile < tileCount → p < 4 →
    let T := s.tile tile
    let P := T.port p
    let a := g.addr P.issued
    let n := eszBytes g.esz
    P.prog = some g → g.write = false → T.live = true →
    (P.loan = false → P.issued < g.total → P.waiting < 32 → P.hwmBlocked = none → P.fault = none →
      let value (bs : List Byte) : Tok := dataTok (if g.esz = 4 then .vector else .scalar) (BitVec.ofNat 512 (leNat bs)) []
      let got (bs : List Byte) (t : State) : Prop := Does s (.portReadResponse tile p true) t ∧ t.mem = s.mem ∧
        ((t.tile tile).port p).issued = P.issued + 1 ∧ ((t.tile tile).port p).c = P.c ∧
        ((t.tile tile).port p).toks = P.toks ++ [value bs] ++
          (if g.stopLevel P.issued = 0 then [] else [stopTok (if g.esz = 4 then .vector else .scalar) (g.stopLevel P.issued) []])
      let held := committedStores s tile
      (∀ ps, g.spad = true → spadAccess (clusterOf tile) a.toNat n = .ok ps → settledBytes s tile ps (byteNames ps a n) = true →
        ∃ t, got (overlay held (byteNames ps a n) (ps.flatMap s.pieceBytes)) t) ∧
      (∀ q x, g.spad = false → g.isStream = false → portPiece s tile P g (P.windowed g a) a = .ok (q, x) → servable s (dieOf tile) q = true →
        settledBytes s tile [q] (byteNames [q] a n) = true → P.mustFlush g a = false →
        ∃ t, got (overlay held (byteNames [q] a n) (s.pieceBytes q)) t ∧ ((t.tile tile).port p).delivered = sat32 (P.delivered + 1)) ∧
      (∀ st s1 bs, g.spad = false → g.isStream = true → s.stream T.launchNo (streamHandle a) = some st →
        st.decideRead (streamOff a) n = .pass →
        streamRead s (some (dieOf tile)) T.launchNo (streamHandle a) (streamOff a) n = some (s1, bs) →
        ∃ t, got (overlay held (byteNames [] a n) bs) t) ∧
      (∀ st, g.spad = false → g.isStream = true → s.stream T.launchNo (streamHandle a) = some st → st.decideRead (streamOff a) n = .block →
        streamReached s (some (dieOf tile)) T.launchNo = true →
        ∃ t, Does s (.portReadResponse tile p true) t ∧ ((t.tile tile).port p) = { P with hwmBlocked := some s.now })) ∧
    (∀ r x rest, T.round = some r → r.ctx = g.ctx → P.toks = x :: rest → P.shareClosed = false → posFree r (T.ctx r.ctx) g.slot g.pos = true →
      (∀ y ∈ r.transit, y.tok.kind = x.kind → y.box = 2 * p → y.way ≠ 6) →
      ∃ t r1, Does s (.portReadResponse tile p false) t ∧ (t.tile tile).round = some r1 ∧ ((t.tile tile).port p).toks = rest ∧ t.mem = s.mem ∧
        r1.transit = r.transit ++
          [{ src := 256 + p, out := 0, index := g.slot, pos := g.pos, page := none, tok := { x with deps := [] }, box := 2 * p, way := 6,
             born := s.now, since := s.now }] ∧
        ((t.tile tile).port p).c = if x.level = 0 ∧ x.deps = [] then P.c + 1 else P.c)) ∧
  (∀ (s : State) (tile p : Nat) (g : PortProg) (w : PortWrite) (rest : List PortWrite), tile < tileCount → p < 4 → memoryOk s = true →
    let T := s.tile tile
    let P := T.port p
    let k := clusterOf tile
    P.prog = some g →
    (P.committed = w :: rest → publishDue s tile p = false → P.winBlocked = none → P.fault = none → writeDue s tile p w = true →
      let l := T.launchNo
      let h := streamHandle w.addr
      let o := streamOff w.addr
      let n := w.data.length
      let stream : Prop := g.spad = false ∧ g.isStream = true ∧ streamReached s (some (dieOf tile)) l = true
      let performed (key : Nat) (t : State) : Prop := Does s (.portWritePerform tile p) t ∧ t.mem = s.mem.writes (putBytes key w.data) ∧
        sameBytesBut s t (fun x => key ≤ x ∧ x < key + w.data.length) ∧ ((t.tile tile).port p).committed = rest ∧
        ((t.tile tile).port p).c = P.c + 1
      (g.spad = true → w.addr.toNat + w.data.length ≤ 2 ^ 21 → ∃ t, performed (spadKey k w.addr.toNat) t) ∧
      (∀ q x, g.spad = false → g.isStream = false → P.mustFlush g w.addr = false → portPiece s tile P g w.xlat w.addr = .ok (q, x) →
        x.2 = false → dupOf s q = none →
        ((q.home = .outside ∧ keyKind q.key ≠ 4) ∨ (q.home = .die (dieOf tile) ∧ servable s (dieOf tile) q = true) → ∃ t, performed q.key t) ∧
        (∀ h, q.home = .die h → h ≠ dieOf tile → ∃ t r, Does s (.portWritePerform tile p) t ∧ t.mem = s.mem ∧
          t.pkg.reqs = s.pkg.reqs ++ [r] ∧ r.home = h ∧ r.piece = q ∧ r.data = w.data ∧ r.tile = tile ∧ r.cmd = none ∧
          r.round = some { no := w.no, place := 0, port := some p, ctx := g.ctx, slot := 0, bySeq := false } ∧
          ((t.tile tile).port p).committed = rest ∧ ((t.tile tile).port p).c = P.c + 1)) ∧
      (stream → writeDecision s l h o n = .block →
        ∃ t, Does s (.portWritePerform tile p) t ∧ ((t.tile tile).port p) = { P with winBlocked := some s.now } ∧ t.mem = s.mem) ∧
      (∀ s1 ws, stream → writeDecision s l h o n = .pass → streamWrite s (some (dieOf tile)) l h o w.data = some (s1, ws) →
        ∃ t, Does s (.portWritePerform tile p) t ∧ t.mem = s.mem.writes ws ∧ ((t.tile tile).port p).committed = rest ∧
          ((t.tile tile).port p).c = P.c + 1 ∧ ((t.tile tile).port p).cursor = BitVec.ofNat 64 ((o + n) % 2 ^ 48)) ∧
      (∀ c, stream → writeDecision s l h o n = .fault c →
        ∃ t r, Does s (.portWritePerform tile p) t ∧ t.mem = s.mem ∧ t.dies = (s.modDie r.die (fun D => D.place r)).dies ∧ r.die = dieOf tile ∧
          r.amber = true ∧ r.source = 2 ∧ r.port = p ∧ r.ctx = g.ctx ∧ r.cause = 0x2C ∧ r.value = w.addr ∧
          ((t.tile tile).port p).committed = rest ∧ ((t.tile tile).port p).c = P.c + 1)) ∧
    (∀ n no more st st1, P.pubDue = (n, no) :: more → publishDue s tile p = true → s.stream T.launchNo (streamHandle g.base) = some st →
      st.advanceHwm (streamOff P.cursor) = some st1 → ∃ t st2, Does s (.portWritePerform tile p) t ∧ ((t.tile tile).port p).pubDue = more ∧
        ((t.tile tile).port p).committed = P.committed ∧ t.stream T.launchNo (streamHandle g.base) = some st2 ∧ st2.hwm = st1.hwm ∧
        st2.readers = st.readers ∧ t.mem = s.mem) ∧
    let ends := match s.launch T.launchNo with | some L => decide (L.phase = .ending) | none => false
    (P.flushDue g ends = true →
      let c := T.ctx g.ctx
      let i := if c.hotnext.toNat < c.hotlen.toNat then c.hotnext.toNat else 0
      let cleared (t : State) : Prop := ((t.tile tile).port p).delivered = 0 ∧ ((t.tile tile).port p).starved = 0 ∧
        ((t.tile tile).port p).page = none
      (c.hotbase = 0 ∨ c.hotlen = 0 → ∃ t, Does s (.hotnessFlush tile p) t ∧ cleared t ∧ t.mem = s.mem ∧
        ((t.tile tile).ctx g.ctx).hotovr = (if c.hotovr = 0xFFFFFFFF then c.hotovr else c.hotovr + 1)) ∧
      (∀ q x, c.hotbase ≠ 0 → c.hotlen ≠ 0 → lvAccess s k c T.tlb (c.hotbase + BitVec.ofNat 64 (16 * i)) 16 true = .ok ([q], x) →
        dupOf s q = none → (q.home = .outside ∧ keyKind q.key ≠ 4) ∨ (q.home = .die (dieOf tile) ∧ servable s (dieOf tile) q = true) →
        ∃ t, Does s (.hotnessFlush tile p) t ∧ cleared t ∧ t.mem = s.mem.writes (putBytes q.key (hotRecord P g)) ∧
          ((t.tile tile).ctx g.ctx).hotnext = BitVec.ofNat 32 ((i + 1) % c.hotlen.toNat))))

/-- R290, R292, R295, R298, R306: a blocked read goes on once the marks no longer block it, a blocked write once the window has room; a stream
with spilling extends its window after its delay; the deadlock detector writes one slate record of cause 0x28 when nothing has moved
for its interval. Until then each waits. -/
def Obligations.BlockedStreams : Prop :=
  ∀ (s : State) (tile l h o n : Nat) (who : Party), tile < tileCount → l < 2 ^ 14 → h < 2 ^ 15 →
    let mine := (s.tile tile).launchNo
    (∀ st, blockedRead s tile who = some (h, o, n) → s.stream mine h = some st →
      (st.decideRead o n ≠ .block → Does s (.streamReadUnblock tile who) (s.modTile tile (fun T => clearRead T who))) ∧
      (st.decideRead o n = .block → Waits s (.streamReadUnblock tile who))) ∧
    (blockedWrite s tile who = some (h, o, n) →
      (writeDecision s mine h o n ≠ .block → Does s (.streamWriteUnblock tile who) (s.modTile tile (fun T => clearWrite T who))) ∧
      (writeDecision s mine h o n = .block → Waits s (.streamWriteUnblock tile who))) ∧
    (∀ L st, s.launch l = some L → L.streams.find h = some st →
      let due := (blockedParties s L).any (fun p => p.1 = h && p.2.2 && p.2.1 + st.delay ≤ s.now)
      (st.spill = true → st.extent < st.limit * 2 ^ st.lfr → due = true →
        ∃ t c, Does s (.spill l h) t ∧ t.stream l h = some { st with extent := st.limit * 2 ^ st.lfr, clock := c } ∧ t.mem = s.mem) ∧
      (st.spill = false ∨ due = false → Waits s (.spill l h))) ∧
    (∀ L, s.launch l = some L →
      let span := 2 ^ (s.die L.home).dlint
      let due := L.fired = false ∧ L.progress + span ≤ s.now ∧ (blockedParties s L).any (fun p => p.2.1 + span ≤ s.now) = true
      (due → ∃ t r, Does s (.streamDeadlock l) t ∧ t.dies = (s.modDie r.die (fun D => D.place r)).dies ∧ r.die = L.home ∧ r.amber = false ∧
        r.cause = 0x28 ∧ r.source = 2 ∧ r.ctxid = L.ctxid.toNat ∧ t.launch l = some { L with fired := true } ∧ t.mem = s.mem) ∧
      (¬due → Waits s (.streamDeadlock l)))

/-- R305: the host's apertures: a bind takes effect with its valid bit only where its conditions hold, and a refused one reads with the bits [58:56] zero; the producer's write moves HWM and
the reader's releases as the marks' rules say; a refused access is counted and a refused read answers with ones; a write past the window
is dropped; the error count clears. -/
def Obligations.Apertures : Prop :=
  ∀ (s : State) (j off n : Nat) (v : Word) (data : List Byte), j < 256 →
    let A := s.aperture j
    let put (A : Aperture) : State := s.setAperture j A
    let refused := put { A with err := sat32 (A.err + 1) }
    let ones : Message := .hostData (List.replicate n 0xFF)
    (bindOk s v = true → Does s (.apertureBind j v) (put { A with bind := v })) ∧
    (bindOk s v = false → Does s (.apertureBind j v) (put { A with bind := v &&& 0x78FFFFFFFFFFFFFF })) ∧
    Does s (.apertureErr j) (put { A with err := 0 }) ∧
    (apertureOf s j = none → Does s (.apertureHwm j v) refused ∧ Does s (.apertureRel j v) refused ∧
      Does s (.apertureDataRead j off n) (refused.send ones) ∧ Does s (.apertureDataWrite j off data) refused) ∧
    (∀ b l h st, apertureOf s j = some (b, l, h, st) → s.stream l h = some st →
      let o := (st.tail + gap off st.tail % 2 ^ (b.toNat / 2 ^ 24 % 64)) % 2 ^ 48
      let m := v.toNat % 2 ^ 48
      let reader := b.toNat / 2 ^ 59 % 8
      (b.getLsbD 62 = false → st.rsv = st.hwm ∧ serialLe 48 st.hwm m = true ∧ gap m st.tf ≤ st.extent →
        ∃ t st1, Does s (.apertureHwm j v) t ∧ t.stream l h = some st1 ∧ st1.hwm = m ∧ st1.rsv = m ∧ st1.readers = st.readers) ∧
      (b.getLsbD 62 = true → Does s (.apertureHwm j v) refused) ∧
      (∀ r, b.getLsbD 62 = true → st.readers.find reader = some r → r.live = true → serialLt 48 m r.release = false → serialLe 48 m st.hwm = true →
        ∃ t st1 r1, Does s (.apertureRel j v) t ∧ t.stream l h = some st1 ∧ st1.hwm = st.hwm ∧ st1.readers.find reader = some r1 ∧ r1.release = m) ∧
      (b.getLsbD 62 = false → Does s (.apertureRel j v) refused) ∧
      (∀ s1 bs, st.decideRead o n = .pass → streamRead s none l h o n = some (s1, bs) → Does s (.apertureDataRead j off n) (s1.send (.hostData bs))) ∧
      (st.decideRead o n ≠ .pass → Does s (.apertureDataRead j off n) (refused.send ones)) ∧
      (∀ s1 ws, b.getLsbD 62 = false → st.decideWrite o data.length = .pass → streamWrite s none l h o data = some (s1, ws) →
        Does s (.apertureDataWrite j off data) (putMem s1 ws)) ∧
      (st.decideWrite o data.length ≠ .pass → Does s (.apertureDataWrite j off data) refused))

/-! ### Configuration, launches, tasks -/

/-- R123 to R126, R177, R211: what each command of a configuration stream does: the staged field, header part or selection it names, the
counting and the sum; a checksum that agrees starts the sum anew; a command that breaks a rule rejects the stream: a write without a selected
context, under no page header of its page, with a reserved field, or beyond its header's count; a page header beyond the page count or before
the last header's count is used up; a block header without a context or before any page header, with a part that is none; a reserved bit set;
a sum that differs; configuration-complete lets every written context take its staged contents; cfgs delivers its words, waits, goes on or
traps. The model's choices: that a page header beyond the page count and a block header before any page header reject the stream in an
image's own stream too (DESIGN CHOICE, log entry 95), and that a rejection waits while a context it clears has a round running (log entry 43). -/
def Obligations.ConfigurationStream : Prop :=
  ∀ (s : State) (L : Launch),
    let l := s.focus.launch
    let C := L.cfg
    let counts := C.header = none ∨ C.left ≠ 0
    (Delivers s L →
      (∀ (page : BitVec 4) (element : BitVec 6) (field : BitVec 5) (value : BitVec 16) (c u : Nat),
        let i := Instr.cfgWrite page element field value
        let C1 := taken C (page.toNat * 2 ^ 27 + element.toNat * 2 ^ 21 + field.toNat * 2 ^ 16 + value.toNat)
        let old := (s.tile u).ctx c
        (C.selected = some c → C.headers.contains page.toNat = true → page.toNat < L.pages → reservedField field.toNat value = false →
          counts → L.place[page.toNat]? = some u →
          ∃ t, Does s i t ∧ t.launch l = some { L with cfg := (headed C1).touch page.toNat c } ∧ t.mem = s.mem ∧
            (t.tile u).ctx c = { old with staged := some ((old.staged.getD old.block).setField element.toNat field.toNat value) }) ∧
        (touchedBusy s L = false → C.selected = none ∨ (C.headers.contains page.toNat = false ∨ L.pages ≤ page.toNat) ∨
            reservedField field.toNat value = true ∨ ¬counts → ∃ t, Does s i t ∧ StreamRejected L s t)) ∧
      (touchedBusy s L = false →
        (∀ (rsv : BitVec 25) (ctx : BitVec 3), rsv ≠ 0 ∨ ¬counts → ∃ t, Does s (.cfgSelectContext rsv ctx) t ∧ StreamRejected L s t) ∧
        (∀ (page : BitVec 4) (rsv : BitVec 8) (count : BitVec 16), rsv ≠ 0 ∨ L.pages ≤ page.toNat ∨ (C.header ≠ none ∧ C.left ≠ 0) →
          ∃ t, Does s (.cfgPageHeader page rsv count) t ∧ StreamRejected L s t) ∧
        (∀ (part : BitVec 4) (rsv : BitVec 8) (value : BitVec 16), rsv ≠ 0 ∨ 8 < part.toNat ∨ C.selected = none ∨ C.header = none ∨ C.left = 0 →
          ∃ t, Does s (.cfgBlockHeader part rsv value) t ∧ StreamRejected L s t)) ∧
      (∀ (ctx : BitVec 3), counts → ∃ t, Does s (.cfgSelectContext 0 ctx) t ∧ t.mem = s.mem ∧ t.tiles = s.tiles ∧
        let C1 : Cfg := { headed (taken C (2 ^ 31 + ctx.toNat)) with selected := some ctx.toNat }
        t.launch l = some { L with cfg := match C.header with | some p => C1.touch p ctx.toNat | none => C1 }) ∧
      (∀ (page : BitVec 4) (count : BitVec 16), page.toNat < L.pages → C.header = none ∨ C.left = 0 →
        ∃ t C1, Does s (.cfgPageHeader page 0 count) t ∧ t.launch l = some { L with cfg := C1 } ∧ t.mem = s.mem ∧ t.tiles = s.tiles ∧
          C1.header = some page.toNat ∧ C1.left = count.toNat ∧ C1.headers.contains page.toNat = true ∧ C1.selected = C.selected ∧
          C1.words = C.words.tail ∧ C1.index = C.index + 1) ∧
      (∀ (part : BitVec 4) (value : BitVec 16) (c p u : Nat), part.toNat ≤ 8 → C.selected = some c → C.header = some p → C.left ≠ 0 →
        L.place[p]? = some u →
        let old := (s.tile u).ctx c
        let b := old.staged.getD old.block
        ∃ t, Does s (.cfgBlockHeader part 0 value) t ∧ t.mem = s.mem ∧
          (t.tile u).ctx c = { old with staged := some { b with header := b.header.put part.toNat value } }) ∧
      (∀ (sum : BitVec 28),
        (C.sum % 2 ^ 28 = sum.toNat →
          Does s (.cfgChecksum sum) (s.setCfg l { C with words := C.words.tail, index := C.index + 1, sum := 0 })) ∧
        (C.sum % 2 ^ 28 ≠ sum.toNat → touchedBusy s L = false → ∃ t, Does s (.cfgChecksum sum) t ∧ StreamRejected L s t))) ∧
    (l < 2 ^ 14 → s.launch l = some L → cfgLive L = true → touchedBusy s L = false → C.words.tail = [] → C.header = none ∨ C.left = 0 →
      let took (t : State) : Prop := t.mem = s.mem ∧ ∀ p ∈ writtenOf s L, (t.tile p.2.1).ctx p.2.2 = takeStaged ((s.tile p.2.1).ctx p.2.2)
      (∀ u, C.by_ = some u → completeBroken s L true = none →
        ∃ t, Does s (.configurationComplete 0) t ∧ took t ∧
          t.launch l = some { L with cfg := { C with done := true, words := [], index := C.index + 1 } }) ∧
      (∀ im, C.by_ = none → L.saved = [] → pktSpace L.packet ≠ 0 → readImage s L.home L.packet L.source = some im → nextStream im (C.page + 1) = none →
        im.symbols = [] →
        completeBroken s L true = none →
        ∃ t, Does s (.configurationComplete 0) t ∧ took t ∧
          t.launch l = some { L with phase := .waved, cfg := { Cfg.reset with done := true } })) ∧
    (∀ (a b : Reg), Free s [a, b] → (s.x a).toNat % 4 = 0 → 1 ≤ (s.x b).toNat → (s.x b).toNat ≤ 2 ^ 20 → s.launch (focusLaunch s) = some L →
      let f := focusLaunch s
      let r := readWords s (here s).selected (here s).tlb (s.x b).toNat (s.x a)
      let ready : Prop := drained s s.focus.tile = true ∧ (sq s).queue = [] ∧ L.phase = .running ∧
        ∀ ps ∈ r.1, ∀ p ∈ ps, servable s (dieOf s.focus.tile) p = true
      (C.by_ = none →
        (ready → Does s (.cfgs a b) ((mergeRead s (dieOf s.focus.tile) r.1.flatten).setCfg f { Cfg.reset with
          words := r.1.map (fun ps => BitVec.ofNat 32 (leNat (ps.flatMap s.pieceBytes))), fault := r.2, by_ := some s.focus.tile })) ∧
        (¬ready → Waits s (.cfgs a b))) ∧
      (C.by_ = some s.focus.tile → C.done = true → DoesNext s (.cfgs a b) (s.setCfg f Cfg.reset)) ∧
      (C.by_ = some s.focus.tile → C.done = false → C.rejected = true →
        Does s (.cfgs a b) (takeTrap (s.setCfg f Cfg.reset) s.focus.tile 0x12 (BitVec.ofNat 64 C.index) (s.x a))) ∧
      (∀ c v p, C.by_ = some s.focus.tile → C.done = false → C.rejected = false → C.words = [] → C.fault = some (c, v, p) →
        let s1 := s.setCfg f Cfg.reset
        Does s (.cfgs a b) (takeTrap (priRequest s1 (dieOf s.focus.tile) (ctxHere s1).ctxid.toNat p) s.focus.tile c v (s.x a))) ∧
      (C.by_ = some s.focus.tile → C.done = false → C.rejected = false → C.words ≠ [] → Waits s (.cfgs a b)))

/-- R25 to R29, R256, R260 to R264: a packet is queued at its home die or refused with status 4, and waits while a drained link on its way or the
port it came by keeps it; the oldest launch is refused (status 2 or 3), waits, or
is placed on the clusters the rule chooses, its pages' sequencers cleared and its identifiers set; a waved launch that is not preempted receives its
seeds and runs; a quiescent one ends; an
ended and drained one retires, its units free and its generation advanced; a move carries a cluster's state to its new place. The model's
choices: the launch's index (DESIGN CHOICE, log entry 18), the order of packets from every source (log entry 81), which images cannot be read (DESIGN
CHOICE, log entry 82), that an empty stream section ends the launch and that an image without any stream is waved at once (DEDUCED, log entry
52), that all eight contexts get the identifier (log entry 40), that seeds carry a mark (DESIGN CHOICE, log entry 47), and the zeros of a
report without a placement (DESIGN CHOICE, log entry 94). -/
def Obligations.LaunchLifecycle : Prop :=
  ∀ (s : State) (die l : Nat) (L : Launch) (p : List Byte) (src : PacketSource), die < dieCount → l < 2 ^ 14 →
    let refusal (st : Nat) : List Byte := reportBytes (pktTag p) st 0 0 [] 0
    let heard := submitHeard s src
    (packetOk heard p = true → submitReady s die p src = true →
      Does s (.launchPacket die p src) (heard.modDie (pktDie p) (fun D => { D with queue := D.queue ++ [(p, src)] }))) ∧
    (packetOk heard p = false → submitReady s die p src = true → pktEndpoint p = 0x3FF → Does s (.launchPacket die p src)
      (putMem (heard.send (.report die (refusal 4))) (putBytes (hostKey (pktReply p)) (refusal 4)))) ∧
    (submitReady s die p src = false → Waits s (.launchPacket die p src)) ∧
    (s.pkg.ringHead ≠ s.pkg.ringTail → s.pkg.wiping = false →
      (s.pkg.ring.get [] (s.pkg.ringHead % 256)) ++ List.replicate (64 - (s.pkg.ring.get [] (s.pkg.ringHead % 256)).length) 0 = p →
      packetOk s p = true → routeOpen s 0 (pktDie p) = true → Does s .launchQueue (raiseVector ((s.modPkg (fun k => { k with ringHead := (k.ringHead + 1) % 256 })).modDie (pktDie p)
        (fun D => { D with queue := D.queue ++ [(p, .host)] })) 48)) ∧
    (s.pkg.ringHead = s.pkg.ringTail → Waits s .launchQueue) ∧
    (∀ rest, s.pkg.bootstat = 2 → s.pkg.wiping = false → (s.die die).queue = (p, src) :: rest → packetOk s p = true →
      (imageHead s die p src = none → ∃ t, Does s (.place die) t ∧ (t.die die).queue = rest ∧ t.launches = s.launches ∧
        t.clusters = s.clusters ∧ t.tiles = s.tiles ∧ (pktEndpoint p = 0x3FF → t.outbox = s.outbox ++ [.report die (refusal 2)])) ∧
      (∀ hd idx cs, imageHead s die p src = some hd →
        let P := leAt hd.2 0 2
        let k := ceilDiv P (pktDensity p)
        let enabled := ((List.range 40).filter (fun c => s.clusterEnabled (die * 40 + c))).length
        (enabled < k → ∃ t, Does s (.place die) t ∧ (t.die die).queue = rest ∧ t.launches = s.launches ∧ t.clusters = s.clusters ∧ t.tiles = s.tiles) ∧
        (k ≤ enabled → chooseClusters s die k = none ∨ newIndex s = none → Waits s (.place die)) ∧
        (k ≤ enabled → chooseClusters s die k = some cs → newIndex s = some idx →
          (readImage s die p src = none →
            let N := newLaunch s die p src (bareImage P) idx cs
            let report (st : Nat) : Message := .report die (reportBytes (pktTag p) st P N.ctxid.toNat N.place N.base)
            ∃ t, Does s (.place die) t ∧ (t.die die).queue = rest ∧ t.launch idx = none ∧
              (pktEndpoint p = 0x3FF → t.outbox = s.outbox ++ [report 0, report 2])) ∧
          (∀ im, readImage s die p src = some im → pktSpace p ≠ 0 →
            let N := newLaunch s die p src im idx cs
            imageTasksOk N im = true → strmsOk s die im.strms = true →
            (∀ q, nextStream im 0 = some (q, []) → ∃ t, Does s (.place die) t ∧ (t.die die).queue = rest ∧ t.launch idx = none) ∧
            (∀ q w ws, nextStream im 0 = some (q, w :: ws) ∨ (nextStream im 0 = none ∧ im.symbols = []) →
              ∃ t M, Does s (.place die) t ∧ t.launch idx = some M ∧ M.ctxid = N.ctxid ∧ M.place = N.place ∧ M.consist = cs ∧
                (nextStream im 0 = some (q, w :: ws) → M.phase = .configuring ∧ M.cfg = { Cfg.reset with page := q, words := w :: ws }) ∧
                (nextStream im 0 = none → M.phase = .waved) ∧ (t.die die).queue = rest ∧ (∀ c ∈ cs, (t.cluster c).launch = some idx) ∧
                ∀ q, q < im.pages → let T := t.tile (N.place.getD q 0)
                  T.launch = some idx ∧ T.page = q ∧ T.seq = Seq.reset ∧ ∀ c, c < 8 → (T.ctx c).ctxid = N.ctxid))))) ∧
    (s.launch l = some L →
      (L.phase = .waved → L.saved = [] → ∃ t, Does s (.seedInject l) t ∧ t.launch l = some { L with phase := .running, seeds := [] } ∧ t.mem = s.mem ∧
        ∀ u q, q < 4 → ((t.tile u).port q).toks = ((s.tile u).port q).toks ++
          (L.seeds.filter (fun x => L.place[x.page]? = some u ∧ x.port = q)).map (fun x => dataTok .scalar (widen x.type x.value.toNat) seedMark)) ∧
      (L.phase ≠ .waved ∨ L.saved ≠ [] → Waits s (.seedInject l)) ∧
      let still := L.phase = .running ∧ L.dead = false ∧ L.saved = [] ∧ isQuiescent s L = true
      let over_ := L.phase = .ending ∧ L.saved = [] ∧ launchDrained s L = true
      (still → Does s (.quiescent l) (s.setLaunch l { L with phase := .ending, status := 7 })) ∧ (¬still → Waits s (.quiescent l)) ∧
      (over_ → ∃ t, Does s (.retire l) t ∧ t.launch l = none ∧ t.pkg.gens.get 0 l = L.ctxid.toNat / 2 ^ 14 + 1 ∧
        ∀ k ∈ L.consist, (t.cluster k).launch = none ∧ ∀ j, j < 4 → (t.tile (k * 4 + j)).launch = none ∧ (t.tile (k * 4 + j)).seq = Seq.reset) ∧
      (¬over_ → Waits s (.retire l)) ∧
      (∀ pos target k, pos < 16 → target < clusterCount → k ≠ target → L.consist[pos]? = some k → (s.die L.home).compaction = true →
        L.pinned = false → L.dead = false → L.saved = [] → clusterFree s target = true → readoutReady s k = true →
        (L.phase = .configuring ∧ L.cfg.index = 0) ∨ L.phase = .waved ∨ L.phase = .running → L.cfg.by_ = none →
        dieOfCluster k = dieOfCluster target ∨ adjacentDies (dieOfCluster k) (dieOfCluster target) = true →
        ∃ t M, Does s (.moveCluster l pos target) t ∧ t.launch l = some M ∧ M.consist = L.consist.set pos target ∧
          M.place = L.place.map (fun u => if clusterOf u = k then target * 4 + u % 4 else u) ∧
          (t.cluster target).launch = (s.cluster k).launch ∧ (t.cluster target).tasks = (s.cluster k).tasks ∧
          (t.cluster target).events = (s.cluster k).events ∧ (t.cluster target).tl = (s.cluster k).tl ∧
          (t.cluster target).mx = (let m := (s.cluster k).mx
            if m.slotMode then { m with entry := 0, left := slotCycles (m.table.getD 0 0), begun := true } else m) ∧
          (t.cluster k).launch = none ∧
          ∀ j, j < 4 → t.tile (target * 4 + j) = (s.tile (k * 4 + j)).moveTo k target ∧ (t.tile (k * 4 + j)).launch = none))

/-- R250 to R256: a chosen ready task is dispatched: it runs, its wait bits are consumed unless sticky, and by kind a run starts, the
sequencer starts with the arguments in x4 to x6, or a command joins its chain; a task completes with its mask, barrier and graph
effect; a cmd task completes as its command ends, with a record only where its status is not ok: shown for every command of the four engines on
an operand that its checks refuse, and on good ones of two (that the task of any other command that ends completes with it stands in Ended, in
each statement of that command; a seq task at end: ContextControlAndEnd); cond, while and join nodes complete as their words and counts say.
What is not due waits. The model's choice: a reserved x[b] of task.dis and task.launch that is not zero is a bad operand (DESIGN CHOICE, log
entry 93). -/
def Obligations.TaskEngine : Prop :=
  ∀ (s : State) (k i : Nat), k < clusterCount → i < 512 →
    let K := s.cluster k
    let x := K.task i
    let e := x.image
    let u := entryTile s k e
    (chosen s k i = false → Waits s (.taskDispatch k i)) ∧
    (chosen s k i = true → ∃ t, Does s (.taskDispatch k i) t ∧ (t.cluster k).task i = { x with running := true, age := 0, lost := false } ∧
      (∀ b, b < 256 → (t.cluster k).events.get false b = (K.events.get false b && (entrySticky e || !(entryWait e).testBit b))) ∧
      (entryKind e = 0 → ((s.tile u).ctx (entryCtx e)).block.loaded = true →
        ((t.tile u).ctx (entryCtx e)).run = some { asked := entryBody e, done := 0, by_ := .task i, below := 0 } ∧ t.mem = s.mem) ∧
      (entryKind e = 1 → (t.tile u).seq = { (((s.tile u).seq.set 4 (BitVec.ofNat 64 (entryArg0 e))).set 5 (BitVec.ofNat 64 (entryArg1 e))).set 6
          (BitVec.ofNat 64 i) with phase := .running, mode := false, pc := BitVec.ofNat 14 (entryBody e / 4), task := some i } ∧ t.mem = s.mem) ∧
      (entryKind e = 2 →
        let eng := entryBody e % 8
        let c := K.chain eng (u % 4)
        ((t.cluster k).chain eng (u % 4)).next = c.next + 1 ∧ ((t.cluster k).chain eng (u % 4)).tail = (c.tail + 1) % 64 ∧
        t.mem = s.mem.writes (putBytes (spadKey k (ringOff eng (u % 4) c.tail)) (chainEntry (entryBody e / 8 % 256) eng (entryBody e / 2 ^ 11) (u % 4)
          false c.next (BitVec.ofNat 64 (entryArg0 e)) (BitVec.ofNat 64 (entryArg1 e)))) ∧ t.tiles = s.tiles) ∧
      (3 ≤ entryKind e → t.tiles = s.tiles ∧ t.mem = s.mem)) ∧
    (blockTaskDone s k i = true → ∃ t, Does s (.taskCompletion k i) t ∧ TaskCompleted s t k i (entrySet e) true) ∧
    (blockTaskDone s k i = false → Waits s (.taskCompletion k i)) ∧
    (x.running = true → tileRuns s u = true →
      let w := condWord s k e
      let trips := entryBody e / 2 ^ 32
      (entryKind e = 3 → ∃ t, Does s (.graphCond k i) t ∧ TaskCompleted s t k i (if w = 0 then elseMask e else entrySet e) true) ∧
      (entryKind e = 4 →
        (w ≠ 0 → trips = 0 ∨ x.count < trips → ∃ t, Does s (.graphWhile k i) t ∧ TaskCompleted s t k i (entrySet e) true ∧
          ((t.cluster k).task i).count = x.count + 1) ∧
        (w = 0 → ∃ t, Does s (.graphWhile k i) t ∧ TaskCompleted s t k i (elseMask e) true ∧ ((t.cluster k).task i).count = 0 ∧
          (t.cluster k).evq = K.evq) ∧
        (w ≠ 0 → trips ≠ 0 → trips ≤ x.count → (K.evq.get [] (u % 4)).length < 64 →
          ∃ t, Does s (.graphWhile k i) t ∧ TaskCompleted s t k i (elseMask e) true ∧ ((t.cluster k).task i).count = 0 ∧
            (t.cluster k).evq.get [] (u % 4) = K.evq.get [] (u % 4) ++ [tripRecord (u % 4) i])) ∧
      (entryKind e = 5 →
        (x.count + 1 = entryBody e % 2 ^ 16 → ∃ t, Does s (.graphJoin k i) t ∧ TaskCompleted s t k i (entrySet e) true ∧
          ((t.cluster k).task i).count = 0) ∧
        (x.count + 1 ≠ entryBody e % 2 ^ 16 → ∃ t, Does s (.graphJoin k i) t ∧ TaskCompleted s t k i 0 false ∧
          ((t.cluster k).task i).count = x.count + 1))) ∧
    (x.running = false → Waits s (.graphCond k i) ∧ Waits s (.graphWhile k i) ∧ Waits s (.graphJoin k i)) ∧
    (∀ tile y, y.task = some i → x.running = true →
      let evq := K.evq.get [] tile
      let ends (ins : Instr) (recs : List (List Byte)) : Prop :=
        ∃ t, Does s ins t ∧ TaskCompleted s t k i (entrySet e) true ∧ (t.cluster k).evq.get [] tile = evq ++ recs
      let failed (st : Nat) (rest : List Byte) : List (List Byte) := [engineRecord y.eng tile y.cmd st y.seq rest]
      let bad (ins : Instr) (eng cmd : Nat) (desc : Bool) (rest : List Byte) : Prop :=
        Starts s k tile eng cmd desc y → 512 ≤ y.b.toNat → ends ins (failed 0x11 rest)
      let a := leBytes 8 y.a.toNat
      let b := leBytes 8 y.b.toNat
      (∀ pick part g, (K.chain 1 tile).started.length ≤ pick → bad (.cpBulk k ⟨tile, pick, part⟩) 1 1 true (bulkRec 0 0 0) ∧
        bad (.cpMcast k ⟨tile, pick, part⟩) 1 2 true [] ∧ bad (.cpGrp k ⟨tile, pick, g⟩) 1 3 true [] ∧ bad (.cpAmo k ⟨tile, pick, ()⟩) 1 4 true [] ∧
        bad (.cpEnq k ⟨tile, pick, g⟩) 1 5 true []) ∧
      (fabBadMode (descriptor s k y) = false → bad (.redFab k tile) 2 1 true []) ∧
      (joinNow s k tile = none → bad (.redEst k tile) 2 2 true []) ∧ bad (.redRd k tile) 2 3 false [] ∧
      bad (.taskDef k tile) 3 1 true b ∧ bad (.taskDis k tile) 3 2 false a ∧ bad (.taskEvset k tile) 3 3 true b ∧
      (y.mode = true → Starts s k tile 3 4 false y → 64 ≤ y.a.toNat → ends (.taskTlset k tile) (failed 0x11 a)) ∧
      bad (.taskLaunch k tile) 3 5 false a ∧ (y.mode = true → bad (.mxMode k tile) 4 1 false a ∧ bad (.mxSlot k tile) 4 2 false a) ∧
      bad (.mxFree k tile) 4 3 false a ∧ bad (.mxRd k tile) 4 4 false a ∧
      (Starts s k tile 3 2 false y →
        y.a.toNat < 512 → y.b = 0 → ends (.taskDis k tile) []) ∧
      (Starts s k tile 4 3 false y →
        (y.a = 0 → y.b = 0 → ends (.mxFree k tile) []) ∧ (16 ≤ y.a.toNat → ends (.mxFree k tile) (failed 0x11 a))))

/-- R257, R258: the commands of the task engine on operands that pass its checks: an entry takes its image from the scratchpad, loses its
valid bit; events are set in a cluster of the consist, with the release flag once the issuer's writes are visible; a timeline is written,
which is privileged, the last of what the command does; a packet reaches its home die. Each ends with status 0 and its record. The model's
choices: that the record of task.launch echoes x[a] (DESIGN CHOICE, log entry 93), and that its LV address is translated in the context that
ctxsel names at the access (DEDUCED, log entry 16). -/
def Obligations.TaskCommands : Prop :=
  ∀ (s : State) (k tile : Nat) (x : Cmd),
    let u := k * 4 + tile
    let off := x.a.toNat % 2 ^ 21
    let named (v : Word) : List Byte := leBytes 8 v.toNat
    let i := x.b.toNat
    (Starts s k tile 3 1 true x → off % 128 = 0 → i < 512 → ((s.cluster k).task i).running = false →
      let e : BitVec 1024 := BitVec.ofNat 1024 (leNat (spadBytes s k off 128))
      (∀ v, pageTile s (s.cluster k).launchNo (entryPage e) = some v → clusterOf v = k → badEntry e true = false →
        ∃ t, Does s (.taskDef k tile) t ∧ (t.cluster k).task i = Task.fresh e ∧ Ended s t k tile x 0 (named x.b)) ∧
      (badEntry e true = true → ∃ t, Does s (.taskDef k tile) t ∧ ((t.cluster k).task i).image = ((s.cluster k).task i).image ∧
        Ended s t k tile x 0x12 (named x.b))) ∧
    (Starts s k tile 3 2 false x → x.b = 0 → x.a.toNat < 512 →
      ∃ t, Does s (.taskDis k tile) t ∧ entryValid ((t.cluster k).task x.a.toNat).image = false ∧ Ended s t k tile x 0 (named x.a)) ∧
    (∀ l L k2, Starts s k tile 3 3 true x → (s.cluster k).launch = some l → s.launch l = some L → L.consist[i]? = some k2 → i < 16 →
      off % 32 = 0 → (x.release = true → issuerReleased s k tile x = true) →
      ∃ t, Does s (.taskEvset k tile) t ∧ (∀ b, b < 256 → (leNat (spadBytes s k off 32)).testBit b = true ∨ (s.cluster k2).events.get false b = true →
        (t.cluster k2).events.get false b = true) ∧ Ended s t k tile x 0 (named x.b)) ∧
    (Starts s k tile 3 4 false x → x.a.toNat < 64 →
      (x.mode = true → issuerDone s k tile x = true → ∃ t, Ended s t k tile x 0 (named x.a) ∧
        Does s (.taskTlset k tile) (t.modCluster k (fun K => { K with tl := K.tl.put x.a.toNat x.b }))) ∧
      (x.mode = false → x.a.toNat ≠ 56 + tile → ∃ t, Does s (.taskTlset k tile) t ∧ (t.cluster k).tl.get 0 x.a.toNat = (s.cluster k).tl.get 0 x.a.toNat ∧
        Ended s t k tile x 5 (named x.a))) ∧
    (∀ ps y, Starts s k tile 3 5 false x → x.a.toNat % 64 = 0 → x.b = 0 →
      lvAccess s k (s.tile u).selected (s.cluster k).tlb x.a 64 false = .ok (ps, y) →
      ps.all (servable s (dieOfCluster k)) = true →
      let p := ps.flatMap s.pieceBytes
      packetOk s p = true → submitReady s (dieOfCluster k) p (.context (s.cluster k).launchNo) = true →
      ∃ t, Does s (.taskLaunch k tile) t ∧
        (t.die (pktDie p)).queue = (s.die (pktDie p)).queue ++ [(p, .context (s.cluster k).launchNo)] ∧ Ended s t k tile x 0 (named x.a))

/-! ### Cluster engines -/

/-- R347 to R356, R358, R361, R364, R365, R368: the commands of the copy engine on descriptors that pass its checks, as they start or as they
go on, in one of their parts. A part that reads a granule keeps the bytes that stand there; one that writes a granule puts, at its destination, the
bytes that were read, and the last of them ends the command, with its record; a copy whose bank is busy ends with 0x30, and one whose memory
lies at an endpoint that is not there with 0x38. A multicast writes each granule at each receiver of its mask and counts it at the receiver's barrier
in the next cycle; a group multicast, whose source has been read, sends its bytes to each endpoint of the mask that the group table gave as it
started: in this package, and one copy to another package, of at most 256 bytes; an endpoint that is not there has failed with reason 5; a remote
atomic and an enqueue send a request under the next tag, or are held until it is free, and end with 0x38 where the endpoint is not there. Model's
choices: that granules are steps of their own, in any order (log entry 39), the context of an LV address (DEDUCED, log entry 16), which package an
endpoint belongs to (log entry 50). -/
def Obligations.CopyCommands : Prop :=
  ∀ (s : State) (k tile pick g i : Nat) (x : Cmd), memoryOk s = true → descOk x = true →
    let d := descriptor s k x
    let die := dieOfCluster k
    let b := parseBulk d
    let m := parseMcast d
    let at_ (a : Word) : Nat := a.toNat % 2 ^ 21
    let src : Word := BitVec.ofNat 64 (leAt d 0 8)
    let lv (a : Word) (n : Nat) (wr : Bool) := lvAccess s k (s.tile (k * 4 + tile)).selected (s.cluster k).tlb a n wr
    let goes (ins : Instr) (y : Cmd) : Prop := ∃ t, Does s ins t ∧ t.mem = s.mem ∧ y ∈ copyStarted t k tile
    let ends (ins : Instr) (status : Nat) (rest : List Byte) : Prop := ∃ t, Does s ins t ∧ t.mem = s.mem ∧ Ended s t k tile x status rest
    let took (x : Cmd) (bs : List Byte) : Cmd := { x with src := x.src.put g bs, blocked := x.blocked.del (2 * g), since := s.now, stage := .begun x.bytes }
    let fresh (len : Nat) : Prop := g < granCount src.toNat len ∧ x.src.find g = none
    (Runs s k tile 1 1 pick x →
      (bulkOk d = false → ∀ part, ends (.cpBulk k ⟨tile, pick, part⟩) 0x11 (bulkRec 0 0 0)) ∧
      (bulkOk d = true → x.banks = 0 → (banksReady (s.cluster k).mx b.ss b.src b.len && banksReady (s.cluster k).mx b.ds b.dst b.len) = false →
        ∀ part, ends (.cpBulk k ⟨tile, pick, part⟩) 0x30 (bulkRec 0 0 0)) ∧
      (bulkOk d = true → banksReady (s.cluster k).mx b.ss b.src b.len = true → banksReady (s.cluster k).mx b.ds b.dst b.len = true →
        let missing := sideMissing s k tile x b.ss b.src b.len false || sideMissing s k tile x b.ds b.dst b.len true
        (missing = true → ∀ part, ends (.cpBulk k ⟨tile, pick, part⟩) 0x38 (bulkRec 0 0 0)) ∧
        (missing = false → fresh b.len →
          let off := granOff b.src.toNat g
          let n := granLen b.src.toNat b.len g
          let y : Cmd := { x with banks := bulkBanks b }
          (b.ss = 1 → at_ b.src + b.len ≤ 2 ^ 21 → goes (.cpBulk k ⟨tile, pick, .read g⟩) (took y (spadBytes s k (at_ b.src + off) n))) ∧
          (b.ss = 2 → let r := accRead (s.cluster k).mx (b.src.toNat + off) n
            goes (.cpBulk k ⟨tile, pick, .read g⟩) { took y r.1 with accFlags := x.accFlags ||| r.2 }) ∧
          (∀ ps us, b.ss = 0 → bit b.src 63 = false → lv (copyAddr 0 b.src off) n false = .ok (ps, us) → ps.all (servable s die) = true →
            goes (.cpBulk k ⟨tile, pick, .read g⟩) (took y (ps.flatMap s.pieceBytes)))) ∧
        (∀ bs, let off := granOff b.dst.toNat g
          let n := granLen b.dst.toNat b.len g
          missing = false → g < granCount b.dst.toNat b.len → x.fin.contains g = false → (bulkWhole b = true → (x.whole b.src b.len).isSome = true) →
          x.part b.src off n = some bs → bs.length = n →
          let y : Cmd := { x with banks := bulkBanks b, fin := x.fin ++ [g], blocked := x.blocked.del (2 * g + 1), since := s.now, stage := .begun (x.bytes + n) }
          let after (t : State) : Prop := Does s (.cpBulk k ⟨tile, pick, .write g i⟩) t ∧
            (y.fin.length < granCount b.dst.toNat b.len → y ∈ copyStarted t k tile) ∧
            (granCount b.dst.toNat b.len ≤ y.fin.length → Ended s t k tile x 0 (bulkRec b.len x.accFlags 0))
          (b.ds = 1 → at_ b.dst + b.len ≤ 2 ^ 21 → ∃ t, after t ∧ t.mem = s.mem.writes (putBytes (spadKey k (at_ b.dst + off)) bs)) ∧
          (b.ds = 2 → ∃ t, after t ∧ t.mem = s.mem ∧ (t.cluster k).mx = accWrite (s.cluster k).mx (b.dst.toNat + off) bs) ∧
          (∀ q us, b.ds = 0 → bit b.dst 63 = false → lv (copyAddr 0 b.dst off) n true = .ok ([q], us) → q.size = n → dupOf s q = none →
            ((q.home = .outside ∧ keyKind q.key ≠ 4) ∨ (q.home = .die die ∧ servable s die q = true) →
              ∃ t, after t ∧ t.mem = s.mem.writes (putBytes q.key bs)) ∧
            (∀ h, q.home = .die h → h ≠ die → (x.release = true → q.dup = 0) → ∃ t, after t ∧ t.mem = s.mem ∧
              ∃ r ∈ t.pkg.reqs, r.home = h ∧ r.piece = q ∧ r.data = bs ∧ r.cmd = some x.seq))))) ∧
    (∀ l L, Runs s k tile 1 2 pick x → (s.cluster k).launch = some l → s.launch l = some L →
      let rs := receivers L m.mask
      (mcastOk d L.consist.length = false → ∀ part, ends (.cpMcast k ⟨tile, pick, part⟩) 0x11 []) ∧
      (mcastOk d L.consist.length = true → m.ss = 1 →
        (at_ m.src + m.len ≤ 2 ^ 21 → fresh m.len →
          goes (.cpMcast k ⟨tile, pick, .read g⟩) (took x (spadBytes s k (at_ m.src + granOff m.src.toNat g) (granLen m.src.toNat m.len g)))) ∧
        (∀ r bs, let off := granOff m.dst g
          let n := granLen m.dst m.len g
          rs[i]? = some r → g < granCount m.dst m.len → x.fin.contains (i * 2 ^ 32 + g) = false → x.part m.src off n = some bs →
          (dieOfCluster r = die ∨ caughtUp s die (.die (dieOfCluster r)) = true) →
          let fin := x.fin ++ [i * 2 ^ 32 + g]
          ∃ t, Does s (.cpMcast k ⟨tile, pick, .write g i⟩) t ∧ t.mem = s.mem.writes (putBytes (spadKey r (m.dst + off)) bs) ∧
            (∀ j, m.bar = some j → (t.tile (r * 4 + m.rtile)).counts = (s.tile (r * 4 + m.rtile)).counts ++ [(s.now + 1, j, n)]) ∧
            (fin.length < granCount m.dst m.len * rs.length →
              { x with fin := fin, since := s.now, stage := .begun (mcastBytes m rs.length fin) } ∈ copyStarted t k tile) ∧
            (granCount m.dst m.len * rs.length ≤ fin.length → Ended s t k tile x 0 (leBytes 2 m.mask))))) ∧
    (Runs s k tile 1 3 pick x →
      let len := leAt d 12 4
      let group := leAt d 16 2
      let mask := x.groups.get 0 group
      (grpOk d = false ∨ mask = 0 → ends (.cpGrp k ⟨tile, pick, g⟩) 0x11 []) ∧
      (grpOk d = true → mask ≠ 0 → leAt d 18 1 = 1 → at_ src + len ≤ 2 ^ 21 → fresh len →
        let got := took x (spadBytes s k (at_ src + granOff src.toNat g) (granLen src.toNat len g))
        let es := maskBits mask
        let inside := grpInside s es
        let outside := grpOutside s es
        let G : Grp := { since := s.now, waiting := inside ++ outside, ok := 0, failed := (es.filter (endpointAbsent s)).map (fun e => (e, 5)) }
        (got.whole src len = none → goes (.cpGrp k ⟨tile, pick, g⟩) { got with stage := .begun 0 }) ∧
        (∀ bs, got.whole src len = some bs → inside ++ outside = [] → ends (.cpGrp k ⟨tile, pick, g⟩) 0x35 (grpRecord G (s.now - x.at_))) ∧
        (∀ bs, got.whole src len = some bs → inside ++ outside ≠ [] → ∃ t, Does s (.cpGrp k ⟨tile, pick, g⟩) t ∧ t.mem = s.mem ∧
          { got with stage := .grp G } ∈ copyStarted t k tile ∧
          t.pkg.grps = s.pkg.grps ++ inside.map (fun e =>
            { cluster := k, tile := tile, endpoint := e, group := group, off := leAt d 8 4, data := bs, seq := x.seq, judged := none,
              entry := 0, fin := [], clock := (s.die die).clock, source := none }) ∧
          (outside = [] → t.outbox = s.outbox) ∧
          (∀ e, outside = [e] → bs ≠ [] → bs.length ≤ 256 →
            let P := s.pkg.port (linkPort s e)
            let msg : Message := .grp (Config.packageOf e) (BitVec.ofNat 1024 (2 ^ e)) group (leAt d 8 4) bs.length bs
            (P.down = false → P.draining = false → P.transmit.open_ = true → t.outbox = s.outbox ++ [msg]) ∧
            (P.down = true ∨ P.draining = true ∨ P.transmit.open_ = false →
              t.outbox = s.outbox ∧ (t.pkg.port (linkPort s e)).waiting = P.waiting ++ [msg]))))) ∧
    (∀ h, Starts s k tile 1 3 true h → h.groups = s.pkg.groups) ∧
    (Runs s k tile 1 4 pick x →
      let n := if leAt d 24 1 / 16 % 2 = 1 then 8 else 4
      let wr : Bool := leAt d 24 1 % 16 != 10
      let held (r : Remote) : Cmd := { x with stage := .remote r }
      (amoDescOk d = false → ends (.cpAmo k ⟨tile, pick, ()⟩) 0x11 []) ∧
      (amoDescOk d = true → notLv src = false → src.toNat % n = 0 →
        (∀ e, endpointMissing s k tile src wr = some e → ends (.cpAmo k ⟨tile, pick, ()⟩) 0x38 (amoRecord 0 0 0 e)) ∧
        (∀ p us, endpointMissing s k tile src wr = none → lv src n wr = .ok ([p], us) →
          let r : Remote := { amoRemote s die d p with tag := (s.die die).nextTag }
          (tagFree s die = true → ∃ t, Does s (.cpAmo k ⟨tile, pick, ()⟩) t ∧ t.mem = s.mem ∧ held r ∈ copyStarted t k tile ∧
            (t.die die).tags = (s.die die).tags ++ [r.tag] ∧ (t.die die).nextTag = (r.tag + 1) % 2 ^ 16 ∧
            (∀ h, r.die = some h → t.pkg.asks = s.pkg.asks ++ [{ cluster := k, tile := tile, die := h, enq := false, req := r, moved := false }]) ∧
            (r.die = none → t.outbox =
              (s.leave r.endpoint (.amo r.endpoint (s.die die).endpoint r.tag 0 0 r.op (r.size = 8) (domainSpot r.key).2 r.t r.c)).outbox)) ∧
          (tagFree s die = false → ∃ t, Does s (.cpAmo k ⟨tile, pick, ()⟩) t ∧ t.mem = s.mem ∧
            held { amoRemote s die d p with held := true } ∈ copyStarted t k tile ∧ t.dies = s.dies)))) ∧
    (Runs s k tile 1 5 pick x →
      let len := leAt d 12 4
      let handle := leAt d 8 4
      let ep := handle / 2 ^ 12 % 1024
      let target := enqDie s die handle
      let there : Bool := match target with | some q => dieEnabled s q | none => endpointThere s ep
      (enqDescOk d = false → ends (.cpEnq k ⟨tile, pick, g⟩) 0x11 []) ∧
      (enqDescOk d = true → leAt d 16 1 = 1 → at_ src + len ≤ 2 ^ 21 → fresh len →
        let got := took x (spadBytes s k (at_ src + granOff src.toNat g) (granLen src.toNat len g))
        (got.whole src len = none → goes (.cpEnq k ⟨tile, pick, g⟩) { got with stage := .begun 0 }) ∧
        (∀ bs, got.whole src len = some bs →
          (there = false → ends (.cpEnq k ⟨tile, pick, g⟩) 0x38 (enqRecord 0 handle 0)) ∧
          (there = true → tagFree s die = true →
            ∃ t r, Does s (.cpEnq k ⟨tile, pick, g⟩) t ∧ t.mem = s.mem ∧ { got with stage := .remote r } ∈ copyStarted t k tile ∧
              r.tag = (s.die die).nextTag ∧ r.handle = handle ∧ r.data = bs ∧ r.wait = (leAt d 17 1 % 2 == 1) ∧
              (t.die die).tags = (s.die die).tags ++ [r.tag] ∧
              (∀ h, target = some h → t.pkg.asks = s.pkg.asks ++ [{ cluster := k, tile := tile, die := h, enq := true, req := r, moved := false }]) ∧
              (target = none → t.outbox = (s.leave ep (.enq ep (s.die die).endpoint r.tag 0 0 handle bs)).outbox)))))

/-- R357 to R360, R369: a receiver judges a group command as its first part arrives, by the receive entry that stands there then: refused with its
reason and nothing written, or pending; each granule of an accepted one is written once, where the entry says, and counted at its barrier in the next
cycle; it is acknowledged once all of it is written and visible; the sender merges acknowledgements and failures, and ends once it awaits no
endpoint more. An entry whose cluster byte is 40 or more counts as not mapped (reason 1), and a window that leaves the scratchpad as a fault (reason
3): the model's choice, like the layout of an acknowledgement (DESIGN CHOICE, log entry 50) and the order of the granules (log entry 39). -/
def Obligations.GroupMessages : Prop :=
  ∀ (s : State) (k tile e : Nat), k < clusterCount → tile < 4 →
    (∀ i g (m : GrpMsg) d, s.pkg.grps[i]? = some m → dieOfEndpoint s m.endpoint = some d →
      let step := Instr.grpMessage (.inside i g)
      let entry := (s.die d).receive.get 0 m.group
      let fl := recvAt entry 15 1
      let ctxid := recvAt entry 12 3
      let start (e : BitVec 192) : Nat := recvAt e 0 8 % 2 ^ 21 + m.off
      let live := ∃ L, s.launch (ctxIndex ctxid) = some L ∧ L.ctxid.toNat = ctxid ∧ L.phase ≠ .readOut
      let n := m.data.length
      let judged (r : Nat) : GrpMsg := { m with judged := some r, entry := entry }
      let refused (r : Nat) : Prop := ∃ t, Does s step t ∧ t.pkg.grps[i]? = some (judged r) ∧ t.mem = s.mem
      let wrote (e : BitVec 192) (y : GrpMsg) (t : State) : Prop :=
        let off := granOff (start e) g
        let len := granLen (start e) n g
        let u := (d * 40 + recvAt e 18 1) * 4 + recvAt e 19 1 % 4
        t.pkg.grps[i]? = some { y with fin := m.fin ++ [g] } ∧
        t.mem = s.mem.writes (putBytes (spadKey (d * 40 + recvAt e 18 1) (start e + off)) ((m.data.drop off).take len)) ∧
        (t.tile u).counts = (s.tile u).counts ++ (if recvAt e 15 1 / 32 % 2 = 1 then [(s.now + 1, recvAt e 16 2 % 1024, len)] else [])
      (grpReaches s d m = true → m.judged = none →
        (fl / 128 = 0 ∨ ¬live ∨ 40 ≤ recvAt entry 18 1 → refused 1) ∧
        (fl / 128 ≠ 0 → live → recvAt entry 18 1 < 40 →
          (recvAt entry 8 4 < m.off + n → refused 2) ∧
          (m.off + n ≤ recvAt entry 8 4 → fl / 64 % 2 = 1 → 2 ^ 21 < start entry + n → refused 3) ∧
          (m.off + n ≤ recvAt entry 8 4 → fl / 64 % 2 = 1 → start entry + n ≤ 2 ^ 21 → covered s d m.clock = true →
            g < granCount (start entry) n → m.fin.contains g = false →
            ∃ t, Does s step t ∧ wrote entry (judged 0) t ∧ (t.die d).pending.get 0 m.group = (s.die d).pending.get 0 m.group + 1))) ∧
      (grpReaches s d m = true → m.judged = some 0 → recvAt m.entry 15 1 / 64 % 2 = 1 → start m.entry + n ≤ 2 ^ 21 → covered s d m.clock = true →
        g < granCount (start m.entry) n → m.fin.contains g = false → m.fin.length < granCount (start m.entry) n → ∃ t, Does s step t ∧ wrote m.entry m t) ∧
      (m.judged = none → ∃ t, Does s (.grpMessage (.failed i)) t ∧ t.mem = s.mem ∧
        t.pkg.grps[i]? = some (judged (if judgeGrp s d m.group m.off n = 0 then 6 else judgeGrp s d m.group m.off n))) ∧
      (∀ from_ r, m.source = some from_ → m.judged = some r → m.over_ d = true →
        inFlight s (issuer (d * 40 + recvAt m.entry 18 1) (recvAt m.entry 19 1 % 4)) = false →
        ∃ t, Does s step t ∧ t.mem = s.mem ∧ t.pkg.grps = s.pkg.grps.erase m ∧
          t.outbox = (s.leave from_ (.grpAck from_ m.endpoint m.group r)).outbox)) ∧
    (∀ source group off data d, dieOfEndpoint s e = some d →
      (earOpen s source = true → ∃ t, Does s (.grpMessage (.outside source e group off data)) t ∧ t.mem = s.mem ∧
        let got : GrpMsg := { cluster := clusterCount, tile := 0, endpoint := e, group := group, off := off, data := data, seq := 0, judged := none,
                              entry := 0, fin := [], clock := [], source := some source }
        t.pkg.grps = s.pkg.grps ++ [got]) ∧
      (earOpen s source = false → Waits s (.grpMessage (.outside source e group off data)))) ∧
    (∀ reason d m, dieOfEndpoint s e = some d →
      s.pkg.grps.find? (fun m => m.cluster = k && m.tile = tile && m.endpoint = e && m.over_ d) = some m →
      inFlight s (issuer (d * 40 + recvAt m.entry 18 1) (recvAt m.entry 19 1 % 4)) = false → grpReaches s d m = true →
      ∃ t, Does s (.grpAck k tile e reason) t ∧ t.pkg.grps = s.pkg.grps.erase m ∧
        ∀ x g, (copyStarted s k tile).find? (fun x => x.seq = m.seq) = some x → x.stage = .grp g → x.eng = 1 → g.waiting.contains e = true →
          let g1 := g.heard e (m.judged.getD 0)
          g1.waiting ≠ [] → { x with stage := .grp g1 } ∈ copyStarted t k tile) ∧
    (∀ x g, awaiting s k tile e = some (x, g) → x.eng = 1 →
      let after (g1 : Grp) (t : State) : Prop :=
        (g1.waiting ≠ [] → { x with stage := .grp g1 } ∈ copyStarted t k tile) ∧
        (g1.waiting = [] → CanEnd s k tile x →
          Ended s t k tile x (if g1.failed.isEmpty then 0 else 0x35) (grpRecord g1 (s.now - x.at_)))
      let late := g.since + atLeast1 (s.cluster k).rtmo * ((s.cluster k).rmax + 1) ≤ s.now
      (∀ reason, dieOfEndpoint s e = none → earOpen s e = true → ∃ t, Does s (.grpAck k tile e reason) t ∧ after (g.heard e reason) t) ∧
      (late → ∃ t, Does s (.grpNoResponse k tile e) t ∧ after (g.heard e 4) t) ∧ (¬late → Waits s (.grpNoResponse k tile e))) ∧
    (∀ reason, dieOfEndpoint s e = none → awaiting s k tile e = none → Waits s (.grpAck k tile e reason) ∧ Waits s (.grpNoResponse k tile e))

/-- R361 to R366: a request at its target: answered from the reply cache, refused as too old with nothing executed, or executed once, its reply
kept; at the sender a reply ends the command, is followed by a later request, or is dropped and counted; an expired request is sent
again or ends without a response; a refused or held one takes a new tag when it may. That a known tag is answered from the cache also where the
page or queue has moved since is DEDUCED (log entry 87). -/
def Obligations.RemoteRequests : Prop :=
  ∀ (s : State) (k tile : Nat), k < clusterCount → tile < 4 →
    (∀ i (q : Ask), s.pkg.asks[i]? = some q →
      let r := q.req
      let D := s.die q.die
      let src := (s.die (dieOfCluster q.cluster)).endpoint
      let who := issuer q.cluster q.tile
      let known := D.replies.find? (fun y => y.endpoint = src && y.tag = r.tag)
      let home : Option Nat := if q.moved then some q.die else none
      let replied (st : Nat) (v : Word) (t : State) : Prop := t.pkg.asks = s.pkg.asks.eraseIdx i ∧
        t.pkg.answers = s.pkg.answers ++ [{ cluster := q.cluster, tile := q.tile, tag := r.tag, status := st, value := v, home := home }]
      let kept (st : Nat) (v : Word) (t : State) : Prop := replied st v t ∧
        (t.die q.die).replies = D.replies ++ [{ endpoint := src, tag := r.tag, status := st, value := v, at_ := s.now }]
      (q.enq = false → q.reaches s = true →
        let step := Instr.amoRequest (.inside i)
        (∀ y, known = some y → ∃ t, Does s step t ∧ replied y.status y.value t ∧ t.mem = s.mem) ∧
        let moved (key : Nat) : Prop := forwardKey s (dieOfCluster q.cluster) r.key = .ok (key, true)
        ((∀ key, ¬moved key) → known = none → 8400 ≤ ageOf s r.sent * 64 → ∃ t, Does s step t ∧ replied 0x34 0 t ∧ t.mem = s.mem) ∧
        (∀ key d1, known = none → moved key → keyHome s key = .die d1 →
          ∃ t, Does s step t ∧ t.pkg.asks[i]? = some { q with die := d1, req := { r with key := key }, moved := true } ∧ t.mem = s.mem ∧ t.dies = s.dies) ∧
        (∀ key, known = none → ageOf s r.sent * 64 < 8400 → D.replies.length < 4096 → forwardKey s (dieOfCluster q.cluster) r.key = .ok (key, false) →
          let p : Piece := { key := key, size := r.size, home := (match keyHome s key with | .die _ => .die q.die | h => h), dup := r.dup }
          dupOf s p = none → keyKind key ≠ 4 → servable s (dieOf who) p = true →
          let old := s.mem.nat key r.size
          let w := 8 * r.size
          ∃ t, Does s step t ∧ kept 0 (BitVec.ofNat 64 old) t ∧ t.mem = if r.op = 10 then s.mem else
            s.mem.writes (putBytes key (leBytes r.size (amoNew r.op w old (r.t.toNat % 2 ^ w) (r.c.toNat % 2 ^ w)))))) ∧
      (q.enq = true → q.reaches s = true →
        let step := Instr.enqRequest (.inside i)
        let Q := D.queues.get Queue.reset (r.handle % 4096)
        (∀ y, known = some y → ∃ t, Does s step t ∧ replied y.status y.value t ∧ t.mem = s.mem) ∧
        (forwardedQueue s q.die r.handle = none → known = none → ageOf s r.sent * 64 < 8400 → D.replies.length < 4096 →
          (Q.bound = none ∨ Q.gen ≠ r.handle / 2 ^ 22 → ∃ t, Does s step t ∧ kept 0x32 0 t ∧ t.mem = s.mem) ∧
          (∀ l h st, Q.bound = some (l, h) → Q.gen = r.handle / 2 ^ 22 → s.stream l h = some st →
            let n := r.data.length
            (st.extent < n → ∃ t, Does s step t ∧ kept 0x37 0 t ∧ t.mem = s.mem) ∧
            (n ≤ st.extent → st.extent < gap (st.rsv + n) st.tf → ∃ t, Does s step t ∧ kept 0x33 0 t ∧ t.mem = s.mem) ∧
            (∀ s1 ws, n ≤ st.extent → gap (st.rsv + n) st.tf ≤ st.extent → st.outstanding < 64 →
              streamWrite (s.markStream (some (dieOfCluster q.cluster)) l h (st.reserve n).1) (some (dieOfCluster q.cluster)) l h st.rsv r.data = some (s1, ws) →
              (s1.stream l h).any (fun y => (y.publish st.rsv n).isSome) = true →
              ∃ t, Does s step t ∧ kept 0 (BitVec.ofNat 64 st.rsv) t ∧ t.mem = s.mem.writes ws)))) ∧
      (∀ d1, q.enq = true → q.reaches s = true → known = none → forwardedQueue s q.die r.handle = some d1 → d1 ≠ q.die →
        ∃ t, Does s (.enqRequest (.inside i)) t ∧ t.pkg.asks[i]? = some { q with die := d1, moved := true } ∧ t.mem = s.mem)) ∧
    (∀ (die source tag retries age op : Nat) (wide : Bool) (a : Nat) (v c : Word) (n : Nat) (y : Word) (s1 : State) (ws : List (Nat × Byte)),
      die < dieCount → op < 12 → earOpen s source = true →
      let s0 := s.heard source
      let key := if a / 2 ^ 37 % 2 = 1 then lpddrKey die (a % 2 ^ 37) else sramKey die (a % 2 ^ 37)
      let at_ := outsideHome s die source tag key
      decide362 s0 at_.1 source tag age (runAmo s0 dieCount (at_.1 * 160) at_.1 at_.2 (if wide then 8 else 4) 0 op v.toNat c.toNat) = some (n, y, s1, ws) →
      ∃ t, Does s (.amoRequest (.outside die source tag retries age op wide a v c)) t ∧ t.mem = s.mem.writes ws ∧
        t.outbox = (s1.leave source (.ualink source (leBytes 2 tag ++ leBytes 2 n ++ leBytes 8 y.toNat))).outbox) ∧
    (∀ die source tag retries age handle data n y s1 ws, die < dieCount → earOpen s source = true →
      let d := enqTarget s die source tag handle
      let s0 := s.heard source
      decide362 s0 d source tag age (runEnq s0 none d handle data) = some (n, y, s1, ws) →
      ∃ t, Does s (.enqRequest (.outside die source tag retries age handle data)) t ∧ t.mem = s.mem.writes ws ∧
        t.outbox = (s1.leave source (.ualink source (leBytes 2 tag ++ leBytes 2 n ++ leBytes 8 y.toNat))).outbox) ∧
    (∀ (reply : Reply), s.pkg.answers.find? (fun a => a.cluster = k && a.tile = tile && a.tag = reply.tag) = none →
      (∀ x r, remoteOf s k tile (fun r => r.out && r.die.isNone && r.tag = reply.tag) = some (x, r) → earOpen s r.endpoint = true →
        sendsAgain r reply.status = false → reply.status ≠ 4 → CanEnd s k tile x →
        ∃ t, Does s (.amoReply k tile reply) t ∧ Ended s t k tile x reply.status (remoteRecord x r reply.value)) ∧
      (remoteOf s k tile (fun r => r.out && r.die.isNone && r.tag = reply.tag) = none →
        (reply.tag ∉ (s.die (dieOfCluster k)).tags → ∃ t, Does s (.amoReply k tile reply) t ∧ t.mem = s.mem ∧ t.clusters = s.clusters ∧
          (t.die (dieOfCluster k)).staleReplies = sat32 ((s.die (dieOfCluster k)).staleReplies + 1)) ∧
        (reply.tag ∈ (s.die (dieOfCluster k)).tags → Waits s (.amoReply k tile reply)))) ∧
    (∀ (reply : Reply) a, s.pkg.answers.find? (fun a => a.cluster = k && a.tile = tile && a.tag = reply.tag) = some a →
      let from_ (r : Remote) : Remote := match a.home with | some d => { r with endpoint := (s.die d).endpoint } | none => r
      (∀ x r, remoteOf s k tile (fun r => r.out && r.tag = a.tag) = some (x, r) → x.eng = 1 →
        (∀ d, (a.home.orElse (fun _ => r.die)) = some d → routeOpen s d (dieOfCluster k) = true) →
        (sendsAgain r a.status = true → ∃ t, Does s (.amoReply k tile reply) t ∧ t.mem = s.mem ∧ t.pkg.answers = s.pkg.answers.erase a ∧
          { x with stage := .remote { from_ r with refused := true, since := s.now } } ∈ copyStarted t k tile) ∧
        (∀ d, x.cmd = 5 → a.home = some d → sendsAgain r a.status = false → a.status ≠ 4 → CanEnd s k tile x →
          ∃ t, Does s (.amoReply k tile reply) t ∧ (t.die (dieOfCluster k)).handleHome.find r.handle = some d) ∧
        (sendsAgain r a.status = false → a.status ≠ 4 → CanEnd s k tile x →
          ∃ t, Does s (.amoReply k tile reply) t ∧ Ended s t k tile x a.status (remoteRecord x (from_ r) a.value) ∧
            t.pkg.answers = s.pkg.answers.erase a ∧ r.tag ∉ (t.die (dieOfCluster k)).tags ∧
            t.mem = if x.cmd = 4 ∧ a.status = 0 ∧ r.op ≠ 11 then s.mem.writes (putBytes (spadKey k r.res) (leBytes 8 a.value.toNat)) else s.mem)) ∧
      (remoteOf s k tile (fun r => r.out && r.tag = a.tag) = none → ∃ t, Does s (.amoReply k tile reply) t ∧ t.mem = s.mem ∧
        t.clusters = s.clusters ∧ (t.die (dieOfCluster k)).staleReplies = sat32 ((s.die (dieOfCluster k)).staleReplies + 1))) ∧
    (let due (r : Remote) : Bool := r.out && r.since + atLeast1 (s.cluster k).rtmo ≤ s.now
     (remoteOf s k tile due = none → Waits s (.retransmission k tile)) ∧
      (∀ x r, remoteOf s k tile due = some (x, r) → x.eng = 1 →
        (r.retries < (s.cluster k).rmax → ∃ t, Does s (.retransmission k tile) t ∧ t.mem = s.mem ∧
          { x with stage := .remote { r with retries := r.retries + 1, since := s.now } } ∈ copyStarted t k tile ∧
          (∀ h, r.die = some h → t.pkg.asks = s.pkg.asks ++
            [{ cluster := k, tile := tile, die := h, enq := x.cmd = 5, req := { r with retries := r.retries + 1, since := s.now }, moved := false }])) ∧
        ((s.cluster k).rmax ≤ r.retries → CanEnd s k tile x →
          ∃ t, Does s (.retransmission k tile) t ∧ t.mem = s.mem ∧ Ended s t k tile x 0x36 (remoteRecord x r 0)))) ∧
    (let again (i : Instr) (x : Cmd) (r : Remote) : Prop := ∃ t, Does s i t ∧ t.mem = s.mem ∧
        { x with stage := .remote { r with tag := (s.die (dieOfCluster k)).nextTag, sent := s.now, since := s.now, held := false, refused := false, retries := 0 } }
          ∈ copyStarted t k tile
     let due (r : Remote) : Bool := r.refused && r.since + atLeast1 (s.cluster k).rint ≤ s.now
     (∀ x r, remoteOf s k tile due = some (x, r) → x.eng = 1 → tagFree s (dieOfCluster k) = true → again (.retryInterval k tile) x r) ∧
      (remoteOf s k tile due = none → Waits s (.retryInterval k tile)) ∧
      (∀ x r, remoteOf s k tile (fun r => r.held) = some (x, r) → x.eng = 1 →
        (tagFree s (dieOfCluster k) = true → again (.tagHoldExpiry k tile) x r) ∧
        (tagFree s (dieOfCluster k) = false → Waits s (.tagHoldExpiry k tile))) ∧
      (remoteOf s k tile (fun r => r.held) = none → Waits s (.tagHoldExpiry k tile)))

/-- R341, R370 to R374, R383: a participant joins the reduction of its tag, or its tag is busy; once every cluster of the mask has issued and the
descriptors agree, the reduced elements are written where each participant asks and every command ends, and where they differ nothing
is written; red.rd writes the session's image. -/
def Obligations.FabricReductions : Prop :=
  ∀ (s : State) (k tile l : Nat) (L : Launch) (x : Cmd), l < 2 ^ 14 → s.launch l = some L →
    let d := descriptor s k x
    let pos := (s.cluster k).pos
    (Starts s k tile 2 1 true x → (s.cluster k).launch = some l →
      (fabBadMode d = true → ∃ t, Does s (.redFab k tile) t ∧ Ended s t k tile x 3 []) ∧
      (fabBadMode d = false → descOk x = true → fabOk d pos L.consist.length = true →
        (tagBusy L (fabTag d) pos = true → ∃ t, Does s (.redFab k tile) t ∧ t.mem = s.mem ∧ Ended s t k tile x 0x40 []) ∧
        (tagBusy L (fabTag d) pos = false → ∃ t, Does s (.redFab k tile) t ∧ t.mem = s.mem ∧
          { x with desc := some (spadBytes s k (x.a.toNat % 2 ^ 21) 64), stage := .partners } ∈ ((t.cluster k).chain 2 tile).started ∧
          t.launch l = some { L with reds := L.reds ++
            [{ pos := pos, tag := fabTag d, cluster := k, tile := tile, cmd := x.seq, desc := d }] })) ∧
      (fabBadMode d = false → descOk x = false ∨ fabOk d pos L.consist.length = false →
        ∃ t, Does s (.redFab k tile) t ∧ t.mem = s.mem ∧ Ended s t k tile x 0x11 [])) ∧
    (∀ (tag : Nat) (p : RedParty) (r : List RedParty), tag < 64 → partiesOf L tag = p :: r →
      let ps := sortParties (p :: r)
      let whole := ∀ i, i < 16 → (fabMask p.desc).testBit i = true → ∃ q ∈ ps, q.pos = i
      let ft := fabFt p.desc
      let rows := (List.range (fabCount p.desc)).map (fun i => ps.map (fun q => fabElem s q i))
      let es := rows.map (reduceElem ft (fabRnd p.desc))
      let encs := es.map (fun e => e.1)
      let bnd := reduceBound ft ps encs (reduceAll ft (fabRnd p.desc) rows).2.2
      let end_ (t : State) (status : Nat) (rest : List Byte) : Prop :=
        (ps.map (fun q => (q.cluster, q.tile))).Nodup → (∀ q ∈ ps, q.tile < 4 ∧ ∀ y ∈ ((s.cluster q.cluster).chain 2 q.tile).started, y.eng = 2) →
          ∀ q ∈ ps, ∀ y, ((s.cluster q.cluster).chain 2 q.tile).started.find? (fun y => y.seq = q.cmd) = some y → y.task = none →
            CanEnd s q.cluster q.tile y → Ended s t q.cluster q.tile y status rest
      (¬whole ∨ L.phase = .readOut ∨ partiesReach s ps = false → Waits s (.reductionStart l tag)) ∧
      (whole → L.phase ≠ .readOut → partiesReach s ps = true →
        ∃ t M, Does s (.reductionStart l tag) t ∧ t.launch l = some M ∧ M.reds = L.reds.filter (fun q => q.tag != tag) ∧
        (ps.all (fun q => fabAgree p.desc q.desc) = true →
          t.mem = s.mem.writes (ps.flatMap (fun q => partyWrites q encs bnd)) ∧ end_ t 0 (fabRecord bnd (flAll (es.map (fun e => e.2.1))) tag)) ∧
        (ps.all (fun q => fabAgree p.desc q.desc) = false → t.mem = s.mem ∧ end_ t 0x41 []))) ∧
    (Starts s k tile 2 3 false x → (s.cluster k).launch = some l → estOperands x = true →
      ∃ t, Does s (.redRd k tile) t ∧ Ended s t k tile x 0 [] ∧ t.mem = s.mem.writes (putBytes (spadKey k (x.a.toNat % 2 ^ 21))
        (match L.session with | some S => sessionImage S | none => leBytes 64 0)))

/-- R376 to R382, R385, R386: a root opens a session and lends its ports, a participant joins it, one with another root's parameters is refused, one
that cannot join yet waits. A participant that holds fewer than two chunks claims another; the root serves each claim with the next chunk of the
permuted indices until the stop or the budget. A commit turns a chunk's values into statistics, they merge at the root, each merge with a further claim, and the last merge ends the
session and every command with the final record; the stop reaches a participant, and its feed port is sent the level-2 stop. While the launch
is read out the session stands still. That a claim reaches the root in its own cycle is DEDUCED (log entry 53). -/
def Obligations.EstimatingSessions : Prop :=
  ∀ (s : State) (k tile l pos : Nat) (L : Launch) (x : Cmd), l < 2 ^ 14 → pos < 16 → s.launch l = some L →
    let d := estDesc s k x
    let at_ := (s.cluster k).pos
    let T := s.tile (k * 4 + estTile d)
    let free := portFree T (estFeed d) = true ∧ portFree T (estTake d) = true
    let waits := { x with desc := some d, stage := .session d }
    let with_ (S : Session) : Option Launch := some { L with session := some S }
    (Starts s k tile 2 2 true x → joinNow s k tile = none → (s.cluster k).launch = some l →
      let ends (status : Nat) : Prop := ∃ t, Does s (.redEst k tile) t ∧ t.mem = s.mem ∧ Ended s t k tile x status []
      let lent (P : Session → Prop) : Prop := ∃ t S, Does s (.redEst k tile) t ∧ t.mem = s.mem ∧ waits ∈ ((t.cluster k).chain 2 tile).started ∧
        t.launch l = with_ S ∧ P S ∧
        ((t.tile (k * 4 + estTile d)).port (estFeed d)).loan = true ∧ ((t.tile (k * 4 + estTile d)).port (estTake d)).loan = true
      (estOperands x = false ∨ estOk d = false → ends 0x11) ∧
      (estOperands x = true → estOk d = true → (estBusy s L k at_ = true → ends 0x40) ∧
        (estBusy s L k at_ = false →
          (at_ = 0 → openSession L = none → free →
            (takeSlotOk T d = true → lent (fun S => S.total = estN d ∧ S.nmax = estNmax d ∧ S.csz = estCsz d ∧ S.c = 0 ∧ S.n = 0 ∧
              S.stopped = false ∧ S.ended = false ∧ S.members.find 0 = some (newMember k tile x d false))) ∧
            (takeSlotOk T d = false → ends 0x11)) ∧
          (∀ S, openSession L = some S →
            (estParams d ≠ S.params → ends 0x41) ∧
            (estParams d = S.params → free → takeSlotOk T d = false → ends 0x11) ∧
            (estParams d = S.params → free → takeSlotOk T d = true →
              lent (fun S1 => S1 = { S with members := S.members.put at_ (newMember k tile x d S.stopped) }))) ∧
          (¬free ∨ (openSession L = none ∧ at_ ≠ 0) → (∀ S, openSession L = some S → estParams d = S.params) →
            ∃ t, Does s (.redEst k tile) t ∧ t.mem = s.mem ∧ waits ∈ ((t.cluster k).chain 2 tile).started ∧ t.launch l = some L)))) ∧
    (∀ S m, sessionAt s l pos = some (S, m) →
      let hi := min (S.c + S.csz) S.nmax
      let tokens := (List.range (hi - S.c)).map (fun i => dataTok .scalar (BitVec.ofNat 512 (permute S.seed S.total (S.c + i))) []) ++ [stopTok .scalar 1 []]
      let served := serveClaim s l pos
      let reached := rootReached s l m = true
      (S.ended = false → m.knows = false → m.owed = 0 → m.chunks.length < 2 → reached →
        Does s (.claim l pos) (s.setSession l (S.put pos { m with owed := 1 }))) ∧
      (S.ended = true ∨ m.knows = true ∨ m.owed ≠ 0 ∨ 2 ≤ m.chunks.length ∨ ¬reached → Waits s (.claim l pos)) ∧
      (m.owed ≠ 0 → S.stopped = false → S.c < S.nmax →
        served.launch l = with_ { S.put pos { m with owed := m.owed - 1, chunks := m.chunks ++ [(S.c, hi)] } with c := hi } ∧
        ((served.tile m.tile).port m.feed).toks = ((s.tile m.tile).port m.feed).toks ++ tokens) ∧
      (m.owed ≠ 0 → S.stopped = true ∨ S.nmax ≤ S.c → served = s.setSession l (S.put pos { m with owed := m.owed - 1, knows := true })) ∧
      (m.owed = 0 → served = s) ∧
      (∀ q rest, m.sums = q :: rest → S.ended = false → m.gone = false → reached → memberLost s l pos m = false →
        let S1 := mergeInto (S.put pos { m with sums := rest, sent := s.now, chunks := m.chunks.tail, owed := m.owed + (!m.knows).toNat }) q
        let live := S1.members.filter (fun p => !p.2.gone)
        (S1.complete = false → Does s (.merge l pos) (s.setSession l S1)) ∧
        (S1.complete = true → ∃ t M S2, Does s (.merge l pos) t ∧ t.launch l = some M ∧ M.session = some S2 ∧ S2.ended = true ∧
          S2.n = S1.n ∧ S2.mean = S1.mean ∧ S2.m2 = S1.m2 ∧
          ((live.map (fun p => (L.consist[p.1]?, p.2.from_))).Nodup →
            (∀ p ∈ live, p.2.from_ < 4 ∧ ∀ kk, L.consist[p.1]? = some kk → ∀ y ∈ ((s.cluster kk).chain 2 p.2.from_).started, y.eng = 2) →
            ∀ p ∈ live, ∀ kk y, L.consist[p.1]? = some kk →
              ((s.cluster kk).chain 2 p.2.from_).started.find? (fun y => y.seq = p.2.cmd) = some y → y.task = none → CanEnd s kk p.2.from_ y →
              Ended s t kk p.2.from_ y (if S1.failed then 0x43 else 0) (sessionRecord S1 p.2)))) ∧
      (m.sums = [] ∨ S.ended = true ∨ m.gone = true ∨ ¬reached ∨ memberLost s l pos m = true → Waits s (.merge l pos)) ∧
      (S.stopped = true → m.knows = false → reached → Does s (.stopNotice l pos) (s.setSession l (S.put pos { m with knows := true }))) ∧
      (S.stopped = false ∨ m.knows = true ∨ ¬reached → Waits s (.stopNotice l pos))) ∧
    (∀ S, L.session = some S → L.phase ≠ .readOut →
      (∀ key m, S.members.find? (fun p => p.1 % 16 = pos && p.2.stopDue) = some (key, m) →
        ∃ t, Does s (.level2Stop l pos) t ∧ t.mem = s.mem ∧ t.launch l = with_ (S.put key { m with level2 := true }) ∧
          ((t.tile m.tile).port m.feed).toks = ((s.tile m.tile).port m.feed).toks ++ [stopTok .scalar 2 []]) ∧
      (S.members.find? (fun p => p.1 % 16 = pos && p.2.stopDue) = none → Waits s (.level2Stop l pos))) ∧
    (∀ S key m, L.session = some S → S.members.find key = some m → m.gone = false →
      let vals := ((s.tile m.tile).port m.take).buf.map (takeValue m.vt)
      let given := ((s.tile m.tile).port m.feed).givenNow
      let st := vals.foldl Stats.update Stats.zero
      let t := sessionCommitOf s l key
      (vals.length = given → given ≠ 0 → m.closed = false → (m.level2 = false ∨ ((s.tile m.tile).port m.feed).toks ≠ []) → t.launch l = with_ (S.put key
        { m with sent := if m.sums.isEmpty then s.now else m.sent, sums := m.sums ++ [(st.n, st.mean.1, st.m2.1, (st.mean.2 ||| st.m2.2).toNat)], items := m.items + given })) ∧
      (vals.length ≠ given → ∃ M S2, t.launch l = some M ∧ M.session = some S2 ∧ S2.ended = true ∧ S2.failed = true)) ∧
    (L.phase = .readOut → Waits s (.claim l pos) ∧ Waits s (.merge l pos) ∧ Waits s (.stopNotice l pos) ∧ Waits s (.level2Stop l pos))

/-- R311, R312, R316, R325 to R329: the engine accepts its oldest due k-step and captures its bank's settings; the k-step it chooses runs for its
cycles, and as they end puts into each accumulator of its tile the products added and rounded; the SLOT walk goes on, starts over or takes up a new
table; the four commands set the mode, replace the table, empty complete tiles and write the image. The model's choices: that the sums stand as the step's cycles end and not before (DEDUCED, log entry 23)
and that mx.slot outside SLOT mode replaces the table at once (DEDUCED, log entry 58). -/
def Obligations.MatrixEngine : Prop :=
  ∀ (s : State) (k tile : Nat) (x : Cmd), k < clusterCount →
    let m := (s.cluster k).mx
    let setMx (f : Matrix → Matrix) : State := s.modCluster k (fun K => { K with mx := f K.mx })
    let due (q : Kstep) : Bool := !q.accepted && q.fired + 2 ≤ s.now
    let off := x.a.toNat % 2 ^ 21
    let ended (i : Instr) (status : Nat) (rest : List Byte) (m1 : Matrix) : Prop := ∃ t, Does s i t ∧ t.mem = s.mem ∧ (t.cluster k).mx = m1 ∧
      Ended s t k tile x status rest
    let echo := leBytes 8 x.a.toNat
    (∀ i q, m.queue[i]? = some q → due q = true → (∀ j r, j < i → m.queue[j]? = some r → due r = false) →
      Does s (.kstepAccept k) (setMx (fun m => { m with queue := m.queue.modify i (fun q =>
        { q with accepted := true, set := (m.bank (mmaBase q.imm)).set }) }))) ∧
    ((∀ q ∈ m.queue, due q = false) → Waits s (.kstepAccept k)) ∧
    (m.running = none → nextKstep s k = none → Waits s (.kstep k)) ∧
    (∀ q, m.running = none → nextKstep s k = some q → ∃ t, Does s (.kstep k) t ∧ t.mem = s.mem ∧ t.tiles = s.tiles ∧
      (t.cluster k).mx.banks = m.banks ∧ (t.cluster k).mx.running = some { q with started := true } ∧ (t.cluster k).mx.current = some q.node ∧
      (t.cluster k).mx.busyUntil = s.now + kstepCycles q ∧ (t.cluster k).mx.wait q.node = 0 ∧ (t.cluster k).mx.performed = m.performed) ∧
    (∀ q, m.running = some q → s.now < m.busyUntil → Waits s (.kstep k)) ∧
    (∀ q, m.running = some q → m.busyUntil ≤ s.now → mmaBase q.imm + tileBanks (mmaM q.imm) (mmaN q.imm) q.width ≤ 4 →
      q.width = 3 ∨ q.check = false ∨ roundOfKstep s k q = false →
      let A := (panelVals q.amod q.a).1
      let B := (panelVals (mmaBt q.imm) q.b).1
      ∃ t, Does s (.kstep k) t ∧ t.mem = s.mem ∧
        (∀ r c, r < mmaM q.imm → c < mmaN q.imm →
          let v := (kstepElem q.width (mmaRnd q.imm) (m.acc (mmaBase q.imm) (mmaN q.imm) q.width r c) (kstepPairs A B (mmaN q.imm) (mmaDepth q.amod) r c)).1
          (t.cluster k).mx.acc (mmaBase q.imm) (mmaN q.imm) q.width r c = Val.held v.hold) ∧
        (t.cluster k).mx.queue = m.queue.erase q ∧ (t.cluster k).mx.performed = m.performed + 1) ∧
    (let end_ := m.slotMode = true ∧ m.left = 0 ∧ m.running = none ∧ m.busyUntil ≤ s.now
     let at_ (m : Matrix) (i : Nat) : Matrix := { m with entry := i, left := slotCycles (m.table.getD i 0), begun := true }
     (¬end_ → Waits s (.slotEntryBoundary k)) ∧
     (end_ → (∀ T, m.newTable = some T → Does s (.slotEntryBoundary k) (setMx (fun m => at_ { m with table := T, newTable := none } 0))) ∧
       (m.newTable = none → m.entry + 1 < 64 → slotCycles (m.table.getD (m.entry + 1) 0) ≠ 0 →
         Does s (.slotEntryBoundary k) (setMx (fun m => at_ m (m.entry + 1)))) ∧
       (m.newTable = none → 64 ≤ m.entry + 1 ∨ slotCycles (m.table.getD (m.entry + 1) 0) = 0 →
         Does s (.slotEntryBoundary k) (setMx (fun m => at_ m 0))))) ∧
    (Starts s k tile 4 1 false x → x.b = 0 → m.running = none → m.busyUntil ≤ s.now →
      (x.mode = false → ended (.mxMode k tile) 5 echo m) ∧
      (x.mode = true → x.a = 1 → ended (.mxMode k tile) 0 echo { m with slotMode := true, entry := 0, left := slotCycles (m.table.getD 0 0), begun := true }) ∧
      (x.mode = true → x.a = 0 → (matrixContexts s k).length ≤ 4 → ended (.mxMode k tile) 0 echo { m with slotMode := false }) ∧
      (x.mode = true → x.a = 0 → 4 < (matrixContexts s k).length → ended (.mxMode k tile) 0x20 echo m)) ∧
    (Starts s k tile 4 2 false x → x.b = 0 → x.mode = true → off % 64 = 0 → off + 256 ≤ 2 ^ 21 →
      let T := readTable s k off
      (tableOk s k T = false → ended (.mxSlot k tile) 0x21 echo m) ∧
      (tableOk s k T = true → ended (.mxSlot k tile) 0 echo (if m.slotMode then { m with newTable := some T } else { m with table := T, newTable := none }))) ∧
    (Starts s k tile 4 3 false x → x.b = 0 → x.a.toNat < 16 →
      let mask := x.a.toNat
      ((∃ b, b < 4 ∧ mask.testBit b = true ∧ (m.bank b).tag = .open_) → ended (.mxFree k tile) 0x22 echo m) ∧
      ((∀ b, b < 4 → mask.testBit b = true → (m.bank b).tag ≠ .open_ ∧
          ((m.bank b).tag = .complete → (s.cluster k).copyHolds (m.bank b).first = false)) →
        ∃ t, Does s (.mxFree k tile) t ∧ t.mem = s.mem ∧
        Ended s t k tile x 0 echo ∧ ∀ b, b < 4 → mask.testBit b = true → ((t.cluster k).mx.bank b).tag = .empty)) ∧
    (Starts s k tile 4 4 false x → x.b = 0 → m.running = none → off % 64 = 0 →
      ∃ t, Does s (.mxRd k tile) t ∧ Ended s t k tile x 0 echo ∧ t.mem = s.mem.writes (putBytes (spadKey k off) (matrixImage m)))

/-! ### Invalidation, requests between dies, control, lanes -/

/-- R53, R61 to R63, R75: a range joins those that a die invalidates and, when no access through it is left, every matching translation of the die is
gone, a host request, which goes to every die, acknowledged as its last die completes; a page answer lets its contexts go on or makes their fault
fatal, those of a read-out launch too, and a stale one is counted; a home applies a request, a fabric atomic in one event, once its clock is covered
and packets reach it; a write to a duplicated page is applied after every holder has dropped its copy and after earlier writes of its die to that page; a late reply
to a request reported as lost is counted (R399). A UPLI request of another package reads, writes or changes memory where its address names it, or where
that has moved, and is answered (R390); another package changes its own memory. The layout of such a request is the model's choice (log entries 28, 50). -/
def Obligations.InvalidationAndRequests : Prop :=
  ∀ (s : State) (die : Nat), die < dieCount →
    let D := s.die die
    (∀ ctxid lo len, let v : Inval := { ctxids := [ctxid], lo := lo, len := len, ats := none }
      Does s (.invalidate die ctxid lo len false) (s.modDie die (fun D => { D with invals := D.invals ++ [v] })) ∧
      ∃ t, Does s (.invalidate die ctxid lo len true) t ∧ t.mem = s.mem ∧ ∀ d, d < dieCount → (t.die d).invals = (s.die d).invals ++ [v]) ∧
    (D.invals = [] → Waits s (.invalidationComplete die)) ∧
    (∀ v rest, D.invals = v :: rest →
      let last (q : AtsReq) : Prop := ∀ d, d < dieCount → ∀ w ∈ (if d = die then rest else (s.die d).invals), w.ats ≠ some q
      (accessLeft s v die = true → Waits s (.invalidationComplete die)) ∧
      (accessLeft s v die = false → ∃ t, Does s (.invalidationComplete die) t ∧ t.mem = s.mem ∧ (t.die die).invals = rest ∧
        (∀ u, dieOf u = die → t.tile u = dropTile v (s.tile u)) ∧ (∀ u, dieOf u ≠ die → t.tile u = s.tile u) ∧
        (∀ k, dieOfCluster k = die → (t.cluster k).tlb = dropXlats v (s.cluster k).tlb) ∧
        (v.ats = none → t.outbox = s.outbox) ∧
        ∀ q, v.ats = some q → (last q → t.outbox = s.outbox ++ [.atsDone q.die q.pasid v.lo v.len]) ∧ (¬last q → t.outbox = s.outbox))) ∧
    (∀ pasid lo len, ∃ t v, Does s (.atsInvalidation die pasid lo len) t ∧ t.mem = s.mem ∧ (∀ d, d < dieCount → (t.die d).invals = (s.die d).invals ++ [v]) ∧
      v.lo = lo ∧ v.len = len ∧ v.ats = some { pasid := pasid, die := die, no := s.pkg.atsNo } ∧ t.pkg.atsNo = s.pkg.atsNo + 1 ∧
      ∀ c C, C.pasid.toNat = pasid → (∃ u, (s.tile u).ctxs.find c = some C) ∨ (∃ l L, s.launch l = some L ∧ ∃ x ∈ L.saved, x.image.ctxs.find c = some C) →
        C.ctxid.toNat ∈ v.ctxids ∧ ∀ q ∈ t.pkg.resident, v.hits q.1 (q.2 * 2 ^ 14) (2 ^ 14) = false) ∧
    (∀ ctxid page ok,
      let step := Instr.priAnswer die ctxid page ok
      (D.pri.contains (ctxid, page) = false → Waits s step) ∧
      (D.pri.contains (ctxid, page) = true →
        (∀ L, s.launch (ctxIndex ctxid) = some L → L.ctxid.toNat = ctxid → ∃ t, Does s step t ∧ t.mem = s.mem ∧
          t.launch (ctxIndex ctxid) = some { L with saved := L.saved.map (fun x => { x with image := answerTile ctxid page ok x.image }) } ∧
          (t.die die).pri.contains (ctxid, page) = false ∧ (ok = true → t.pkg.resident.contains (ctxid, page) = true) ∧
          ∀ u ∈ L.place, ∀ c slot port source a, ((s.tile u).ctx c).ctxid.toNat = ctxid → ((s.tile u).ctx c).stopped = some (.pri page slot port source a) →
            ((t.tile u).ctx c).stopped = if ok then none else some (.cause 0xE [])) ∧
        ((∀ L, s.launch (ctxIndex ctxid) = some L → L.ctxid.toNat ≠ ctxid) → Does s step (s.modDie die (fun D =>
          { D with pri := D.pri.filter (fun q => q != (ctxid, page)), stale := sat32 (D.stale + 1) }))))) ∧
    (∀ id r, requestOf s id = some r →
      let n := r.piece.size
      let bytes := match r.amo with
        | some op => leBytes n (amoNew op (8 * n) (s.mem.nat r.piece.key n) (leNat r.data) 0)
        | none => r.data
      let step := Instr.remoteRequest (.inside id)
      let ready := r.holders = [] ∧ r.dropped = [] ∧ queuedBehind s r = false ∧ covered s r.home r.clock = true ∧
        (if r.home = outHome then portOpen s (domainSpot r.piece.key).1 else routeOpen s r.src r.home) = true
      (ready → ∃ t, Does s step t ∧ t.mem = s.mem.writes (putBytes r.piece.key bytes) ∧
        t.pkg.reqs = s.pkg.reqs.filter (fun q => q.id != r.id) ∧ t.dies = s.dies ∧ t.tiles = s.tiles) ∧
      (¬ready → Waits s step) ∧
      (∀ holder,
        (r.holders.contains holder = true → ∃ t, Does s (.dupInvalidation id holder) t ∧ t.mem = s.mem ∧
          requestOf t id = some { r with holders := r.holders.filter (· != holder), dropped := r.dropped ++ [holder] } ∧
          ∀ d, s.pkg.dups.find? (fun d => d.homeKey ≤ r.piece.key && r.piece.key < d.homeKey + 2 ^ r.piece.dup) = some d →
            ∃ e ∈ t.pkg.dups, e.ctxid = d.ctxid ∧ e.page = d.page ∧ e.homeKey = d.homeKey ∧ e.copies = d.copies ∧ holder ∈ e.dropped) ∧
        (r.holders.contains holder = false → Waits s (.dupInvalidation id holder)) ∧
        (r.dropped.contains holder = true →
          let r1 : Req := { r with dropped := r.dropped.filter (· != holder) }
          let last := reqReady (setRequest s r1) r1 = true
          (last → ∃ t, Does s (.dupAck id holder) t ∧ t.mem = s.mem.writes (putBytes r.piece.key bytes) ∧ ∀ q ∈ t.pkg.reqs, q.id ≠ id) ∧
          (¬last → ∃ t, Does s (.dupAck id holder) t ∧ t.mem = s.mem ∧ requestOf t id = some r1)) ∧
        (r.dropped.contains holder = false → Waits s (.dupAck id holder)))) ∧
    (∀ id, requestOf s id = none →
      (s.pkg.lost.find? (fun q => q.1 = id) = none → Waits s (.remoteRequest (.inside id))) ∧
      (∀ q, s.pkg.lost.find? (fun q => q.1 = id) = some q → ∃ t, Does s (.remoteRequest (.inside id)) t ∧ t.mem = s.mem ∧
        t.pkg.lost = s.pkg.lost.filter (· != q) ∧ (t.die q.2).staleReplies = sat32 ((s.die q.2).staleReplies + 1))) ∧
    (∀ source a n (data : List Byte) op wide (v c : Word), op < 12 →
      let asks : List Instr := [.remoteRequest (.read die source a n), .remoteRequest (.write die source a data), .remoteRequest (.atomic die source a op wide v c)]
      let answers (t : State) (status : Nat) (bs : List Byte) : Prop := t.outbox = ((s.heard source).leave source (.upliData source status bs)).outbox
      (earOpen s source = false → ∀ i ∈ asks, Waits s i) ∧
      (∀ f, earOpen s source = true → forwardKey s dieCount (upliKey die a) = .error f →
        ∀ i ∈ asks, ∃ t, Does s i t ∧ t.mem = s.mem ∧ answers t (if f = 0xF then 0x101 else 4) []) ∧
      (∀ key moved, earOpen s source = true → forwardKey s dieCount (upliKey die a) = .ok (key, moved) →
        (∃ t, Does s (.remoteRequest (.read die source a n)) t ∧ t.mem = s.mem ∧ answers t 0 (s.mem.bytes key (min n 256))) ∧
        (∃ t, Does s (.remoteRequest (.write die source a data)) t ∧ t.mem = s.mem.writes (putBytes key (data.take 256)) ∧ answers t 0 []) ∧
        (∀ h, keyHome s key = .die h → keyKind key ≠ 4 → servable s h { key := key, size := if wide then 8 else 4, home := .die h } = true → h < dieCount →
          let size := if wide then 8 else 4
          let old := s.mem.nat key size
          ∃ t, Does s (.remoteRequest (.atomic die source a op wide v c)) t ∧ answers t 0 (leBytes size old) ∧
            t.mem = if op = 10 then s.mem else
              s.mem.writes (putBytes key (leBytes size (amoNew op (8 * size) old (v.toNat % 2 ^ (8 * size)) (c.toNat % 2 ^ (8 * size)))))))) ∧
    (∀ e a (data : List Byte),
      let there := Config.domainHas e = true ∧ dieOfEndpoint s e = none
      ∃ t, Does s (.remoteRequest (.away e a data)) t ∧ (¬there → t = s) ∧
        (there → t.mem = s.mem.writes (putBytes (remoteKey e (a / 2 ^ 37 % 2 = 1) (a % 2 ^ 37)) (data.take 256))))

/-- R183, R272 to R278, R281, R282, R397: a write of the launch-control register is judged in its order; a preempt takes save frames, gates the tiles and
is busy until the readout has saved and freed the clusters; restore brings tiles back from their frames; resume lets stopped parts go on;
kill ends the launch. A waiting record is copied to its lane's ring, amber first, and lwr moves; its vector is raised, or firmware told where no host
driver is present; a read of lwr clears its vector. That the die of a page's tile, or the home die of a read-out launch, takes the write is DEDUCED
(log entry 55), and so are the waits: of restore while no clusters are free, of preempt, kill and resume while a record of the launch is not placed
(log entries 56 and 57). -/
def Obligations.ControlAndLanes : Prop :=
  ∀ (s : State) (die : Nat) (w : Word), die < dieCount →
    let D := s.die die
    let l := ctxIndex (ctlCtxid w)
    let fails (i : Instr) (r : Nat) : Prop := Does s i (s.modDie die (fun D => { D with busy := false, result := r }))
    let all (p : Instr → Prop) : Prop := p (.preempt die w) ∧ p (.restore die w) ∧ p (.resume die w) ∧ p (.kill die w)
    let own : Instr := if ctlOp w = 1 then .preempt die w else if ctlOp w = 2 then .restore die w else if ctlOp w = 3 then .resume die w else .kill die w
    let pageOk (L : Launch) : Prop := ctlOp w = 3 → ctlPage w < L.pages
    let idle_ (t : State) : Prop := (t.die die).busy = false ∧ (t.die die).result = 0
    (D.busy = true → all (Waits s)) ∧
    (D.busy = false → ctlOp w = 0 ∨ 4 < ctlOp w → all (fun i => fails i 2)) ∧
    (D.busy = false → 1 ≤ ctlOp w → ctlOp w ≤ 4 →
      (ctlReserved w = false → fails own 2) ∧
      (ctlReserved w = true → (s.launch l = none → fails own 1) ∧
        ∀ L, s.launch l = some L →
          (L.ctxid.toNat ≠ ctlCtxid w → fails own 1) ∧
          (L.ctxid.toNat = ctlCtxid w → (¬pageOk L → fails own 2) ∧ (pageOk L → controlDie L (ctlPage w) ≠ die → fails own 1) ∧
            (pageOk L → controlDie L (ctlPage w) = die → L.dead = true → ctlOp w ≠ 4 → fails own 3)))) ∧
    (∀ L, s.launch l = some L → L.ctxid.toNat = ctlCtxid w → D.busy = false → ctlReserved w = true → controlDie L (ctlPage w) = die →
      let free := freeFrames (s.die L.home)
      (L.dead = false → ctlOp w = 1 →
        (L.phase = .ending ∨ L.phase = .readOut ∨ L.saved ≠ [] → fails (.preempt die w) 3) ∧
        (L.phase = .configuring ∨ L.phase = .waved ∨ L.phase = .running → L.saved = [] →
          (free.length < L.pages → fails (.preempt die w) 4) ∧
          (L.pages ≤ free.length → L.place.any (unplaced s) = true → Waits s (.preempt die w)) ∧
          (L.pages ≤ free.length → L.place.any (unplaced s) = false → ∃ t M, Does s (.preempt die w) t ∧ t.mem = s.mem ∧ (t.die die).busy = true ∧
            t.launch l = some M ∧ M.saved.length = L.pages ∧ M.phase = L.phase ∧
            (∀ q, q < L.pages → (M.saved.getD q noSaved).frame = free.getD q 0) ∧
            ∀ k ∈ L.consist, ∀ j, j < 4 → (t.tile (k * 4 + j)).gated = true))) ∧
      (L.dead = false → ctlOp w = 2 → (L.phase ≠ .readOut → fails (.restore die w) 3) ∧
        (L.phase = .readOut → chooseClusters s L.home L.savedClusters.length = none → Waits s (.restore die w)) ∧
        (∀ cs, L.phase = .readOut → chooseClusters s L.home L.savedClusters.length = some cs →
          let place := (List.range L.pages).map (fun q => cs.getD (q / L.density) 0 * 4 + q % L.density)
          let goesOn := between { L with phase := L.resumeTo } = true
          (goesOn → ∃ t M, Does s (.restore die w) t ∧ idle_ t ∧ t.launch l = some M ∧ M.consist = cs ∧ M.place = place ∧ M.saved = []) ∧
          (¬goesOn → ∃ t M, Does s (.restore die w) t ∧ idle_ t ∧ t.launch l = some M ∧ M.phase = L.resumeTo ∧ M.consist = cs ∧ M.place = place ∧ M.saved = [] ∧
            (place.Nodup → ∀ q, q < L.pages → let x := L.saved.getD q noSaved
              let u := place.getD q 0
              ∃ s1, s1.mem = s.mem ∧ s1.pkg = s.pkg ∧ (∀ c, (s1.cluster c).tlb = (s.cluster c).tlb) ∧
                (∀ d, { s1.die d with clock := (s.die d).clock } = s.die d) ∧
                t.tile u = (tileFrom s1 (clusterOf u) (sramKey L.home (frameAddr (s.die L.home) x.frame)) x.image).moveTo (clusterOf x.tile) (clusterOf u))))) ∧
      (∀ u, L.dead = false → ctlOp w = 3 → ctlPage w < L.pages → L.place[ctlPage w]? = some u → unplaced s u = false →
        ∃ t, Does s (.resume die w) t ∧ t.mem = s.mem ∧ (∀ c, (t.tile u).ctx c = resumeCtx ((s.tile u).ctx c)) ∧
          (∀ e, 1 ≤ e → e ≤ 4 → (t.cluster (clusterOf u)).chain e (u % 4) = resumeChain ((s.cluster (clusterOf u)).chain e (u % 4))) ∧
          ((s.tile u).seq.phase ≠ .stopped → (t.tile u).seq = (s.tile u).seq) ∧
          ((s.tile u).seq.phase = .stopped → (s.tile u).seq.mode = true → (t.tile u).seq = (s.tile u).seq) ∧
          ((s.tile u).seq.phase = .stopped → (s.tile u).seq.mode = false →
            let back := (s.tile u).seq.tepc
            let past := (s.tile u).seq.tcause.getLsbD 30
            (past = false ∨ back ≠ 0x3FFF → (t.tile u).seq = { (s.tile u).seq with phase := .running, pc := if past then back + 1 else back }) ∧
            (past = true → back = 0x3FFF → (t.tile u).seq.tval = 0x10000 ∧ (t.tile u).seq.tcause.toNat % 2 ^ 16 = 3))) ∧
      (L.dead = false → ctlOp w = 3 → ctlPage w < L.pages → L.place[ctlPage w]? = none → fails (.resume die w) 3) ∧
      (∀ u, L.dead = false → ctlOp w = 3 → ctlPage w < L.pages → L.place[ctlPage w]? = some u → unplaced s u = true →
        Waits s (.resume die w)) ∧
      (ctlOp w = 4 → L.place.any (unplaced s) = true → Waits s (.kill die w)) ∧
      (ctlOp w = 4 → L.place.any (unplaced s) = false → ∃ t M, Does s (.kill die w) t ∧ t.mem = s.mem ∧ idle_ t ∧ t.launch l = some M ∧ M.phase = .ending ∧ M.status = 6 ∧ M.dead = true ∧
        ∀ k ∈ L.consist, ∀ j, j < 4 → (t.tile (k * 4 + j)).round = none ∧ (t.tile (k * 4 + j)).seq.phase = .idle)) ∧
    (∀ n L, n < 2 ^ 14 → s.launch n = some L →
      let due := L.saved ≠ [] ∧ L.phase ≠ .readOut ∧ (∀ k ∈ L.consist, readoutReady s k = true) ∧ (L.phase ≠ .configuring ∨ L.cfg.index = 0)
      (¬due → Waits s (.readoutComplete n)) ∧
      (due → ∃ t M, Does s (.readoutComplete n) t ∧ t.launch n = some M ∧ M.phase = .readOut ∧ M.resumeTo = L.phase ∧ M.consist = [] ∧
        M.savedClusters = L.consist.map s.cluster ∧ (t.die (controlDie L 0)).busy = false ∧ (t.die (controlDie L 0)).result = 0 ∧
        (∀ k ∈ L.consist, (t.cluster k).launch = none) ∧
        ∀ q, q < L.pages → (M.saved.getD q noSaved).image = savedImage (s.tile (L.place.getD q 0)) L.cfg.by_.isSome)) ∧
    (let room := if D.amber.room then D.slots.find? (fun r => r.amber) else none
     let copied (r : Rec) (lane : Lane) (n : Nat) (t : State) : Prop := Does s (.recordCopy die) t ∧
       (s.pkg.driverAbsent = false → n ∈ t.pkg.msix) ∧ (s.pkg.driverAbsent = true → t.outbox = s.outbox ++ [.firmware 4 n]) ∧
       t.mem = s.mem.writes (putBytes (sramKey die (lane.lbase + lane.lwr % 2 ^ lane.llen * 64)) (recBytes r))
     (∀ r, room = some r → ∃ t, copied r D.amber (2 * die) t ∧ (t.die die).amber.lwr = D.amber.lwr + 1 ∧ (t.die die).slate = D.slate) ∧
     (∀ r, room = none → D.slate.room = true → D.slots.find? (fun r => !r.amber) = some r →
       ∃ t, copied r D.slate (2 * die + 1) t ∧ (t.die die).slate.lwr = D.slate.lwr + 1 ∧ (t.die die).amber = D.amber) ∧
     (nextRecord D = none → Waits s (.recordCopy die))) ∧
    (∀ amber, ∃ t, Does s (.lwrRead die amber) t ∧ t.mem = s.mem ∧ 2 * die + (if amber then 0 else 1) ∉ t.pkg.msix ∧
      t.outbox = s.outbox ++ [.hostData (leBytes 8 (if amber then D.amber.lwr else D.slate.lwr))])

/-! ### Links, external ports, the platform -/

/-- R387 to R392, R394, R395, R398 to R400: in a cycle an end of a link sends the next flit, or sends again from its retry buffer, and at the other end
it is accepted at its number or discarded, and its sideband read; a link trains, or is dead after 16 retries or without lane lock, at both its ends,
and the launches routed across it stop; a direction whose key is spent takes its next key or stops with a record, and resumes at a cycle's end under
an installed one; an ingress message of an open port is written at its stream, held or dropped; a request is sent again or reported as lost, that of a
copy or a reduction at its command, that of a port or a sequencer by its fault or trap; a router powers down and wakes. The model's choices: the
sidebands that count and replays of a UALink port (DEDUCED, log entry 61); what new flits carry, and a message counted as one flit of its key (DESIGN
CHOICE, log entry 96); what waits leaves at a switch, and a resume comes with the end of a cycle (DEDUCED, log entry 62); the fate of a message
whose stream is not declared or of too small a scope (DEDUCED, log entry 63); the wait at 64 outstanding reservations (DEDUCED, log entry 72); a lost
sequencer load stays outstanding and its clock starts anew, and which waits are timed (DEDUCED, log entry 28). -/
def Obligations.LinksAndIngress : Prop :=
  ∀ (s : State) (die link k : Nat), die < dieCount → link < 4 → k < clusterCount →
    let L := (s.die die).link link
    let works := L.up = true ∧ L.dead = false
    let put (x : Link) : State := s.modDie die (fun D => D.setLink link x)
    let killed (t : State) : Prop := (t.die die).link link = { L with dead := true, draining := true } ∧ t.mem = s.mem ∧
      (∀ l, linkBack die link = some l →
        ((t.die (linkPeer die link)).link l).dead = true ∧ ((t.die (linkPeer die link)).link l).draining = true) ∧
      t.outbox = s.outbox ++ [.firmware 0 (die * 4 + link)] ∧
      ∀ l M, s.launch l = some M → usesLink s M die link = true → t.launch l = some { M with dead := true } ∧ ∀ u ∈ M.place, (t.tile u).dead = true
    (∀ data crc side back, linkBack die link = some back →
      let step := Instr.flit die link data crc side
      let peer := linkPeer die link
      let R := (s.die peer).link back
      let both := works ∧ R.up = true ∧ R.dead = false ∧ R.sentAt ≠ some s.now
      let data1 := Config.linkData peer back R.next
      (¬both → Waits s step) ∧
      (both → ∃ t, Does s step t ∧ t.mem = s.mem ∧
        let x := (t.die die).link link
        let y := (t.die peer).link back
        y.sentAt = some s.now ∧
        (∀ i, R.resendFrom = some i → y.next = R.next ∧ y.buf = R.buf ∧ y.resendFrom = (if i + 1 < R.buf.length then some (i + 1) else none) ∧
          y.wire = (R.buf[i]?).map (R.flit (R.next + 2 ^ 48 - R.buf.length + i))) ∧
        (R.resendFrom = none →
          (R.buf.length < 128 → R.draining = false →
            y.next = (R.next + 1) % 2 ^ 48 ∧ y.buf = R.buf ++ [data1] ∧ y.resendFrom = none ∧ y.wire = some (R.flit R.next data1)) ∧
          (128 ≤ R.buf.length ∨ R.draining = true → y.next = R.next ∧ y.buf = R.buf ∧ y.resendFrom = none ∧ y.wire = none)) ∧
        (side = none → x = L) ∧
        (∀ e, side = some e →
          let heard := (match y.wire with | some f => f.2.2 | none => R.report) ^^^ e
          let a := ackedBy L (heard.toNat % 2 ^ 15)
          let again := heard.getLsbD 15
          x.next = L.next ∧ x.buf = L.buf.drop a ∧ x.resendFrom = (if again then some 0 else L.resendFrom.map (· - a)) ∧
          x.retries = (if again then (if a ≠ 0 then 1 else L.retries + 1) else if a ≠ 0 then 0 else L.retries) ∧
          (y.wire = none → x.expected = L.expected ∧ x.taken = L.taken) ∧
          ∀ f, y.wire = some f →
            let ok : Bool := (f.2.1 ^^^ crc).toNat == flitCrc L.expected (f.1 ^^^ data)
            x.expected = (if ok then (L.expected + 1) % 2 ^ 48 else L.expected) ∧ x.retry = !ok ∧ x.discarding = !ok ∧
            x.taken = (if ok then f.1 ^^^ data else L.taken)))) ∧
    (∀ data crc side, linkBack die link = none → Waits s (.flit die link data crc side)) ∧
    (∀ data crc side p, p < 16 →
      Does s (.flit die (p + 4) data crc side) (if data = 0 ∧ crc = 0 ∧ side = some 0 then s else s.count (tmKey 1 dieCount p 0) 1)) ∧
    (works → 16 ≤ L.retries → ∃ t, Does s (.linkDead die link) t ∧ killed t) ∧ (L.retries < 16 → Waits s (.linkDead die link)) ∧
    (works → ∃ t, Does s (.laneLockLoss die link) t ∧ killed t) ∧ (¬works → Waits s (.laneLockLoss die link)) ∧
    (∀ ok, Does s (.linkTraining die link ok) (put { Link.reset with up := ok })) ∧
    (∀ ok p, p < 16 → ∃ t, Does s (.linkTraining die (p + 4) ok) t ∧ (t.pkg.port p).down = !ok ∧ (ok = false → (t.cap 0x1B).getLsbD p = false)) ∧
    (∀ p, p < 20 → ∃ t, Does s (.portDown p) t ∧ (t.pkg.port p).down = true ∧ (t.pkg.port p).draining = true ∧ t.outbox = s.outbox ++ [.firmware 1 p]) ∧
    (∀ p rx, p < 16 →
      let d := (s.pkg.port p).dir rx
      let spent := keySpent ≤ d.count ∧ d.stopped = false ∧ (rx = true ∨ (s.pkg.port p).waiting ≠ [])
      (spent → d.nextv = true → ∃ t, Does s (.keyExhaustion p rx) t ∧
        (let e := (t.pkg.port p).dir rx
         e.active = d.next ∧ e.next = 0 ∧ e.nextv = false ∧ e.stopped = false ∧ (rx = true → e.count = 0) ∧
         ∀ m, rx = false → (s.pkg.port p).waiting = [m] → linkPort s m.endpoint = p → (s.pkg.port p).down = false → (s.pkg.port p).draining = false →
           e.count = 1 ∧ t.outbox = s.outbox ++ [m])) ∧
      (spent → d.nextv = false → ∃ t, Does s (.keyExhaustion p rx) t ∧ ((t.pkg.port p).dir rx).stopped = true ∧
        t.dies = (s.record (keyRec s p rx)).dies) ∧
      (¬spent → Waits s (.keyExhaustion p rx)) ∧
      (∀ key, ∃ t, Does s (.seckey p rx key) t ∧ t.pkg.keyInstalls = s.pkg.keyInstalls + 1 ∧
        (t.pkg.port p).dir rx = { d with next := key, nextv := true }) ∧
      (d.stopped = true → d.nextv = true → keyRecWaits s p rx = false →
        let e := ((resumeKey s p rx).pkg.port p).dir rx
        e.active = d.next ∧ e.nextv = false ∧ e.stopped = false) ∧
      (d.stopped = false ∨ d.nextv = false ∨ keyRecWaits s p rx = true → resumeKey s p rx = s)) ∧
    (∀ (m : List Byte),
      let i := leAt m 0 1
      let e := ((s.die die).entry i).image
      let data := m.drop 8
      ((s.die die).stalled link = true ∨ etherOpen s link = false → Waits s (.ingressMessage die link m)) ∧
      ((s.die die).stalled link = false → etherOpen s link = true →
        (inValid e = false → Does s (.ingressMessage die link m) s) ∧
        (let unfit := m.length < 8 ∨ leAt m 1 7 ≠ 0 ∨ liveLaunch s (inCtxid e) = none ∨ ∃ l M, liveLaunch s (inCtxid e) = some (l, M) ∧
           (s.stream l (inHandle e) = none ∨ ∃ st, s.stream l (inHandle e) = some st ∧ (st.scope < 5 ∨ data = [] ∨ st.extent < data.length))
         inValid e = true → unfit → Does s (.ingressMessage die link m) (countIngress s die i false)) ∧
        (∀ l M st, 8 ≤ m.length → leAt m 1 7 = 0 → inValid e = true → liveLaunch s (inCtxid e) = some (l, M) → s.stream l (inHandle e) = some st →
          5 ≤ st.scope → 1 ≤ data.length → data.length ≤ st.extent →
          (st.extent < gap (st.rsv + data.length) st.tf →
            (inHold e = true → Does s (.ingressMessage die link m) (s.modDie die (fun D => { D with held := D.held.put link m }))) ∧
            (inHold e = false → Does s (.ingressMessage die link m) (countIngress s die i false))) ∧
          (gap (st.rsv + data.length) st.tf ≤ st.extent → 64 ≤ st.outstanding → Waits s (.ingressMessage die link m)) ∧
          (∀ s1 ws, gap (st.rsv + data.length) st.tf ≤ st.extent → st.outstanding < 64 →
            streamWrite (s.markStream none l (inHandle e) (st.reserve data.length).1) none l (inHandle e) st.rsv data = some (s1, ws) →
            (s1.stream l (inHandle e)).any (fun y => (y.publish st.rsv data.length).isSome) = true →
            ∃ t, Does s (.ingressMessage die link m) t ∧ t.mem = s.mem.writes ws))) ∧
      ((s.die die).held.find link = some m →
        (∀ s1 ws, ingressFate s die m = .written s1 ws → ∃ t, Does s (.ingressRetry die link) t ∧ t.mem = s.mem.writes ws ∧ (t.die die).held.find link = none) ∧
        (∀ s1, ingressFate s die m = .dropped s1 → ∃ t, Does s (.ingressRetry die link) t ∧ t.mem = s.mem ∧ (t.die die).held.find link = none) ∧
        (ingressFate s die m = .held → Waits s (.ingressRetry die link)))) ∧
    ((s.die die).held.find link = none → Waits s (.ingressRetry die link)) ∧
    (∀ i r, s.pkg.reqs.find? (fun r => r.id = i) = some r →
      let due := timedOut s r.src r.since
      let more := r.retries < (s.cluster (clusterOf r.tile)).rmax
      (due = false → Waits s (.requestTimeout (.store i))) ∧
      (due = true → more → ∃ t, Does s (.requestTimeout (.store i)) t ∧ t.mem = s.mem ∧
        t.pkg.reqs.find? (fun q => q.id = i) = some { r with retries := r.retries + 1, since := s.now }) ∧
      let j := r.tile % 4
      let kk := clusterOf r.tile
      (due = true → ¬more → ∃ t, Does s (.requestTimeout (.store i)) t ∧
        t.pkg.reqs = s.pkg.reqs.filter (fun q => q.id != i) ∧ t.pkg.lost = s.pkg.lost ++ [(i, r.src)] ∧
        (t.mem = s.mem ∨ t.mem = s.mem.writes (putBytes r.piece.key (r.bytes s))) ∧
        (r.cmd = none → t.dies = (s.record (lostStoreRec s r)).dies) ∧
        ∀ seq, r.cmd = some seq →
          (∀ x, ((s.cluster kk).chain 1 j).started.find? (fun x => x.seq = seq) = some x →
            (∃ n, t.dies = (s.record (cmdFaultRec s kk j x 3 0x2A r.addr n)).dies) ∧ ((t.cluster kk).chain x.eng j).stopped = true) ∧
          (((s.cluster kk).chain 1 j).started.find? (fun x => x.seq = seq) = none →
            t.dies = (s.record (s.tileRec r.tile false 3 0x2A r.addr [BitVec.ofNat 64 seq, 0, 0, 0])).dies))) ∧
    (∀ u i, u < tileCount →
      (∀ x, (s.tile u).round.bind (fun r => r.loads[i]?) = some x → x.whole = false → x.blocked = none →
        (bit x.addr 63 = false ∧ remotePieces (dieOf u) x.pieces = true) ∨
          (bit x.addr 63 = true ∧ ∃ M, s.launch (s.tile u).launchNo = some M ∧ M.home ≠ dieOf u) →
        (timedOut s (dieOf u) x.since = false → Waits s (.requestTimeout (.load u i))) ∧
        (timedOut s (dieOf u) x.since = true →
          Does s (.requestTimeout (.load u i)) (expectLate (fabricFault s u x.slot 0 0 0x2A x.addr none) u))) ∧
      (∀ x, (s.tile u).seq.loads[i]? = some x → (s.tile u).seq.phase = .running → (s.tile u).live = true → remotePieces (dieOf u) x.pieces = true →
        let step := Instr.requestTimeout (.seqLoad u i)
        let q := (s.tile u).seq
        let s1 (f : SeqLoad → SeqLoad) : State := s.modSeq u (fun q => { q with loads := q.loads.modify i (fun y => { f y with since := s.now }) })
        let more := x.value.isSome = true ∧ x.retries < (s.cluster (clusterOf u)).rmax
        let xa := (s1 id).xaAt u q.pcNat
        let trapped := takeTrap (s1 id) u 0x2A x.addr xa
        (timedOut s (dieOf u) x.since = false → Waits s step) ∧
        (timedOut s (dieOf u) x.since = true →
          (more → Does s step (s1 (fun y => { y with retries := y.retries + 1 }))) ∧
          (¬more → q.mode = false → q.tvec = 0 → Does s step (expectLate trapped u)) ∧
          (¬more → q.mode = true ∨ q.tvec ≠ 0 → Does s step (expectLate (trapped.record
            ((s1 id).tileRec u false 1 0x2A x.addr [q.pcWord, (trapCause q.mode false 0x2A).zeroExtend 64, q.lk, xa])) u))))) ∧
    (∀ u i g, u < tileCount → i < 4 →
      let P := (s.tile u).port i
      let a := g.addr P.issued
      P.prog = some g → g.spad = false → (s.tile u).live = true → P.fetching g = true → P.fault = none →
      (g.isStream = true ∧ ∃ M, s.launch (s.tile u).launchNo = some M ∧ M.home ≠ dieOf u) ∨
        (g.isStream = false ∧ ∃ q w, portPiece s u P g (P.windowed g a) a = .ok (q, w) ∧ remotePieces (dieOf u) [q] = true) →
      (P.since.any (timedOut s (dieOf u)) = false → Waits s (.requestTimeout (.port u i))) ∧
      (P.since.any (timedOut s (dieOf u)) = true → Does s (.requestTimeout (.port u i))
        ((expectLate (readFault s u i 0x2A a none) u).modTile u (fun T => T.modPort i (fun P => { P with since := none }))))) ∧
    (∀ tile pick part x n a, tile < 4 → ((s.cluster k).chain 1 tile).started[pick]? = some x → x.eng = 1 → x.stage = .begun n →
      waitingPart s k tile x part = some a → x.retryAt ≤ s.now → cmdReady s k tile true x = true →
      (timedOut s (dieOfCluster k) x.since = false → Waits s (.requestTimeout (.copy k tile pick part))) ∧
      (timedOut s (dieOfCluster k) x.since = true → ∃ t, Does s (.requestTimeout (.copy k tile pick part)) t ∧ t.mem = s.mem ∧
        t.dies = (s.record (cmdFaultRec s k tile x 3 0x2A a n)).dies ∧ ((t.cluster k).chain 1 tile).stopped = true)) ∧
    (∀ tile pick x l M q, tile < 4 → ((s.cluster k).chain 2 tile).started[pick]? = some x → x.eng = 2 → x.stage = .partners →
      (s.cluster k).launch = some l → s.launch l = some M → M.reds.find? (fun q => q.cluster = k && q.tile = tile && q.cmd = x.seq) = some q →
      (reductionLate s k (partiesOf M q.tag) = false → Waits s (.requestTimeout (.reduction k tile pick))) ∧
      (reductionLate s k (partiesOf M q.tag) = true → ∃ t, Does s (.requestTimeout (.reduction k tile pick)) t ∧ t.mem = s.mem ∧
        t.dies = (s.record (cmdFaultRec s k tile x 4 0x2A x.a 0)).dies ∧ ((t.cluster k).chain 2 tile).stopped = true ∧
        t.launch l = some { M with reds := M.reds.filter (fun q => !(q.cluster = k && q.tile = tile && q.cmd = x.seq)) })) ∧
    (let K := s.cluster k
     let quiet := K.routerDown = false ∧ 2 ^ (s.die (dieOfCluster k)).ridle ≤ routerIdle s k ∧ onStaticRoute s k = false
     (quiet → Does s (.routerPowerDown k) (s.setCluster k { K with routerDown := true })) ∧ (¬quiet → Waits s (.routerPowerDown k)) ∧
     Does s (.routerWake k) (s.setCluster k { K with routerDown := false, routerSince := s.now }))

/-- R266, R276, R281, R353, R392, R394, R396, R402 to R406, R409: boot starts, the host writes the image, and it runs or is refused and zeroed; a reset or an
authorised transition kills every launch and zeroes the package, and its end enters the target state; attestation answers are sent once the part
has its identity; scrubbing, uncorrectable errors, telemetry, clock and shutdown; the host's accesses to device memory, registers and BAR2;
the management registers. The model's choices: where the image stands, and that a refused one is zeroed with bootlen 0 (log entries 29, 66), how words
of arrays and TLBs are numbered and a scrubber's records (68), the bytes of attestation answers (69), what a reset wipes (65), the range after an
out-of-range write of ridle or scrint (30), the counters of a telemetry group (26), the places of registers in BAR2 and that a read of ringHead
clears its vector (DEDUCED, log entry 97), the places of registers in BAR0 and the apertures of BAR4 (DESIGN CHOICE, log entry 99). -/
def Obligations.Platform : Prop :=
  ∀ (s : State) (die : Nat), die < dieCount →
    let p := s.pkg
    let set (f : Pkg → Pkg) : State := s.modPkg f
    let canBoot := (p.bootstat = 0 ∨ p.bootstat = 3) ∧ p.wiping = false
    let wiped (target : Life) (t : State) : Prop := t.tiles = [] ∧ t.clusters = [] ∧ t.launches = [] ∧ t.now = s.now ∧ t.pkg.wiping = true ∧
      t.pkg.target = target ∧ t.pkg.life = p.life ∧ t.pkg.caps = p.caps ∧ t.pkg.secret = p.secret ∧ t.pkg.identity = p.identity ∧ t.pkg.bootstat = 0 ∧ t.pkg.flash = p.flash ∧
      (∀ key, keyInside key = true → t.mem.read key = 0) ∧ (∀ d, d < dieCount → t.die d = { Die.reset with cycleBase := s.now }) ∧
      (s.launches = [] → sameBytesBut s t (fun key => keyInside key = true))
    (canBoot → Does s .bootgo (set (fun p => { p with bootstat := 1 }))) ∧ (¬canBoot → Waits s .bootgo) ∧
    (p.bootstat = 1 → imageOk p (bootImage s) = true →
      Does s .imageVerified (set (fun p => { p with bootstat := 2, fwHash := Config.sha256 (bootImage s) }))) ∧
    (p.bootstat = 1 → imageOk p (bootImage s) = false →
      Does s .imageVerified (putMem (set (fun p => { p with bootstat := 3, bootlen := 0 })) (putBytes (sramKey 0 0) (List.replicate p.bootlen 0)))) ∧
    (∀ off (bs : List Byte), die = 0 →
      (canBoot → off + bs.length ≤ 2 ^ 30 → Does s (.registerWrite die (.bootImage off bs)) (putMem s (putBytes (sramKey 0 off) bs))) ∧
      (¬canBoot ∨ 2 ^ 30 < off + bs.length → Does s (.registerWrite die (.bootImage off bs)) s)) ∧
    (p.bootstat ≠ 1 → Waits s .imageVerified) ∧
    (∃ t, Does s .packageReset t ∧ wiped p.life t) ∧
    (∀ auth to_, p.life.next = some to_ → p.bootstat = 2 → Config.authorised auth = true → ∃ t, Does s (.lifeCycleTransition auth) t ∧ wiped to_ t) ∧
    (∀ auth, p.life = .returned ∨ p.bootstat ≠ 2 ∨ Config.authorised auth = false → Waits s (.lifeCycleTransition auth)) ∧
    (p.wiping = true →
      let id := if p.target = .provisioned && p.identity.isNone then some (Config.slhKeys p.secret) else p.identity
      Does s .wipeComplete (set (fun p => { p with wiping := false, life := p.target, identity := id }))) ∧
    (p.wiping = false → Waits s .wipeComplete) ∧
    (∀ nonce,
      let m := nonce ++ measurements p
      let signs (i : Instr) (sk : BitVec 512) (m : List Byte) : Prop := Does s i (s.send (.spdm m (leBytes 17088 (Config.slhSign sk m).toNat)))
      (∀ pk sk, p.identity = some (pk, sk) → Does s .getCertificate (s.send (.spdm (Config.certificate pk) [])) ∧ signs (.challenge nonce) sk nonce ∧
        signs (.getMeasurements nonce) sk m) ∧
      (p.identity = none → Waits s .getCertificate ∧ Waits s (.challenge nonce) ∧ Waits s (.getMeasurements nonce))) ∧
    (∀ array word, array ≤ 9 →
      Does s (.scrub die array word .clean) s ∧
      (∃ t, Does s (.scrub die array word .corrected) t ∧ t.mem = s.mem ∧ t.dies = s.dies ∧ t.tiles = s.tiles) ∧
      (1 ≤ array → ∃ t, Does s (.scrub die array word .uncorrectable) t ∧ t.mem = s.mem ∧
        (∀ u ∈ scrubTiles die array word, ∀ l, (s.tile u).launch = some l → (t.tile u).dead = true ∧
          ∀ L, s.launch l = some L → t.launch l = some { L with dead := true }) ∧
        let D := s.die die
        let holds (r : Rec) : Prop := t.die die = { D with scrubHeld := D.scrubHeld.put array r }
        (D.scrubHeld.find array = none → slotFree D true = true → t.die die = D.place (scrubRec s die array word)) ∧
        (D.scrubHeld.find array = none → slotFree D true = false → holds (scrubRec s die array word)) ∧
        (∀ r, D.scrubHeld.find array = some r → holds { r with info := r.info.set 2 (BitVec.ofNat 64 (sat32 ((r.info.getD 2 0).toNat + 1))) })) ∧
      (∀ i, array = 0 →
        let drops (w : Nat) (q : State → Prop) : Prop := ∃ t, Does s (.scrub die array w .uncorrectable) t ∧ t.mem = s.mem ∧ q t
        (∀ u, u < 160 → i < 256 → drops (u * 256 + i) (fun t => (t.tile (die * 160 + u)).tlb = (s.tile (die * 160 + u)).tlb.eraseIdx i)) ∧
        (∀ c, c < 40 → i < 2048 → drops (40960 + c * 2048 + i)
          (fun t => (t.cluster (die * 40 + c)).tlb = (s.cluster (die * 40 + c)).tlb.eraseIdx i)) ∧
        (∀ u q, u < 160 → q < 4 → i < 256 → drops (122880 + (u * 4 + q) * 256 + i) (fun t =>
          ((t.tile (die * 160 + u)).port q).tlb = ((s.tile (die * 160 + u)).port q).tlb.eraseIdx i))) ∧
      ∀ u, u < tileCount → 1 ≤ array → ∃ t, Does s (.uncorrectableError u array word) t ∧ t.mem = s.mem ∧ (t.tile u).dead = true ∧
        t.dies = (s.record (arrayRec s u array word)).dies ∧
        ∀ l L, (s.tile u).launch = some l → s.launch l = some L → t.launch l = some { L with dead := true }) ∧
    (p.lastFlush + 2 ^ 36 ≤ s.now → ∃ t, Does s .telemetryFlush t ∧ t.pkg.counts = [] ∧ t.pkg.lastFlush = s.now ∧ t.mem = s.mem ∧
      t.pkg.flash = addCounts (addCounts p.flash p.counts) (hourCounts s.now)) ∧
    (s.now < p.lastFlush + 2 ^ 36 → Waits s .telemetryFlush) ∧
    (∃ t, Does s .orderlyShutdown t ∧ t.pkg.shutDown = true ∧ t.pkg.counts = [] ∧ t.pkg.flash = addCounts (addCounts p.flash p.counts) (hourCounts s.now)) ∧
    Does s .powerFailure (set (fun p => { p with counts := [], shutDown := true })) ∧
    Does s .thermalShutdown (set (fun p => { p with shutDown := true })) ∧
    Does s (.throttle die) (s.modDie die (fun D => { D with clkcur := D.clkcur - 50 })) ∧
    (∀ v, ∃ t n, Does s (.tmsel v) t ∧ t.pkg.tmsel = v ∧ t.outbox = s.outbox ++ [.firmware 2 n] ∧ (tmSize (bits v 63 56) ≤ bits v 31 0 → n = 0)) ∧
    (∀ lp a n (bs : List Byte),
      let key := if lp then lpddrKey die a else sramKey die a
      let up := p.bootstat = 2 ∧ p.wiping = false
      let answer (x : List Byte) := Does s (.cxlMemAccess die lp a (.read n)) (s.send (.hostData x))
      (up → deviceMemory s die lp a n = true → answer (s.mem.bytes key n)) ∧
      (¬up ∨ deviceMemory s die lp a n = false → answer (List.replicate n 0xFF)) ∧
      (up → deviceMemory s die lp a bs.length = true → Does s (.cxlMemAccess die lp a (.write bs)) (putMem s (putBytes key bs))) ∧
      (¬up ∨ deviceMemory s die lp a bs.length = false → Does s (.cxlMemAccess die lp a (.write bs)) s) ∧
      let reads (x : HostAccess) (bytes : List Byte) : Prop := ∃ t, Does s (.cxlMemAccess die lp a x) t ∧ t.mem = s.mem ∧ t.outbox = s.outbox ++ [.hostData bytes]
      (∀ port rx, port < 16 →
        let d := (p.port port).dir rx
        reads (.register (.secstat port rx)) (leBytes 8 (BitVec.ofNat 64 (d.nextv.toNat * 2 ^ 63 + d.stopped.toNat * 2 ^ 62 + d.count)).toNat)) ∧
      (∀ e, e < 256 → let x := (s.die die).entry e
        reads (.register (.ingress e)) (leBytes 8 x.image.toNat ++ leBytes 4 x.delivered ++ leBytes 4 x.dropped)) ∧
      (∀ e, e < 4096 → reads (.register (.receive e))
        (leBytes 20 ((s.die die).receive.get 0 e).toNat ++ leBytes 4 ((s.die die).pending.get 0 e) ++ leBytes 8 0)) ∧
      reads (.register .control) (leBytes 8 ((if (s.die die).busy then 2 ^ 63 else 0) + (s.die die).result % 256)) ∧
      (∀ d place, d < dieCount → place < 2 ^ 21 → reads (.bar0 (d * 2 ^ 21 + place) none)
        (match Config.windowRead place with | some r => mgmtRead s d r | none => leBytes 8 0)) ∧
      reads (.hostRead a n) (s.mem.bytes (hostKey a) n) ∧ Does s (.cxlMemAccess die lp a (.hostWrite a bs)) (putMem s (putBytes (hostKey a) bs)) ∧
      (∃ t, Does s (.cxlMemAccess die lp a (.register .ringHead)) t ∧ t.mem = s.mem ∧ t.outbox = s.outbox ++ [.hostData (leBytes 8 p.ringHead)] ∧
        48 ∉ t.pkg.msix) ∧
      (∀ i j, i < 256 → j < 8 →
        reads (.bar2 (64 * i + 8 * j) none) (leBytes 8 (BitVec.ofNat 64 (leAt (p.ring.get (List.replicate 64 0) i) (8 * j) 8)).toNat)) ∧
      (∀ i o, i < 256 → o < 64 → reads (.bar2 (0x10000 + 64 * i + o) none) (leBytes 8 (apertureRegister s i o).toNat) ∧
        ∀ v, ∃ t, Does s (.cxlMemAccess die lp a (.bar2 (0x10000 + 64 * i + o) (some v))) t ∧ t.mem = s.mem ∧ t.pkg = (apertureWrite s i o v).pkg)) ∧
    (∀ v,
      let wrote (w : MgmtWrite) (q : Die → Prop) : Prop := ∃ t, Does s (.registerWrite die w) t ∧ t.mem = s.mem ∧ t.tiles = s.tiles ∧ q (t.die die)
      wrote (.dlint v) (fun D => D = { s.die die with dlint := max 16 (min 40 v) }) ∧
      wrote (.ridle v) (fun D => 8 ≤ D.ridle ∧ D.ridle ≤ 24 ∧ (8 ≤ v → v ≤ 24 → D.ridle = v)) ∧
      wrote (.scrint v) (fun D => 28 ≤ D.scrint ∧ D.scrint ≤ 40 ∧ (28 ≤ v → v ≤ 40 → D.scrint = v)) ∧
      wrote (.reqtmo v) (fun D => D = { s.die die with reqtmo := v }) ∧
      wrote (.spbase v) (fun D => D = { s.die die with spbase := v / 65536 * 65536 }) ∧
      wrote (.lrd true v) (fun D => D.amber.lrd = v ∧ D.slate = (s.die die).slate) ∧
      (∀ e image, e < 256 → wrote (.ingress e image) (fun D => D.entry e =
        { image := image.setWidth 64 &&& 0x0000C0FFFFFF7FFF, delivered := bits image 95 64, dropped := bits image 127 96 })) ∧
      (∀ e image, e < 4096 → wrote (.receive e image) (fun D => D.receive.get 0 e = image &&& 0x00000000033F03FFE0FFFFFFFFFFFFFFFFFFFFFFFFFFFFFF ∧
        D.pending = (s.die die).pending)) ∧
      (∀ l, wrote (.pause l) (fun D => D.link l = { (s.die die).link l with paused := true }) ∧
        wrote (.overrides l) (fun D => D.link l = { (s.die die).link l with avoided := true }) ∧
        wrote (.rerouted l) (fun D => D.link l = { (s.die die).link l with
          paused := false, draining := ((s.die die).link l).draining && !((s.die die).link l).avoided })) ∧
      (∀ port rx i (b : Byte), port < 16 → i < 32 → ∃ t, Does s (.registerWrite die (.seckeyByte port rx i b)) t ∧ t.mem = s.mem ∧
        let d := (p.port port).dir rx
        (t.pkg.port port).dir rx = { d with
          next := BitVec.ofNat 256 (leNat ((leBytes 32 d.next.toNat).take i ++ [b] ++ (leBytes 32 d.next.toNat).drop (i + 1))), nextv := d.nextv || i = 31 } ∧
        t.pkg.keyInstalls = p.keyInstalls + (if i = 31 then 1 else 0)) ∧
      (∀ c, c < 40 → ∃ t, Does s (.registerWrite die (.rmax c v)) t ∧ t.cluster (die * 40 + c) = { s.cluster (die * 40 + c) with rmax := v % 8 })) ∧
    ∀ w, ∃ t, Does s (.registerWrite die w) t ∧ t.mem = s.mem.writes (writeBytes s die w) ∧ t.tiles = s.tiles ∧ t.launches = s.launches

/-! ### Encodings and the machine -/

/-- R140 to R144, R189 to R194, R123 to R126: decoding the word of a well-formed instruction gives the instruction back, every operand with every value
that its encoding admits: of a sequencer instruction, of a slot word, of a configuration command. -/
def Obligations.DecodeOfEncode : Prop :=
  ∀ (i : Instr), wellFormed i = true →
    (∀ w, encode i = .seq w → decodeSeq w = .ok i) ∧ (∀ w, encode i = .slot w → decodeSlot w = .ok i) ∧ (∀ w, encode i = .cfg w → decodeCfg w = .ok i)

/-- R140 to R144, R189 to R194, R123 to R126: a word that decodes is the word of the instruction it decodes to, and that instruction is well formed: no two
words mean one instruction, and no bit of a word goes unread. -/
def Obligations.EncodeOfDecode : Prop :=
  (∀ (w : BitVec 32) (i : Instr), decodeSeq w = .ok i → encode i = .seq w ∧ wellFormed i = true) ∧
  (∀ (w : BitVec 64) (i : Instr), decodeSlot w = .ok i → encode i = .slot w ∧ wellFormed i = true) ∧
  (∀ (w : BitVec 32) (i : Instr), decodeCfg w = .ok i → encode i = .cfg w ∧ wellFormed i = true)

/-- R136, R140 to R166, R179, R189: words written out from the encodings decode to the instructions they stand for, and reserved words to none. -/
def Obligations.WordsDecode : Prop :=
  decodeSeq 0x04857000 = .ok (.add 4 5 14) ∧ decodeSeq 0x6A800807 = .ok (.mfs 20 0x807) ∧ decodeSeq 0x06B40022 = .ok (.popc 21 20) ∧
  decodeSeq 0x08000000 = .ok .nop ∧ decodeSeq 0xBC000002 = .ok .drain ∧ decodeSeq 0x0D8C9ABC = .ok (.addi 12 12 0x9ABC) ∧
  decodeSeq 0x118C5679 = .ok (.addi16 12 12 0x5679) ∧ decodeSeq 0x158C1234 = .ok (.addi32 12 12 0x1234) ∧ decodeSeq 0x19800000 = .ok (.addi48 12 0 0) ∧
  decodeSeq 0xB6842BE1 = .ok (.amo 20 4 5 3 3 1 1) ∧ (∃ e, decodeSeq 0x00000000 = .error e) ∧
  decodeBytes [0x00, 0x70, 0x85, 0x04] = .ok (.add 4 5 14) ∧
  decodeSlot 0x1001050000000000 = .ok (.fabAdd { pm := 0, mod := 0, t0 := 0x105, t1 := 0, imm := 0 })

/-- R4, R31, R136, R144, R187, R210, R409 (one order of the turns is the model's choice, log entries 1 and 35): with an empty agenda a cycle passes and the
sequencer in focus has its turn; else the agenda's next turn comes after its cycles, or another turn of the same cycle that no turn of that cycle comes
before; the packets of that turn wake routers, and change nothing else before it (R400). At its turn a sequencer executes the instruction that the four bytes at its pc decode to, or takes the illegal-instruction trap; a slot or a
stream runs the instruction of its word. Passing cycles change neither memory nor a sequencer, and a launch only by its session. -/
def Obligations.StepRunsDecodedInstruction : Prop :=
  ∀ (s : State), s.pkg.shutDown = false →
    let c := (chosenTurn s).1
    let s1 := (nextTurn s).1
    let u := (nextTurn s).2
    let at_ (f : Focus) : State := { s1 with focus := f }
    (∀ t, u = .seq t → t < tileCount → (s1.tile t).live = true → (s1.tile t).seq.phase = .running →
      (∀ i, decodeBytes (fetchBytes s1 t) = .ok i → step s = exec i (at_ { s1.focus with tile := t })) ∧
      (∀ e, decodeBytes (fetchBytes s1 t) = .error e → step s = exec (.illegalInstruction (fetchWord s1 t)) (at_ { s1.focus with tile := t }))) ∧
    (∀ t c x i, u = .slot t c x → t < tileCount → c < 8 → x < 128 → decodeSlot (((s1.tile t).ctx c).block.word x) = .ok i →
      step s = exec i (at_ { s1.focus with tile := t, ctx := c, slot := x })) ∧
    (∀ l L w ws i, u = .config l → s1.launch l = some L → L.cfg.words = w :: ws → decodeCfg w = .ok i →
      step s = exec i (at_ { s1.focus with launch := l })) ∧
    (∀ i, u = .event i → isEvent i = true → step s = exec i s1) ∧
    (s.agenda = [] → c = pass s 1 ∧ u = .seq s.focus.tile) ∧
    (∀ n v rest, s.agenda = (n, v) :: rest →
      let s0 := pass { s with agenda := rest } n
      let cycle := v :: (rest.takeWhile (fun x => x.1 = 0)).map (·.2)
      (cycle = [v] → n ≠ 0 ∨ s.marks = [] → c = s0 ∧ u = v) ∧ u ∈ cycle ∧
      ((∃ x ∈ cycle, ∀ y ∈ cycle, comesBefore (turnPlaces s0 y) (turnPlaces s0 x) = false) →
        ∀ y ∈ cycle, y ≠ u → comesBefore (turnPlaces s0 y) (turnPlaces s0 u) = false)) ∧
    (s1.tiles = c.tiles ∧ s1.dies = c.dies ∧ s1.launches = c.launches ∧ s1.pkg = c.pkg ∧ s1.now = c.now ∧ s1.agenda = c.agenda ∧ s1.outbox = c.outbox ∧
      ∀ k, ∃ down since, s1.cluster k = { c.cluster k with routerDown := down, routerSince := since }) ∧
    s1.mem = s.mem ∧ s1.focus = s.focus ∧ (∀ t, (s1.tile t).seq = (s.tile t).seq) ∧
    ((∀ q ∈ s.launches, q.2.session = none) → s1.launches = s.launches) ∧
    ∀ m, (pass s m).mem = s.mem ∧ (pass s m).now = s.now + m ∧ ∀ t, ((pass s m).tile t).seq = (s.tile t).seq

/-- R13, R31: whatever a step does, memory keeps its canonical form, so that equal memories stay equal data. -/
def Obligations.MemoryStaysCanonical : Prop := ∀ (s t : State), memoryOk s = true → step s = .next t → memoryOk t = true

/-- R135, R266, R353, R399, R400, R403, R405: right after reset memory is in its canonical form and every byte of it zero, every sequencer is idle with
every register zero, nothing is launched, boot has not begun, and the registers with a stated default hold it. The model's choices: that the trap
registers, ctxsel and the mode are zero (log entry 5), and that memory outside the package reads zero (log entry 6). -/
def Obligations.ResetState : Prop :=
  let s := State.reset
  memoryOk s = true ∧ (∀ k, s.mem.read k = 0) ∧ s.launches = [] ∧ s.pkg.bootstat = 0 ∧
  (∀ t, let q := (s.tile t).seq
    q.phase = .idle ∧ q.pc = 0 ∧ q.lk = 0 ∧ q.mode = false ∧ q.ctxsel = 0 ∧ q.tvec = 0 ∧ q.tepc = 0 ∧ q.tcause = 0 ∧ q.tval = 0 ∧ q.tscratch = 0 ∧
    (∀ r, q.get r = 0) ∧ ∀ c, ((s.tile t).ctx c).block.loaded = false ∧ ((s.tile t).ctx c).fstat = 0) ∧
  (∀ k, (s.cluster k).rtmo = 4096 ∧ (s.cluster k).rmax = 7 ∧ (s.cluster k).rint = 1024 ∧ (s.cluster k).launch = none) ∧
  (∀ d, (s.die d).dlint = 24 ∧ (s.die d).ridle = 12 ∧ (s.die d).scrint = 34 ∧ (s.die d).reqtmo = 65536 ∧ (s.die d).compaction = false)

/-- R10, R13, R31: every well-formed instruction, at a place that exists, comes to a next state: none is refused, and none stops the machine; and no step of
any machine is refused. -/
def Obligations.EveryInstructionCompletes : Prop :=
  (∀ (i : Instr) (s : State), wellFormed i = true → focusOk s = true → completes (exec i s)) ∧
  ∀ (s : State) (r : Refusal), step s ≠ .refused r
end

