-- ==== Sys2Proof/Laws/Dispatch.lean ====
section
/-! SUPPORT. The meaning of each step by name: one lemma per constructor of Instr, so that no proof unfolds the dispatcher. -/

namespace Sys2Proof.Machine

variable (s : State)

@[simp] theorem exec_add (d : BitVec 5) (a : BitVec 5) (b : BitVec 5) : exec (.add d a b) s = execAdd d a b s := rfl
@[simp] theorem exec_sub (d : BitVec 5) (a : BitVec 5) (b : BitVec 5) : exec (.sub d a b) s = execSub d a b s := rfl
@[simp] theorem exec_and (d : BitVec 5) (a : BitVec 5) (b : BitVec 5) : exec (.and d a b) s = execAnd d a b s := rfl
@[simp] theorem exec_or (d : BitVec 5) (a : BitVec 5) (b : BitVec 5) : exec (.or d a b) s = execOr d a b s := rfl
@[simp] theorem exec_xor (d : BitVec 5) (a : BitVec 5) (b : BitVec 5) : exec (.xor d a b) s = execXor d a b s := rfl
@[simp] theorem exec_sll (d : BitVec 5) (a : BitVec 5) (b : BitVec 5) : exec (.sll d a b) s = execSll d a b s := rfl
@[simp] theorem exec_srl (d : BitVec 5) (a : BitVec 5) (b : BitVec 5) : exec (.srl d a b) s = execSrl d a b s := rfl
@[simp] theorem exec_sra (d : BitVec 5) (a : BitVec 5) (b : BitVec 5) : exec (.sra d a b) s = execSra d a b s := rfl
@[simp] theorem exec_slt (d : BitVec 5) (a : BitVec 5) (b : BitVec 5) : exec (.slt d a b) s = execSlt d a b s := rfl
@[simp] theorem exec_sltu (d : BitVec 5) (a : BitVec 5) (b : BitVec 5) : exec (.sltu d a b) s = execSltu d a b s := rfl
@[simp] theorem exec_min (d : BitVec 5) (a : BitVec 5) (b : BitVec 5) : exec (.min d a b) s = execMin d a b s := rfl
@[simp] theorem exec_max (d : BitVec 5) (a : BitVec 5) (b : BitVec 5) : exec (.max d a b) s = execMax d a b s := rfl
@[simp] theorem exec_minu (d : BitVec 5) (a : BitVec 5) (b : BitVec 5) : exec (.minu d a b) s = execMinu d a b s := rfl
@[simp] theorem exec_maxu (d : BitVec 5) (a : BitVec 5) (b : BitVec 5) : exec (.maxu d a b) s = execMaxu d a b s := rfl
@[simp] theorem exec_xadd2 (d : BitVec 5) (a : BitVec 5) (b : BitVec 5) : exec (.xadd2 d a b) s = execXadd2 d a b s := rfl
@[simp] theorem exec_xadd4 (d : BitVec 5) (a : BitVec 5) (b : BitVec 5) : exec (.xadd4 d a b) s = execXadd4 d a b s := rfl
@[simp] theorem exec_xadd8 (d : BitVec 5) (a : BitVec 5) (b : BitVec 5) : exec (.xadd8 d a b) s = execXadd8 d a b s := rfl
@[simp] theorem exec_sadd (d : BitVec 5) (a : BitVec 5) (b : BitVec 5) : exec (.sadd d a b) s = execSadd d a b s := rfl
@[simp] theorem exec_mul (d : BitVec 5) (a : BitVec 5) (b : BitVec 5) : exec (.mul d a b) s = execMul d a b s := rfl
@[simp] theorem exec_mulh (d : BitVec 5) (a : BitVec 5) (b : BitVec 5) : exec (.mulh d a b) s = execMulh d a b s := rfl
@[simp] theorem exec_mulhu (d : BitVec 5) (a : BitVec 5) (b : BitVec 5) : exec (.mulhu d a b) s = execMulhu d a b s := rfl
@[simp] theorem exec_div (d : BitVec 5) (a : BitVec 5) (b : BitVec 5) : exec (.div d a b) s = execDiv d a b s := rfl
@[simp] theorem exec_divu (d : BitVec 5) (a : BitVec 5) (b : BitVec 5) : exec (.divu d a b) s = execDivu d a b s := rfl
@[simp] theorem exec_rem (d : BitVec 5) (a : BitVec 5) (b : BitVec 5) : exec (.rem d a b) s = execRem d a b s := rfl
@[simp] theorem exec_remu (d : BitVec 5) (a : BitVec 5) (b : BitVec 5) : exec (.remu d a b) s = execRemu d a b s := rfl
@[simp] theorem exec_clz (d : BitVec 5) (a : BitVec 5) : exec (.clz d a) s = execClz d a s := rfl
@[simp] theorem exec_ctz (d : BitVec 5) (a : BitVec 5) : exec (.ctz d a) s = execCtz d a s := rfl
@[simp] theorem exec_popc (d : BitVec 5) (a : BitVec 5) : exec (.popc d a) s = execPopc d a s := rfl
@[simp] theorem exec_nop : exec (.nop) s = execNop s := rfl
@[simp] theorem exec_ret : exec (.ret) s = execRet s := rfl
@[simp] theorem exec_mflk (d : BitVec 5) : exec (.mflk d) s = execMflk d s := rfl
@[simp] theorem exec_mtlk (a : BitVec 5) : exec (.mtlk a) s = execMtlk a s := rfl
@[simp] theorem exec_addi (d : BitVec 5) (a : BitVec 5) (imm : BitVec 16) : exec (.addi d a imm) s = execAddi d a imm s := rfl
@[simp] theorem exec_addi16 (d : BitVec 5) (a : BitVec 5) (imm : BitVec 16) : exec (.addi16 d a imm) s = execAddi16 d a imm s := rfl
@[simp] theorem exec_addi32 (d : BitVec 5) (a : BitVec 5) (imm : BitVec 16) : exec (.addi32 d a imm) s = execAddi32 d a imm s := rfl
@[simp] theorem exec_addi48 (d : BitVec 5) (a : BitVec 5) (imm : BitVec 16) : exec (.addi48 d a imm) s = execAddi48 d a imm s := rfl
@[simp] theorem exec_andi (d : BitVec 5) (a : BitVec 5) (imm : BitVec 16) : exec (.andi d a imm) s = execAndi d a imm s := rfl
@[simp] theorem exec_ori (d : BitVec 5) (a : BitVec 5) (imm : BitVec 16) : exec (.ori d a imm) s = execOri d a imm s := rfl
@[simp] theorem exec_xori (d : BitVec 5) (a : BitVec 5) (imm : BitVec 16) : exec (.xori d a imm) s = execXori d a imm s := rfl
@[simp] theorem exec_slti (d : BitVec 5) (a : BitVec 5) (imm : BitVec 16) : exec (.slti d a imm) s = execSlti d a imm s := rfl
@[simp] theorem exec_sltiu (d : BitVec 5) (a : BitVec 5) (imm : BitVec 16) : exec (.sltiu d a imm) s = execSltiu d a imm s := rfl
@[simp] theorem exec_slli (d : BitVec 5) (a : BitVec 5) (imm : BitVec 6) : exec (.slli d a imm) s = execSlli d a imm s := rfl
@[simp] theorem exec_srli (d : BitVec 5) (a : BitVec 5) (imm : BitVec 6) : exec (.srli d a imm) s = execSrli d a imm s := rfl
@[simp] theorem exec_srai (d : BitVec 5) (a : BitVec 5) (imm : BitVec 6) : exec (.srai d a imm) s = execSrai d a imm s := rfl
@[simp] theorem exec_saddi (d : BitVec 5) (a : BitVec 5) (imm : BitVec 16) : exec (.saddi d a imm) s = execSaddi d a imm s := rfl
@[simp] theorem exec_beq (a : BitVec 5) (b : BitVec 5) (imm : BitVec 16) : exec (.beq a b imm) s = execBeq a b imm s := rfl
@[simp] theorem exec_bne (a : BitVec 5) (b : BitVec 5) (imm : BitVec 16) : exec (.bne a b imm) s = execBne a b imm s := rfl
@[simp] theorem exec_blt (a : BitVec 5) (b : BitVec 5) (imm : BitVec 16) : exec (.blt a b imm) s = execBlt a b imm s := rfl
@[simp] theorem exec_bge (a : BitVec 5) (b : BitVec 5) (imm : BitVec 16) : exec (.bge a b imm) s = execBge a b imm s := rfl
@[simp] theorem exec_bltu (a : BitVec 5) (b : BitVec 5) (imm : BitVec 16) : exec (.bltu a b imm) s = execBltu a b imm s := rfl
@[simp] theorem exec_bgeu (a : BitVec 5) (b : BitVec 5) (imm : BitVec 16) : exec (.bgeu a b imm) s = execBgeu a b imm s := rfl
@[simp] theorem exec_j (imm : BitVec 26) : exec (.j imm) s = execJ imm s := rfl
@[simp] theorem exec_jal (imm : BitVec 26) : exec (.jal imm) s = execJal imm s := rfl
@[simp] theorem exec_jr (a : BitVec 5) (imm : BitVec 16) : exec (.jr a imm) s = execJr a imm s := rfl
@[simp] theorem exec_jalr (a : BitVec 5) (imm : BitVec 16) : exec (.jalr a imm) s = execJalr a imm s := rfl
@[simp] theorem exec_mfs (d : BitVec 5) (sys : BitVec 12) : exec (.mfs d sys) s = execMfs d sys s := rfl
@[simp] theorem exec_mts (a : BitVec 5) (sys : BitVec 12) : exec (.mts a sys) s = execMts a sys s := rfl
@[simp] theorem exec_ldI8 (d : BitVec 5) (base : BitVec 5) (imm : BitVec 16) : exec (.ldI8 d base imm) s = execLdI8 d base imm s := rfl
@[simp] theorem exec_ldI16 (d : BitVec 5) (base : BitVec 5) (imm : BitVec 16) : exec (.ldI16 d base imm) s = execLdI16 d base imm s := rfl
@[simp] theorem exec_ldI32 (d : BitVec 5) (base : BitVec 5) (imm : BitVec 16) : exec (.ldI32 d base imm) s = execLdI32 d base imm s := rfl
@[simp] theorem exec_ld64 (d : BitVec 5) (base : BitVec 5) (imm : BitVec 16) : exec (.ld64 d base imm) s = execLd64 d base imm s := rfl
@[simp] theorem exec_ldN8 (d : BitVec 5) (base : BitVec 5) (imm : BitVec 16) : exec (.ldN8 d base imm) s = execLdN8 d base imm s := rfl
@[simp] theorem exec_ldN16 (d : BitVec 5) (base : BitVec 5) (imm : BitVec 16) : exec (.ldN16 d base imm) s = execLdN16 d base imm s := rfl
@[simp] theorem exec_ldN32 (d : BitVec 5) (base : BitVec 5) (imm : BitVec 16) : exec (.ldN32 d base imm) s = execLdN32 d base imm s := rfl
@[simp] theorem exec_st8 (d : BitVec 5) (base : BitVec 5) (imm : BitVec 16) : exec (.st8 d base imm) s = execSt8 d base imm s := rfl
@[simp] theorem exec_st16 (d : BitVec 5) (base : BitVec 5) (imm : BitVec 16) : exec (.st16 d base imm) s = execSt16 d base imm s := rfl
@[simp] theorem exec_st32 (d : BitVec 5) (base : BitVec 5) (imm : BitVec 16) : exec (.st32 d base imm) s = execSt32 d base imm s := rfl
@[simp] theorem exec_st64 (d : BitVec 5) (base : BitVec 5) (imm : BitVec 16) : exec (.st64 d base imm) s = execSt64 d base imm s := rfl
@[simp] theorem exec_lds (d : BitVec 5) (a : BitVec 5) (off : BitVec 6) (kind : BitVec 3) : exec (.lds d a off kind) s = execLds d a off kind s := rfl
@[simp] theorem exec_sts (a : BitVec 5) (b : BitVec 5) (off : BitVec 6) (kind : BitVec 3) : exec (.sts a b off kind) s = execSts a b off kind s := rfl
@[simp] theorem exec_ldp (d : BitVec 5) (a : BitVec 5) (off : BitVec 6) (kind : BitVec 3) : exec (.ldp d a off kind) s = execLdp d a off kind s := rfl
@[simp] theorem exec_stp (a : BitVec 5) (b : BitVec 5) (off : BitVec 6) (kind : BitVec 3) : exec (.stp a b off kind) s = execStp a b off kind s := rfl
@[simp] theorem exec_amo (d : BitVec 5) (a : BitVec 5) (b : BitVec 5) (scope : BitVec 3) (ord : BitVec 2) (wide : BitVec 1) (op : BitVec 4) : exec (.amo d a b scope ord wide op) s = execAmo d a b scope ord wide op s := rfl
@[simp] theorem exec_amos (d : BitVec 5) (a : BitVec 5) (b : BitVec 5) (scope : BitVec 3) (ord : BitVec 2) (wide : BitVec 1) (op : BitVec 4) : exec (.amos d a b scope ord wide op) s = execAmos d a b scope ord wide op s := rfl
@[simp] theorem exec_amoLd (d : BitVec 5) (a : BitVec 5) (scope : BitVec 3) (wide : BitVec 1) (space : BitVec 1) : exec (.amoLd d a scope wide space) s = execAmoLd d a scope wide space s := rfl
@[simp] theorem exec_amoSt (a : BitVec 5) (b : BitVec 5) (scope : BitVec 3) (wide : BitVec 1) (space : BitVec 1) : exec (.amoSt a b scope wide space) s = execAmoSt a b scope wide space s := rfl
@[simp] theorem exec_fence (scope : BitVec 3) (ord : BitVec 2) : exec (.fence scope ord) s = execFence scope ord s := rfl
@[simp] theorem exec_ctxSel (a : BitVec 5) : exec (.ctxSel a) s = execCtxSel a s := rfl
@[simp] theorem exec_run (a : BitVec 5) : exec (.run a) s = execRun a s := rfl
@[simp] theorem exec_drain : exec (.drain) s = execDrain s := rfl
@[simp] theorem exec_cfgs (a : BitVec 5) (b : BitVec 5) : exec (.cfgs a b) s = execCfgs a b s := rfl
@[simp] theorem exec_barInit (a : BitVec 5) (b : BitVec 5) : exec (.barInit a b) s = execBarInit a b s := rfl
@[simp] theorem exec_barInitb (a : BitVec 5) (b : BitVec 5) : exec (.barInitb a b) s = execBarInitb a b s := rfl
@[simp] theorem exec_barArr (d : BitVec 5) (a : BitVec 5) : exec (.barArr d a) s = execBarArr d a s := rfl
@[simp] theorem exec_barWait (a : BitVec 5) (b : BitVec 5) : exec (.barWait a b) s = execBarWait a b s := rfl
@[simp] theorem exec_barRd (d : BitVec 5) (a : BitVec 5) : exec (.barRd d a) s = execBarRd d a s := rfl
@[simp] theorem exec_evSet (a : BitVec 5) : exec (.evSet a) s = execEvSet a s := rfl
@[simp] theorem exec_evClr (a : BitVec 5) : exec (.evClr a) s = execEvClr a s := rfl
@[simp] theorem exec_evWait (a : BitVec 5) : exec (.evWait a) s = execEvWait a s := rfl
@[simp] theorem exec_evTake (a : BitVec 5) : exec (.evTake a) s = execEvTake a s := rfl
@[simp] theorem exec_tlRd (d : BitVec 5) (a : BitVec 5) : exec (.tlRd d a) s = execTlRd d a s := rfl
@[simp] theorem exec_tlAdv (a : BitVec 5) (b : BitVec 5) : exec (.tlAdv a b) s = execTlAdv a b s := rfl
@[simp] theorem exec_tlWait (a : BitVec 5) (b : BitVec 5) : exec (.tlWait a b) s = execTlWait a b s := rfl
@[simp] theorem exec_evq (d : BitVec 5) (a : BitVec 5) : exec (.evq d a) s = execEvq d a s := rfl
@[simp] theorem exec_evqW (d : BitVec 5) (a : BitVec 5) : exec (.evqW d a) s = execEvqW d a s := rfl
@[simp] theorem exec_tlook (d : BitVec 5) (a : BitVec 5) : exec (.tlook d a) s = execTlook d a s := rfl
@[simp] theorem exec_tset (a : BitVec 5) (b : BitVec 5) : exec (.tset a b) s = execTset a b s := rfl
@[simp] theorem exec_tclr (a : BitVec 5) : exec (.tclr a) s = execTclr a s := rfl
@[simp] theorem exec_issue (eng : BitVec 3) (cmd : BitVec 8) (a : BitVec 5) (b : BitVec 5) (flags : BitVec 5) : exec (.issue eng cmd a b flags) s = execIssue eng cmd a b flags s := rfl
@[simp] theorem exec_spCfg (a : BitVec 5) (b : BitVec 5) : exec (.spCfg a b) s = execSpCfg a b s := rfl
@[simp] theorem exec_spHwm (a : BitVec 5) (b : BitVec 5) : exec (.spHwm a b) s = execSpHwm a b s := rfl
@[simp] theorem exec_spResv (a : BitVec 5) (b : BitVec 5) : exec (.spResv a b) s = execSpResv a b s := rfl
@[simp] theorem exec_spPub (a : BitVec 5) (b : BitVec 5) : exec (.spPub a b) s = execSpPub a b s := rfl
@[simp] theorem exec_spRel (a : BitVec 5) (b : BitVec 5) : exec (.spRel a b) s = execSpRel a b s := rfl
@[simp] theorem exec_spRew (a : BitVec 5) (b : BitVec 5) : exec (.spRew a b) s = execSpRew a b s := rfl
@[simp] theorem exec_spRdm (a : BitVec 5) (b : BitVec 5) : exec (.spRdm a b) s = execSpRdm a b s := rfl
@[simp] theorem exec_spQbind (a : BitVec 5) (b : BitVec 5) : exec (.spQbind a b) s = execSpQbind a b s := rfl
@[simp] theorem exec_trap (a : BitVec 5) : exec (.trap a) s = execTrap a s := rfl
@[simp] theorem exec_eret : exec (.eret) s = execEret s := rfl
@[simp] theorem exec_seqEnd : exec (.seqEnd) s = execSeqEnd s := rfl
@[simp] theorem exec_fabMov (f : FabWord) : exec (.fabMov f) s = execFabMov f s := rfl
@[simp] theorem exec_fabVmov (f : FabWord) : exec (.fabVmov f) s = execFabVmov f s := rfl
@[simp] theorem exec_fabConst (f : FabWord) : exec (.fabConst f) s = execFabConst f s := rfl
@[simp] theorem exec_fabGrd (f : FabWord) : exec (.fabGrd f) s = execFabGrd f s := rfl
@[simp] theorem exec_fabVrd (f : FabWord) : exec (.fabVrd f) s = execFabVrd f s := rfl
@[simp] theorem exec_fabSel (f : FabWord) : exec (.fabSel f) s = execFabSel f s := rfl
@[simp] theorem exec_fabVsel (f : FabWord) : exec (.fabVsel f) s = execFabVsel f s := rfl
@[simp] theorem exec_fabAdd (f : FabWord) : exec (.fabAdd f) s = execFabAdd f s := rfl
@[simp] theorem exec_fabSub (f : FabWord) : exec (.fabSub f) s = execFabSub f s := rfl
@[simp] theorem exec_fabAddi (f : FabWord) : exec (.fabAddi f) s = execFabAddi f s := rfl
@[simp] theorem exec_fabMul (f : FabWord) : exec (.fabMul f) s = execFabMul f s := rfl
@[simp] theorem exec_fabMulh (f : FabWord) : exec (.fabMulh f) s = execFabMulh f s := rfl
@[simp] theorem exec_fabDiv (f : FabWord) : exec (.fabDiv f) s = execFabDiv f s := rfl
@[simp] theorem exec_fabRem (f : FabWord) : exec (.fabRem f) s = execFabRem f s := rfl
@[simp] theorem exec_fabAnd (f : FabWord) : exec (.fabAnd f) s = execFabAnd f s := rfl
@[simp] theorem exec_fabOr (f : FabWord) : exec (.fabOr f) s = execFabOr f s := rfl
@[simp] theorem exec_fabXor (f : FabWord) : exec (.fabXor f) s = execFabXor f s := rfl
@[simp] theorem exec_fabShl (f : FabWord) : exec (.fabShl f) s = execFabShl f s := rfl
@[simp] theorem exec_fabShr (f : FabWord) : exec (.fabShr f) s = execFabShr f s := rfl
@[simp] theorem exec_fabMin (f : FabWord) : exec (.fabMin f) s = execFabMin f s := rfl
@[simp] theorem exec_fabMax (f : FabWord) : exec (.fabMax f) s = execFabMax f s := rfl
@[simp] theorem exec_fabAbs (f : FabWord) : exec (.fabAbs f) s = execFabAbs f s := rfl
@[simp] theorem exec_fabNeg (f : FabWord) : exec (.fabNeg f) s = execFabNeg f s := rfl
@[simp] theorem exec_fabClz (f : FabWord) : exec (.fabClz f) s = execFabClz f s := rfl
@[simp] theorem exec_fabCtz (f : FabWord) : exec (.fabCtz f) s = execFabCtz f s := rfl
@[simp] theorem exec_fabPopc (f : FabWord) : exec (.fabPopc f) s = execFabPopc f s := rfl
@[simp] theorem exec_fabAdds (f : FabWord) : exec (.fabAdds f) s = execFabAdds f s := rfl
@[simp] theorem exec_fabSubs (f : FabWord) : exec (.fabSubs f) s = execFabSubs f s := rfl
@[simp] theorem exec_fabSadd (f : FabWord) : exec (.fabSadd f) s = execFabSadd f s := rfl
@[simp] theorem exec_fabCeq (f : FabWord) : exec (.fabCeq f) s = execFabCeq f s := rfl
@[simp] theorem exec_fabCne (f : FabWord) : exec (.fabCne f) s = execFabCne f s := rfl
@[simp] theorem exec_fabClt (f : FabWord) : exec (.fabClt f) s = execFabClt f s := rfl
@[simp] theorem exec_fabCle (f : FabWord) : exec (.fabCle f) s = execFabCle f s := rfl
@[simp] theorem exec_fabPand (f : FabWord) : exec (.fabPand f) s = execFabPand f s := rfl
@[simp] theorem exec_fabPor (f : FabWord) : exec (.fabPor f) s = execFabPor f s := rfl
@[simp] theorem exec_fabPnot (f : FabWord) : exec (.fabPnot f) s = execFabPnot f s := rfl
@[simp] theorem exec_fabPxor (f : FabWord) : exec (.fabPxor f) s = execFabPxor f s := rfl
@[simp] theorem exec_fabFadd (f : FabWord) : exec (.fabFadd f) s = execFabFadd f s := rfl
@[simp] theorem exec_fabFsub (f : FabWord) : exec (.fabFsub f) s = execFabFsub f s := rfl
@[simp] theorem exec_fabFmul (f : FabWord) : exec (.fabFmul f) s = execFabFmul f s := rfl
@[simp] theorem exec_fabFma (f : FabWord) : exec (.fabFma f) s = execFabFma f s := rfl
@[simp] theorem exec_fabFnma (f : FabWord) : exec (.fabFnma f) s = execFabFnma f s := rfl
@[simp] theorem exec_fabFdiv (f : FabWord) : exec (.fabFdiv f) s = execFabFdiv f s := rfl
@[simp] theorem exec_fabFsqrt (f : FabWord) : exec (.fabFsqrt f) s = execFabFsqrt f s := rfl
@[simp] theorem exec_fabFrcp (f : FabWord) : exec (.fabFrcp f) s = execFabFrcp f s := rfl
@[simp] theorem exec_fabFmin (f : FabWord) : exec (.fabFmin f) s = execFabFmin f s := rfl
@[simp] theorem exec_fabFmax (f : FabWord) : exec (.fabFmax f) s = execFabFmax f s := rfl
@[simp] theorem exec_fabFabs (f : FabWord) : exec (.fabFabs f) s = execFabFabs f s := rfl
@[simp] theorem exec_fabFneg (f : FabWord) : exec (.fabFneg f) s = execFabFneg f s := rfl
@[simp] theorem exec_fabFexp2 (f : FabWord) : exec (.fabFexp2 f) s = execFabFexp2 f s := rfl
@[simp] theorem exec_fabFlog2 (f : FabWord) : exec (.fabFlog2 f) s = execFabFlog2 f s := rfl
@[simp] theorem exec_fabVadd (f : FabWord) : exec (.fabVadd f) s = execFabVadd f s := rfl
@[simp] theorem exec_fabVsub (f : FabWord) : exec (.fabVsub f) s = execFabVsub f s := rfl
@[simp] theorem exec_fabVmul (f : FabWord) : exec (.fabVmul f) s = execFabVmul f s := rfl
@[simp] theorem exec_fabVfma (f : FabWord) : exec (.fabVfma f) s = execFabVfma f s := rfl
@[simp] theorem exec_fabVmin (f : FabWord) : exec (.fabVmin f) s = execFabVmin f s := rfl
@[simp] theorem exec_fabVmax (f : FabWord) : exec (.fabVmax f) s = execFabVmax f s := rfl
@[simp] theorem exec_fabVabs (f : FabWord) : exec (.fabVabs f) s = execFabVabs f s := rfl
@[simp] theorem exec_fabVneg (f : FabWord) : exec (.fabVneg f) s = execFabVneg f s := rfl
@[simp] theorem exec_fabVhsum (f : FabWord) : exec (.fabVhsum f) s = execFabVhsum f s := rfl
@[simp] theorem exec_fabVhmax (f : FabWord) : exec (.fabVhmax f) s = execFabVhmax f s := rfl
@[simp] theorem exec_fabVbcast (f : FabWord) : exec (.fabVbcast f) s = execFabVbcast f s := rfl
@[simp] theorem exec_fabVext (f : FabWord) : exec (.fabVext f) s = execFabVext f s := rfl
@[simp] theorem exec_fabVins (f : FabWord) : exec (.fabVins f) s = execFabVins f s := rfl
@[simp] theorem exec_fabVceq (f : FabWord) : exec (.fabVceq f) s = execFabVceq f s := rfl
@[simp] theorem exec_fabVclt (f : FabWord) : exec (.fabVclt f) s = execFabVclt f s := rfl
@[simp] theorem exec_fabVand (f : FabWord) : exec (.fabVand f) s = execFabVand f s := rfl
@[simp] theorem exec_fabVor (f : FabWord) : exec (.fabVor f) s = execFabVor f s := rfl
@[simp] theorem exec_fabVxor (f : FabWord) : exec (.fabVxor f) s = execFabVxor f s := rfl
@[simp] theorem exec_fabVshl (f : FabWord) : exec (.fabVshl f) s = execFabVshl f s := rfl
@[simp] theorem exec_fabVshr (f : FabWord) : exec (.fabVshr f) s = execFabVshr f s := rfl
@[simp] theorem exec_fabVexp2 (f : FabWord) : exec (.fabVexp2 f) s = execFabVexp2 f s := rfl
@[simp] theorem exec_fabVrcp (f : FabWord) : exec (.fabVrcp f) s = execFabVrcp f s := rfl
@[simp] theorem exec_fabCvt (f : FabWord) : exec (.fabCvt f) s = execFabCvt f s := rfl
@[simp] theorem exec_fabVcvt (f : FabWord) : exec (.fabVcvt f) s = execFabVcvt f s := rfl
@[simp] theorem exec_fabScacc (f : FabWord) : exec (.fabScacc f) s = execFabScacc f s := rfl
@[simp] theorem exec_fabVscacc (f : FabWord) : exec (.fabVscacc f) s = execFabVscacc f s := rfl
@[simp] theorem exec_fabStop (f : FabWord) : exec (.fabStop f) s = execFabStop f s := rfl
@[simp] theorem exec_fabSlvl (f : FabWord) : exec (.fabSlvl f) s = execFabSlvl f s := rfl
@[simp] theorem exec_fabSgate (f : FabWord) : exec (.fabSgate f) s = execFabSgate f s := rfl
@[simp] theorem exec_fabScount (f : FabWord) : exec (.fabScount f) s = execFabScount f s := rfl
@[simp] theorem exec_fabOrdt (f : FabWord) : exec (.fabOrdt f) s = execFabOrdt f s := rfl
@[simp] theorem exec_fabLd (f : FabWord) : exec (.fabLd f) s = execFabLd f s := rfl
@[simp] theorem exec_fabSt (f : FabWord) : exec (.fabSt f) s = execFabSt f s := rfl
@[simp] theorem exec_fabVld (f : FabWord) : exec (.fabVld f) s = execFabVld f s := rfl
@[simp] theorem exec_fabVst (f : FabWord) : exec (.fabVst f) s = execFabVst f s := rfl
@[simp] theorem exec_fabLdx (f : FabWord) : exec (.fabLdx f) s = execFabLdx f s := rfl
@[simp] theorem exec_fabStx (f : FabWord) : exec (.fabStx f) s = execFabStx f s := rfl
@[simp] theorem exec_fabVldx (f : FabWord) : exec (.fabVldx f) s = execFabVldx f s := rfl
@[simp] theorem exec_fabVstx (f : FabWord) : exec (.fabVstx f) s = execFabVstx f s := rfl
@[simp] theorem exec_fabLds (f : FabWord) : exec (.fabLds f) s = execFabLds f s := rfl
@[simp] theorem exec_fabSts (f : FabWord) : exec (.fabSts f) s = execFabSts f s := rfl
@[simp] theorem exec_fabVlds (f : FabWord) : exec (.fabVlds f) s = execFabVlds f s := rfl
@[simp] theorem exec_fabVsts (f : FabWord) : exec (.fabVsts f) s = execFabVsts f s := rfl
@[simp] theorem exec_fabWsplit (f : FabWord) : exec (.fabWsplit f) s = execFabWsplit f s := rfl
@[simp] theorem exec_fabWjoin (f : FabWord) : exec (.fabWjoin f) s = execFabWjoin f s := rfl
@[simp] theorem exec_fabAmo (f : FabWord) : exec (.fabAmo f) s = execFabAmo f s := rfl
@[simp] theorem exec_fabAmos (f : FabWord) : exec (.fabAmos f) s = execFabAmos f s := rfl
@[simp] theorem exec_fabRpt (f : FabWord) : exec (.fabRpt f) s = execFabRpt f s := rfl
@[simp] theorem exec_fabMma (f : FabWord) : exec (.fabMma f) s = execFabMma f s := rfl
@[simp] theorem exec_fabAccrd (f : FabWord) : exec (.fabAccrd f) s = execFabAccrd f s := rfl
@[simp] theorem exec_fabBld (f : FabWord) : exec (.fabBld f) s = execFabBld f s := rfl
@[simp] theorem exec_fabBst (f : FabWord) : exec (.fabBst f) s = execFabBst f s := rfl
@[simp] theorem exec_fabExit (f : FabWord) : exec (.fabExit f) s = execFabExit f s := rfl
@[simp] theorem exec_fabNull (f : FabWord) : exec (.fabNull f) s = execFabNull f s := rfl
@[simp] theorem exec_fabBar (f : FabWord) : exec (.fabBar f) s = execFabBar f s := rfl
@[simp] theorem exec_memoryNodeResponse (tile : Nat) (load : Nat) (seen : List Bool) : exec (.memoryNodeResponse tile load seen) s = execMemoryNodeResponse tile load seen s := rfl
@[simp] theorem exec_roundStart (tile : Nat) (ctx : Nat) : exec (.roundStart tile ctx) s = execRoundStart tile ctx s := rfl
@[simp] theorem exec_roundCommit (tile : Nat) : exec (.roundCommit tile) s = execRoundCommit tile s := rfl
@[simp] theorem exec_storeBufferDrain (tile : Nat) : exec (.storeBufferDrain tile) s = execStoreBufferDrain tile s := rfl
@[simp] theorem exec_portReadResponse (tile : Nat) (port : Nat) (fetch : Bool) : exec (.portReadResponse tile port fetch) s = execPortReadResponse tile port fetch s := rfl
@[simp] theorem exec_portWritePerform (tile : Nat) (port : Nat) : exec (.portWritePerform tile port) s = execPortWritePerform tile port s := rfl
@[simp] theorem exec_hotnessFlush (tile : Nat) (port : Nat) : exec (.hotnessFlush tile port) s = execHotnessFlush tile port s := rfl
@[simp] theorem exec_streamReadUnblock (tile : Nat) (who : Party) : exec (.streamReadUnblock tile who) s = execStreamReadUnblock tile who s := rfl
@[simp] theorem exec_streamWriteUnblock (tile : Nat) (who : Party) : exec (.streamWriteUnblock tile who) s = execStreamWriteUnblock tile who s := rfl
@[simp] theorem exec_spill (launch : Nat) (handle : Nat) : exec (.spill launch handle) s = execSpill launch handle s := rfl
@[simp] theorem exec_streamDeadlock (launch : Nat) : exec (.streamDeadlock launch) s = execStreamDeadlock launch s := rfl
@[simp] theorem exec_apertureBind (j : Nat) (value : Word) : exec (.apertureBind j value) s = execApertureBind j value s := rfl
@[simp] theorem exec_apertureHwm (j : Nat) (value : Word) : exec (.apertureHwm j value) s = execApertureHwm j value s := rfl
@[simp] theorem exec_apertureRel (j : Nat) (value : Word) : exec (.apertureRel j value) s = execApertureRel j value s := rfl
@[simp] theorem exec_apertureErr (j : Nat) : exec (.apertureErr j) s = execApertureErr j s := rfl
@[simp] theorem exec_apertureDataRead (j : Nat) (offset : Nat) (size : Nat) : exec (.apertureDataRead j offset size) s = execApertureDataRead j offset size s := rfl
@[simp] theorem exec_apertureDataWrite (j : Nat) (offset : Nat) (data : List Byte) : exec (.apertureDataWrite j offset data) s = execApertureDataWrite j offset data s := rfl
@[simp] theorem exec_cfgWrite (page : BitVec 4) (element : BitVec 6) (field : BitVec 5) (value : BitVec 16) : exec (.cfgWrite page element field value) s = execCfgWrite page element field value s := rfl
@[simp] theorem exec_cfgSelectContext (rsv : BitVec 25) (ctx : BitVec 3) : exec (.cfgSelectContext rsv ctx) s = execCfgSelectContext rsv ctx s := rfl
@[simp] theorem exec_cfgPageHeader (page : BitVec 4) (rsv : BitVec 8) (count : BitVec 16) : exec (.cfgPageHeader page rsv count) s = execCfgPageHeader page rsv count s := rfl
@[simp] theorem exec_cfgBlockHeader (part : BitVec 4) (rsv : BitVec 8) (value : BitVec 16) : exec (.cfgBlockHeader part rsv value) s = execCfgBlockHeader part rsv value s := rfl
@[simp] theorem exec_cfgChecksum (sum : BitVec 28) : exec (.cfgChecksum sum) s = execCfgChecksum sum s := rfl
@[simp] theorem exec_configurationComplete (rsv : BitVec 28) : exec (.configurationComplete rsv) s = execConfigurationComplete rsv s := rfl
@[simp] theorem exec_seedInject (launch : Nat) : exec (.seedInject launch) s = execSeedInject launch s := rfl
@[simp] theorem exec_launchPacket (die : Nat) (packet : List Byte) (source : PacketSource) : exec (.launchPacket die packet source) s = execLaunchPacket die packet source s := rfl
@[simp] theorem exec_launchQueue : exec (.launchQueue) s = execLaunchQueue s := rfl
@[simp] theorem exec_place (die : Nat) : exec (.place die) s = execPlace die s := rfl
@[simp] theorem exec_retire (launch : Nat) : exec (.retire launch) s = execRetire launch s := rfl
@[simp] theorem exec_quiescent (launch : Nat) : exec (.quiescent launch) s = execQuiescent launch s := rfl
@[simp] theorem exec_moveCluster (launch : Nat) (position : Nat) (target : Nat) : exec (.moveCluster launch position target) s = execMoveCluster launch position target s := rfl
@[simp] theorem exec_taskDispatch (cluster : Nat) (index : Nat) : exec (.taskDispatch cluster index) s = execTaskDispatch cluster index s := rfl
@[simp] theorem exec_taskCompletion (cluster : Nat) (index : Nat) : exec (.taskCompletion cluster index) s = execTaskCompletion cluster index s := rfl
@[simp] theorem exec_graphCond (cluster : Nat) (index : Nat) : exec (.graphCond cluster index) s = execGraphCond cluster index s := rfl
@[simp] theorem exec_graphWhile (cluster : Nat) (index : Nat) : exec (.graphWhile cluster index) s = execGraphWhile cluster index s := rfl
@[simp] theorem exec_graphJoin (cluster : Nat) (index : Nat) : exec (.graphJoin cluster index) s = execGraphJoin cluster index s := rfl
@[simp] theorem exec_taskDef (cluster : Nat) (tile : Nat) : exec (.taskDef cluster tile) s = execTaskDef cluster tile s := rfl
@[simp] theorem exec_taskDis (cluster : Nat) (tile : Nat) : exec (.taskDis cluster tile) s = execTaskDis cluster tile s := rfl
@[simp] theorem exec_taskEvset (cluster : Nat) (tile : Nat) : exec (.taskEvset cluster tile) s = execTaskEvset cluster tile s := rfl
@[simp] theorem exec_taskTlset (cluster : Nat) (tile : Nat) : exec (.taskTlset cluster tile) s = execTaskTlset cluster tile s := rfl
@[simp] theorem exec_taskLaunch (cluster : Nat) (tile : Nat) : exec (.taskLaunch cluster tile) s = execTaskLaunch cluster tile s := rfl
@[simp] theorem exec_cpBulk (cluster : Nat) (turn : CopyTurn CopyPart) : exec (.cpBulk cluster turn) s = execCpBulk cluster turn s := rfl
@[simp] theorem exec_cpMcast (cluster : Nat) (turn : CopyTurn CopyPart) : exec (.cpMcast cluster turn) s = execCpMcast cluster turn s := rfl
@[simp] theorem exec_cpGrp (cluster : Nat) (turn : CopyTurn Nat) : exec (.cpGrp cluster turn) s = execCpGrp cluster turn s := rfl
@[simp] theorem exec_cpAmo (cluster : Nat) (turn : CopyTurn Unit) : exec (.cpAmo cluster turn) s = execCpAmo cluster turn s := rfl
@[simp] theorem exec_cpEnq (cluster : Nat) (turn : CopyTurn Nat) : exec (.cpEnq cluster turn) s = execCpEnq cluster turn s := rfl
@[simp] theorem exec_grpMessage (message : GrpSource) : exec (.grpMessage message) s = execGrpMessage message s := rfl
@[simp] theorem exec_grpAck (cluster : Nat) (tile : Nat) (endpoint : Nat) (reason : Nat) : exec (.grpAck cluster tile endpoint reason) s = execGrpAck cluster tile endpoint reason s := rfl
@[simp] theorem exec_grpNoResponse (cluster : Nat) (tile : Nat) (endpoint : Nat) : exec (.grpNoResponse cluster tile endpoint) s = execGrpNoResponse cluster tile endpoint s := rfl
@[simp] theorem exec_amoRequest (request : AmoSource) : exec (.amoRequest request) s = execAmoRequest request s := rfl
@[simp] theorem exec_amoReply (cluster : Nat) (tile : Nat) (reply : Reply) : exec (.amoReply cluster tile reply) s = execAmoReply cluster tile reply s := rfl
@[simp] theorem exec_retransmission (cluster : Nat) (tile : Nat) : exec (.retransmission cluster tile) s = execRetransmission cluster tile s := rfl
@[simp] theorem exec_retryInterval (cluster : Nat) (tile : Nat) : exec (.retryInterval cluster tile) s = execRetryInterval cluster tile s := rfl
@[simp] theorem exec_enqRequest (request : EnqSource) : exec (.enqRequest request) s = execEnqRequest request s := rfl
@[simp] theorem exec_redFab (cluster : Nat) (tile : Nat) : exec (.redFab cluster tile) s = execRedFab cluster tile s := rfl
@[simp] theorem exec_reductionStart (launch : Nat) (tag : Nat) : exec (.reductionStart launch tag) s = execReductionStart launch tag s := rfl
@[simp] theorem exec_redEst (cluster : Nat) (tile : Nat) : exec (.redEst cluster tile) s = execRedEst cluster tile s := rfl
@[simp] theorem exec_redRd (cluster : Nat) (tile : Nat) : exec (.redRd cluster tile) s = execRedRd cluster tile s := rfl
@[simp] theorem exec_claim (launch : Nat) (position : Nat) : exec (.claim launch position) s = execClaim launch position s := rfl
@[simp] theorem exec_merge (launch : Nat) (position : Nat) : exec (.merge launch position) s = execMerge launch position s := rfl
@[simp] theorem exec_stopNotice (launch : Nat) (position : Nat) : exec (.stopNotice launch position) s = execStopNotice launch position s := rfl
@[simp] theorem exec_level2Stop (launch : Nat) (position : Nat) : exec (.level2Stop launch position) s = execLevel2Stop launch position s := rfl
@[simp] theorem exec_kstepAccept (cluster : Nat) : exec (.kstepAccept cluster) s = execKstepAccept cluster s := rfl
@[simp] theorem exec_kstep (cluster : Nat) : exec (.kstep cluster) s = execKstep cluster s := rfl
@[simp] theorem exec_mxMode (cluster : Nat) (tile : Nat) : exec (.mxMode cluster tile) s = execMxMode cluster tile s := rfl
@[simp] theorem exec_mxSlot (cluster : Nat) (tile : Nat) : exec (.mxSlot cluster tile) s = execMxSlot cluster tile s := rfl
@[simp] theorem exec_mxFree (cluster : Nat) (tile : Nat) : exec (.mxFree cluster tile) s = execMxFree cluster tile s := rfl
@[simp] theorem exec_mxRd (cluster : Nat) (tile : Nat) : exec (.mxRd cluster tile) s = execMxRd cluster tile s := rfl
@[simp] theorem exec_invalidate (die : Nat) (ctxid : Nat) (lo : Nat) (len : Nat) (everyDie : Bool) : exec (.invalidate die ctxid lo len everyDie) s = execInvalidate die ctxid lo len everyDie s := rfl
@[simp] theorem exec_invalidationComplete (die : Nat) : exec (.invalidationComplete die) s = execInvalidationComplete die s := rfl
@[simp] theorem exec_priAnswer (die : Nat) (ctxid : Nat) (page : Nat) (success : Bool) : exec (.priAnswer die ctxid page success) s = execPriAnswer die ctxid page success s := rfl
@[simp] theorem exec_atsInvalidation (die : Nat) (pasid : Nat) (lo : Nat) (len : Nat) : exec (.atsInvalidation die pasid lo len) s = execAtsInvalidation die pasid lo len s := rfl
@[simp] theorem exec_remoteRequest (request : RemoteSource) : exec (.remoteRequest request) s = execRemoteRequest request s := rfl
@[simp] theorem exec_dupInvalidation (write : Nat) (holder : Nat) : exec (.dupInvalidation write holder) s = execDupInvalidation write holder s := rfl
@[simp] theorem exec_dupAck (write : Nat) (holder : Nat) : exec (.dupAck write holder) s = execDupAck write holder s := rfl
@[simp] theorem exec_preempt (die : Nat) (word : Word) : exec (.preempt die word) s = execPreempt die word s := rfl
@[simp] theorem exec_readoutComplete (launch : Nat) : exec (.readoutComplete launch) s = execReadoutComplete launch s := rfl
@[simp] theorem exec_restore (die : Nat) (word : Word) : exec (.restore die word) s = execRestore die word s := rfl
@[simp] theorem exec_resume (die : Nat) (word : Word) : exec (.resume die word) s = execResume die word s := rfl
@[simp] theorem exec_kill (die : Nat) (word : Word) : exec (.kill die word) s = execKill die word s := rfl
@[simp] theorem exec_recordCopy (die : Nat) : exec (.recordCopy die) s = execRecordCopy die s := rfl
@[simp] theorem exec_flit (die : Nat) (link : Nat) (data : BitVec 256) (crc : BitVec 32) (side : Option (BitVec 16)) : exec (.flit die link data crc side) s = execFlit die link data crc side s := rfl
@[simp] theorem exec_linkDead (die : Nat) (link : Nat) : exec (.linkDead die link) s = execLinkDead die link s := rfl
@[simp] theorem exec_laneLockLoss (die : Nat) (link : Nat) : exec (.laneLockLoss die link) s = execLaneLockLoss die link s := rfl
@[simp] theorem exec_portDown (port : Nat) : exec (.portDown port) s = execPortDown port s := rfl
@[simp] theorem exec_keyExhaustion (port : Nat) (receive : Bool) : exec (.keyExhaustion port receive) s = execKeyExhaustion port receive s := rfl
@[simp] theorem exec_seckey (port : Nat) (receive : Bool) (key : BitVec 256) : exec (.seckey port receive key) s = execSeckey port receive key s := rfl
@[simp] theorem exec_ingressMessage (die : Nat) (port : Nat) (message : List Byte) : exec (.ingressMessage die port message) s = execIngressMessage die port message s := rfl
@[simp] theorem exec_ingressRetry (die : Nat) (port : Nat) : exec (.ingressRetry die port) s = execIngressRetry die port s := rfl
@[simp] theorem exec_requestTimeout (who : Timed) : exec (.requestTimeout who) s = execRequestTimeout who s := rfl
@[simp] theorem exec_routerPowerDown (cluster : Nat) : exec (.routerPowerDown cluster) s = execRouterPowerDown cluster s := rfl
@[simp] theorem exec_routerWake (cluster : Nat) : exec (.routerWake cluster) s = execRouterWake cluster s := rfl
@[simp] theorem exec_bootgo : exec (.bootgo) s = execBootgo s := rfl
@[simp] theorem exec_imageVerified : exec (.imageVerified) s = execImageVerified s := rfl
@[simp] theorem exec_packageReset : exec (.packageReset) s = execPackageReset s := rfl
@[simp] theorem exec_lifeCycleTransition (auth : List Byte) : exec (.lifeCycleTransition auth) s = execLifeCycleTransition auth s := rfl
@[simp] theorem exec_getCertificate : exec (.getCertificate) s = execGetCertificate s := rfl
@[simp] theorem exec_challenge (nonce : List Byte) : exec (.challenge nonce) s = execChallenge nonce s := rfl
@[simp] theorem exec_getMeasurements (nonce : List Byte) : exec (.getMeasurements nonce) s = execGetMeasurements nonce s := rfl
@[simp] theorem exec_scrub (die : Nat) (array : Nat) (word : Nat) (errors : ScrubFind) : exec (.scrub die array word errors) s = execScrub die array word errors s := rfl
@[simp] theorem exec_uncorrectableError (tile : Nat) (array : Nat) (word : Nat) : exec (.uncorrectableError tile array word) s = execUncorrectableError tile array word s := rfl
@[simp] theorem exec_telemetryFlush : exec (.telemetryFlush) s = execTelemetryFlush s := rfl
@[simp] theorem exec_orderlyShutdown : exec (.orderlyShutdown) s = execOrderlyShutdown s := rfl
@[simp] theorem exec_tmsel (value : Word) : exec (.tmsel value) s = execTmsel value s := rfl
@[simp] theorem exec_throttle (die : Nat) : exec (.throttle die) s = execThrottle die s := rfl
@[simp] theorem exec_thermalShutdown : exec (.thermalShutdown) s = execThermalShutdown s := rfl
@[simp] theorem exec_registerWrite (die : Nat) (write : MgmtWrite) : exec (.registerWrite die write) s = execRegisterWrite die write s := rfl
@[simp] theorem exec_illegalInstruction (word : BitVec 32) : exec (.illegalInstruction word) s = execIllegalInstruction word s := rfl
@[simp] theorem exec_loadValueReturn (tile : Nat) (load : Nat) : exec (.loadValueReturn tile load) s = execLoadValueReturn tile load s := rfl
@[simp] theorem exec_storeQueueDrain (tile : Nat) (entry : Nat) : exec (.storeQueueDrain tile entry) s = execStoreQueueDrain tile entry s := rfl
@[simp] theorem exec_lwrRead (die : Nat) (amber : Bool) : exec (.lwrRead die amber) s = execLwrRead die amber s := rfl
@[simp] theorem exec_powerFailure : exec (.powerFailure) s = execPowerFailure s := rfl
@[simp] theorem exec_linkTraining (die : Nat) (link : Nat) (ok : Bool) : exec (.linkTraining die link ok) s = execLinkTraining die link ok s := rfl
@[simp] theorem exec_cxlMemAccess (die : Nat) (lpddr : Bool) (address : Nat) (access : HostAccess) : exec (.cxlMemAccess die lpddr address access) s = execCxlMemAccess die lpddr address access s := rfl
@[simp] theorem exec_tagHoldExpiry (cluster : Nat) (tile : Nat) : exec (.tagHoldExpiry cluster tile) s = execTagHoldExpiry cluster tile s := rfl
@[simp] theorem exec_slotEntryBoundary (cluster : Nat) : exec (.slotEntryBoundary cluster) s = execSlotEntryBoundary cluster s := rfl
@[simp] theorem exec_wipeComplete : exec (.wipeComplete) s = execWipeComplete s := rfl

end Sys2Proof.Machine
end

