-- ==== Sys2Proof/Laws/Memory.lean ====
section
/-! SUPPORT. Laws of memory: a read after a write to the same key gives the byte written, a write leaves every other key alone, and
every operation of memory keeps the canonical form. -/

namespace Sys2Proof.Machine

@[simp] theorem Memory.read_nil (i : Nat) : Memory.read [] i = 0 := rfl

/-- Below the first listed key every byte reads zero. -/
theorem Memory.read_below {m : Memory} {lo i : Nat} (h : Memory.wfFrom lo m = true) (hi : i < lo) : m.read i = 0 := by
  induction m generalizing lo with
  | nil => rfl
  | cons c r ih =>
    obtain ⟨k, b⟩ := c
    simp only [Memory.wfFrom, Bool.and_eq_true, decide_eq_true_eq] at h
    simp only [Memory.read]
    rw [if_neg (by omega), ih h.2 (by omega)]

theorem Memory.wfFrom_mono {m : Memory} {lo lo' : Nat} (h : Memory.wfFrom lo m = true) (hl : lo' ≤ lo) :
    Memory.wfFrom lo' m = true := by
  cases m with
  | nil => rfl
  | cons c r =>
    obtain ⟨k, b⟩ := c
    simp only [Memory.wfFrom, Bool.and_eq_true, decide_eq_true_eq] at h ⊢
    exact ⟨⟨by omega, h.1.2⟩, h.2⟩

theorem Memory.read_write_from {m : Memory} {lo : Nat} (h : Memory.wfFrom lo m = true) (i j : Nat) (b : Byte) :
    Memory.read (m.write i b) j = if j = i then b else m.read j := by
  induction m generalizing lo with
  | nil => by_cases hb : b = 0#8 <;> simp [Memory.write, Memory.read, hb, eq_comm (a := i)]
  | cons c r ih =>
    obtain ⟨k, d⟩ := c
    simp only [Memory.wfFrom, Bool.and_eq_true, decide_eq_true_eq] at h
    by_cases h1 : i < k
    · have h0 : Memory.read r i = 0 := Memory.read_below h.2 (by omega)
      by_cases hb : b = 0#8
      · by_cases hj : j = i
        · subst hj
          simp [Memory.write, Memory.read, h1, hb, h0, Nat.ne_of_gt h1]
        · simp [Memory.write, h1, hb, hj]
      · simp [Memory.write, Memory.read, h1, hb, eq_comm (a := i)]
    · by_cases h2 : i = k
      · subst h2
        have h0 : Memory.read r i = 0 := Memory.read_below h.2 (by omega)
        by_cases hb : b = 0#8
        · by_cases hj : j = i
          · simp [Memory.write, hb, hj, h0]
          · simp [Memory.write, Memory.read, hb, hj, Ne.symm hj]
        · by_cases hj : j = i
          · simp [Memory.write, Memory.read, hb, hj]
          · simp [Memory.write, Memory.read, hb, hj, Ne.symm hj]
      · simp only [Memory.write, if_neg h1, if_neg h2, Memory.read, ih h.2]
        by_cases h3 : k = j
        · subst h3
          simp [Ne.symm h2]
        · simp [h3]

/-- A read after a write, in canonical memory. -/
theorem Memory.read_write {m : Memory} (h : m.wf = true) (i j : Nat) (b : Byte) :
    Memory.read (m.write i b) j = if j = i then b else m.read j :=
  Memory.read_write_from h i j b

theorem Memory.write_wfFrom {m : Memory} {lo i : Nat} (h : Memory.wfFrom lo m = true) (hi : lo ≤ i) (b : Byte) :
    Memory.wfFrom lo (m.write i b) = true := by
  induction m generalizing lo with
  | nil => by_cases hb : b = 0#8 <;> simp [Memory.write, Memory.wfFrom, hb, hi]
  | cons c r ih =>
    obtain ⟨k, d⟩ := c
    have hw := h
    simp only [Memory.wfFrom, Bool.and_eq_true, decide_eq_true_eq] at h
    by_cases h1 : i < k
    · by_cases hb : b = 0#8
      · simpa [Memory.write, h1, hb] using hw
      · rw [Memory.write, if_pos h1, if_neg (show ¬b = 0 from hb)]
        simp only [Memory.wfFrom, Bool.and_eq_true, decide_eq_true_eq]
        exact ⟨⟨hi, by simpa using hb⟩, ⟨by omega, h.1.2⟩, h.2⟩
    · by_cases h2 : i = k
      · subst h2
        by_cases hb : b = 0#8
        · simpa [Memory.write, hb] using Memory.wfFrom_mono h.2 (by omega)
        · rw [Memory.write, if_neg h1, if_pos rfl, if_neg (show ¬b = 0 from hb)]
          simp only [Memory.wfFrom, Bool.and_eq_true, decide_eq_true_eq]
          exact ⟨⟨hi, by simpa using hb⟩, h.2⟩
      · simp only [Memory.write, if_neg h1, if_neg h2, Memory.wfFrom, Bool.and_eq_true, decide_eq_true_eq]
        exact ⟨h.1, ih h.2 (by omega)⟩

/-- A write keeps the canonical form. -/
theorem Memory.write_wf {m : Memory} (h : m.wf = true) (i : Nat) (b : Byte) : (m.write i b).wf = true :=
  Memory.write_wfFrom h (Nat.zero_le i) b

/-- A list of writes keeps the canonical form. -/
theorem Memory.writes_wf {m : Memory} (h : m.wf = true) (ws : List (Nat × Byte)) : (m.writes ws).wf = true := by
  induction ws generalizing m with
  | nil => exact h
  | cons w r ih =>
    obtain ⟨k, b⟩ := w
    exact ih (Memory.write_wf h k b)

/-- A byte whose key is not written reads as before. -/
theorem Memory.read_writes_other {m : Memory} (h : m.wf = true) {ws : List (Nat × Byte)} {j : Nat}
    (hj : ∀ p ∈ ws, p.1 ≠ j) : (m.writes ws).read j = m.read j := by
  induction ws generalizing m with
  | nil => rfl
  | cons w r ih =>
    obtain ⟨k, b⟩ := w
    have hk : j ≠ k := fun e => hj (k, b) (by simp) e.symm
    rw [Memory.writes, ih (Memory.write_wf h k b) (fun p hp => hj p (by simp [hp])), Memory.read_write h, if_neg hk]

@[simp] theorem Memory.writes_nil (m : Memory) : m.writes [] = m := rfl

theorem Memory.writes_append (m : Memory) (xs ys : List (Nat × Byte)) : m.writes (xs ++ ys) = (m.writes xs).writes ys := by
  induction xs generalizing m with
  | nil => rfl
  | cons w r ih =>
    obtain ⟨k, b⟩ := w
    exact ih _

theorem Memory.keep_wfFrom {m : Memory} {lo : Nat} (h : Memory.wfFrom lo m = true) (p : Nat → Bool) :
    Memory.wfFrom lo (m.keep p) = true := by
  induction m generalizing lo with
  | nil => rfl
  | cons c r ih =>
    obtain ⟨k, b⟩ := c
    simp only [Memory.wfFrom, Bool.and_eq_true, decide_eq_true_eq] at h
    cases hp : p k with
    | false =>
      have e : Memory.keep ((k, b) :: r) p = Memory.keep r p := by simp [Memory.keep, hp]
      rw [e]
      exact Memory.wfFrom_mono (ih h.2) (by omega)
    | true =>
      have e : Memory.keep ((k, b) :: r) p = (k, b) :: Memory.keep r p := by simp [Memory.keep, hp]
      rw [e]
      simp only [Memory.wfFrom, Bool.and_eq_true, decide_eq_true_eq]
      exact ⟨h.1, ih h.2⟩

/-- Dropping bytes keeps the canonical form. -/
theorem Memory.keep_wf {m : Memory} (h : m.wf = true) (p : Nat → Bool) : (m.keep p).wf = true :=
  Memory.keep_wfFrom h p

/-- Canonical memories that read alike are equal. -/
theorem Memory.ext_wfFrom {m n : Memory} {lo : Nat} (hm : Memory.wfFrom lo m = true) (hn : Memory.wfFrom lo n = true)
    (h : ∀ i, m.read i = n.read i) : m = n := by
  induction m generalizing lo n with
  | nil =>
    cases n with
    | nil => rfl
    | cons c r =>
      obtain ⟨k, b⟩ := c
      have := h k
      simp [Memory.wfFrom] at hn
      simp [Memory.read] at this
      exact absurd this.symm hn.1.2
  | cons c r ih =>
    obtain ⟨k, b⟩ := c
    cases n with
    | nil =>
      have := h k
      simp [Memory.wfFrom] at hm
      simp [Memory.read] at this
      exact absurd this hm.1.2
    | cons c' r' =>
      obtain ⟨k', b'⟩ := c'
      have hm' := hm
      have hn' := hn
      simp only [Memory.wfFrom, Bool.and_eq_true, decide_eq_true_eq, bne_iff_ne, ne_eq] at hm hn
      have hk : k = k' := by
        rcases Nat.lt_trichotomy k k' with hlt | heq | hgt
        · have e := h k
          simp only [Memory.read, if_true] at e
          rw [if_neg (by omega), Memory.read_below hn.2 (by omega)] at e
          exact absurd e hm.1.2
        · exact heq
        · have e := h k'
          simp only [Memory.read, if_true] at e
          rw [if_neg (by omega), Memory.read_below hm.2 (by omega)] at e
          exact absurd e.symm hn.1.2
      subst hk
      have hb : b = b' := by simpa [Memory.read] using h k
      subst hb
      have hr : r = r' := by
        refine ih hm.2 hn.2 (fun i => ?_)
        by_cases hi : i = k
        · subst hi
          rw [Memory.read_below hm.2 (by omega), Memory.read_below hn.2 (by omega)]
        · have e := h i
          simpa [Memory.read, Ne.symm hi] using e
      rw [hr]

/-- Equal memories are equal lists. -/
theorem Memory.ext {m n : Memory} (hm : m.wf = true) (hn : n.wf = true) (h : ∀ i, m.read i = n.read i) : m = n :=
  Memory.ext_wfFrom hm hn h

end Sys2Proof.Machine
end

