-- ==== Sys2Proof/Laws/Tables.lean ====
section
/-! SUPPORT. Laws of sparse tables: a read after a write to the same index gives the value written, and a write leaves every other index
alone. -/

namespace Sys2Proof.Machine

@[simp] theorem Tbl.get_nil {α : Type} (d : α) (i : Nat) : Tbl.get d ([] : Tbl α) i = d := rfl

@[simp] theorem Tbl.find_nil {α : Type} (i : Nat) : Tbl.find ([] : Tbl α) i = none := rfl

theorem Tbl.get_put {α : Type} (d : α) (t : Tbl α) (i j : Nat) (v : α) :
    Tbl.get d (t.put i v) j = if j = i then v else Tbl.get d t j := by
  induction t with
  | nil => simp [Tbl.put, Tbl.get, eq_comm (a := i)]
  | cons p r ih =>
    obtain ⟨k, w⟩ := p
    by_cases h1 : i < k
    · simp [Tbl.put, Tbl.get, h1, eq_comm (a := i)]
    · by_cases h2 : i = k
      · subst h2
        by_cases h : j = i
        · simp [Tbl.put, Tbl.get, h]
        · simp [Tbl.put, Tbl.get, h, Ne.symm h]
      · simp only [Tbl.put, if_neg h1, if_neg h2, Tbl.get, ih]
        by_cases h3 : k = j
        · subst h3
          simp [Ne.symm h2]
        · simp [h3]

@[simp] theorem Tbl.get_put_same {α : Type} (d : α) (t : Tbl α) (i : Nat) (v : α) : Tbl.get d (t.put i v) i = v := by
  simp [Tbl.get_put]

theorem Tbl.get_put_other {α : Type} (d : α) (t : Tbl α) {i j : Nat} (v : α) (h : j ≠ i) :
    Tbl.get d (t.put i v) j = Tbl.get d t j := by
  simp [Tbl.get_put, h]

theorem Tbl.find_put {α : Type} (t : Tbl α) (i j : Nat) (v : α) :
    Tbl.find (t.put i v) j = if j = i then some v else Tbl.find t j := by
  induction t with
  | nil => simp [Tbl.put, Tbl.find, eq_comm (a := i)]
  | cons p r ih =>
    obtain ⟨k, w⟩ := p
    by_cases h1 : i < k
    · simp [Tbl.put, Tbl.find, h1, eq_comm (a := i)]
    · by_cases h2 : i = k
      · subst h2
        by_cases h : j = i
        · simp [Tbl.put, Tbl.find, h]
        · simp [Tbl.put, Tbl.find, h, Ne.symm h]
      · simp only [Tbl.put, if_neg h1, if_neg h2, Tbl.find, ih]
        by_cases h3 : k = j
        · subst h3
          simp [Ne.symm h2]
        · simp [h3]

@[simp] theorem Tbl.find_put_same {α : Type} (t : Tbl α) (i : Nat) (v : α) : Tbl.find (t.put i v) i = some v := by
  simp [Tbl.find_put]

theorem Tbl.find_put_other {α : Type} (t : Tbl α) {i j : Nat} (v : α) (h : j ≠ i) :
    Tbl.find (t.put i v) j = Tbl.find t j := by
  simp [Tbl.find_put, h]

/-- The later of two writes to one index stands. -/
@[simp] theorem Tbl.put_put {α : Type} (t : Tbl α) (i : Nat) (v w : α) : (t.put i v).put i w = t.put i w := by
  induction t with
  | nil => simp [Tbl.put]
  | cons p r ih =>
    obtain ⟨k, u⟩ := p
    by_cases h1 : i < k
    · simp [Tbl.put, h1]
    · by_cases h2 : i = k
      · simp [Tbl.put, h2]
      · simp [Tbl.put, h1, h2, ih]

/-- A table lists an index or holds the default at it. -/
theorem Tbl.get_eq_find {α : Type} (d : α) (t : Tbl α) (i : Nat) : Tbl.get d t i = (Tbl.find t i).getD d := by
  induction t with
  | nil => rfl
  | cons p r ih =>
    obtain ⟨k, w⟩ := p
    by_cases h : k = i <;> simp [Tbl.get, Tbl.find, h, ih]

theorem Tbl.find_mapAll {α : Type} (f : Nat → α → α) (t : Tbl α) (i : Nat) :
    Tbl.find (t.map (fun p => (p.1, f p.1 p.2))) i = (Tbl.find t i).map (f i) := by
  induction t with
  | nil => rfl
  | cons p r ih =>
    obtain ⟨k, w⟩ := p
    by_cases h : k = i
    · subst h; simp [Tbl.find]
    · simp [Tbl.find, h, ih]

end Sys2Proof.Machine
end

