-- ==== Sys2Proof/Laws/State.lean ====
section
/-! SUPPORT. One lemma per field for each update of the state, a tile, a context, a cluster: what it changes and what it leaves. -/

namespace Sys2Proof.Machine

/-! ### State.setTile -/

@[simp] theorem State.setTile_now (s : State) (t : Nat) (v : Tile) : (s.setTile t v).now = s.now := rfl
@[simp] theorem State.setTile_agenda (s : State) (t : Nat) (v : Tile) : (s.setTile t v).agenda = s.agenda := rfl
@[simp] theorem State.setTile_focus (s : State) (t : Nat) (v : Tile) : (s.setTile t v).focus = s.focus := rfl
@[simp] theorem State.setTile_marks (s : State) (t : Nat) (v : Tile) : (s.setTile t v).marks = s.marks := rfl
@[simp] theorem State.setTile_mem (s : State) (t : Nat) (v : Tile) : (s.setTile t v).mem = s.mem := rfl
@[simp] theorem State.setTile_tiles (s : State) (t : Nat) (v : Tile) : (s.setTile t v).tiles = s.tiles.put t v := rfl
@[simp] theorem State.setTile_clusters (s : State) (t : Nat) (v : Tile) : (s.setTile t v).clusters = s.clusters := rfl
@[simp] theorem State.setTile_dies (s : State) (t : Nat) (v : Tile) : (s.setTile t v).dies = s.dies := rfl
@[simp] theorem State.setTile_launches (s : State) (t : Nat) (v : Tile) : (s.setTile t v).launches = s.launches := rfl
@[simp] theorem State.setTile_pkg (s : State) (t : Nat) (v : Tile) : (s.setTile t v).pkg = s.pkg := rfl
@[simp] theorem State.setTile_outbox (s : State) (t : Nat) (v : Tile) : (s.setTile t v).outbox = s.outbox := rfl

/-! ### State.modTile -/

@[simp] theorem State.modTile_now (s : State) (t : Nat) (f : Tile → Tile) : (s.modTile t f).now = s.now := rfl
@[simp] theorem State.modTile_agenda (s : State) (t : Nat) (f : Tile → Tile) : (s.modTile t f).agenda = s.agenda := rfl
@[simp] theorem State.modTile_focus (s : State) (t : Nat) (f : Tile → Tile) : (s.modTile t f).focus = s.focus := rfl
@[simp] theorem State.modTile_marks (s : State) (t : Nat) (f : Tile → Tile) : (s.modTile t f).marks = s.marks := rfl
@[simp] theorem State.modTile_mem (s : State) (t : Nat) (f : Tile → Tile) : (s.modTile t f).mem = s.mem := rfl
@[simp] theorem State.modTile_tiles (s : State) (t : Nat) (f : Tile → Tile) : (s.modTile t f).tiles = s.tiles.put t (f (s.tile t)) := rfl
@[simp] theorem State.modTile_clusters (s : State) (t : Nat) (f : Tile → Tile) : (s.modTile t f).clusters = s.clusters := rfl
@[simp] theorem State.modTile_dies (s : State) (t : Nat) (f : Tile → Tile) : (s.modTile t f).dies = s.dies := rfl
@[simp] theorem State.modTile_launches (s : State) (t : Nat) (f : Tile → Tile) : (s.modTile t f).launches = s.launches := rfl
@[simp] theorem State.modTile_pkg (s : State) (t : Nat) (f : Tile → Tile) : (s.modTile t f).pkg = s.pkg := rfl
@[simp] theorem State.modTile_outbox (s : State) (t : Nat) (f : Tile → Tile) : (s.modTile t f).outbox = s.outbox := rfl

/-! ### State.modSeq -/

@[simp] theorem State.modSeq_now (s : State) (t : Nat) (f : Seq → Seq) : (s.modSeq t f).now = s.now := rfl
@[simp] theorem State.modSeq_agenda (s : State) (t : Nat) (f : Seq → Seq) : (s.modSeq t f).agenda = s.agenda := rfl
@[simp] theorem State.modSeq_focus (s : State) (t : Nat) (f : Seq → Seq) : (s.modSeq t f).focus = s.focus := rfl
@[simp] theorem State.modSeq_marks (s : State) (t : Nat) (f : Seq → Seq) : (s.modSeq t f).marks = s.marks := rfl
@[simp] theorem State.modSeq_mem (s : State) (t : Nat) (f : Seq → Seq) : (s.modSeq t f).mem = s.mem := rfl
@[simp] theorem State.modSeq_tiles (s : State) (t : Nat) (f : Seq → Seq) : (s.modSeq t f).tiles = s.tiles.put t { s.tile t with seq := f (s.tile t).seq } := rfl
@[simp] theorem State.modSeq_clusters (s : State) (t : Nat) (f : Seq → Seq) : (s.modSeq t f).clusters = s.clusters := rfl
@[simp] theorem State.modSeq_dies (s : State) (t : Nat) (f : Seq → Seq) : (s.modSeq t f).dies = s.dies := rfl
@[simp] theorem State.modSeq_launches (s : State) (t : Nat) (f : Seq → Seq) : (s.modSeq t f).launches = s.launches := rfl
@[simp] theorem State.modSeq_pkg (s : State) (t : Nat) (f : Seq → Seq) : (s.modSeq t f).pkg = s.pkg := rfl
@[simp] theorem State.modSeq_outbox (s : State) (t : Nat) (f : Seq → Seq) : (s.modSeq t f).outbox = s.outbox := rfl

/-! ### State.setCluster -/

@[simp] theorem State.setCluster_now (s : State) (k : Nat) (v : Cluster) : (s.setCluster k v).now = s.now := rfl
@[simp] theorem State.setCluster_agenda (s : State) (k : Nat) (v : Cluster) : (s.setCluster k v).agenda = s.agenda := rfl
@[simp] theorem State.setCluster_focus (s : State) (k : Nat) (v : Cluster) : (s.setCluster k v).focus = s.focus := rfl
@[simp] theorem State.setCluster_marks (s : State) (k : Nat) (v : Cluster) : (s.setCluster k v).marks = s.marks := rfl
@[simp] theorem State.setCluster_mem (s : State) (k : Nat) (v : Cluster) : (s.setCluster k v).mem = s.mem := rfl
@[simp] theorem State.setCluster_tiles (s : State) (k : Nat) (v : Cluster) : (s.setCluster k v).tiles = s.tiles := rfl
@[simp] theorem State.setCluster_clusters (s : State) (k : Nat) (v : Cluster) : (s.setCluster k v).clusters = s.clusters.put k v := rfl
@[simp] theorem State.setCluster_dies (s : State) (k : Nat) (v : Cluster) : (s.setCluster k v).dies = s.dies := rfl
@[simp] theorem State.setCluster_launches (s : State) (k : Nat) (v : Cluster) : (s.setCluster k v).launches = s.launches := rfl
@[simp] theorem State.setCluster_pkg (s : State) (k : Nat) (v : Cluster) : (s.setCluster k v).pkg = s.pkg := rfl
@[simp] theorem State.setCluster_outbox (s : State) (k : Nat) (v : Cluster) : (s.setCluster k v).outbox = s.outbox := rfl

/-! ### State.modCluster -/

@[simp] theorem State.modCluster_now (s : State) (k : Nat) (f : Cluster → Cluster) : (s.modCluster k f).now = s.now := rfl
@[simp] theorem State.modCluster_agenda (s : State) (k : Nat) (f : Cluster → Cluster) : (s.modCluster k f).agenda = s.agenda := rfl
@[simp] theorem State.modCluster_focus (s : State) (k : Nat) (f : Cluster → Cluster) : (s.modCluster k f).focus = s.focus := rfl
@[simp] theorem State.modCluster_marks (s : State) (k : Nat) (f : Cluster → Cluster) : (s.modCluster k f).marks = s.marks := rfl
@[simp] theorem State.modCluster_mem (s : State) (k : Nat) (f : Cluster → Cluster) : (s.modCluster k f).mem = s.mem := rfl
@[simp] theorem State.modCluster_tiles (s : State) (k : Nat) (f : Cluster → Cluster) : (s.modCluster k f).tiles = s.tiles := rfl
@[simp] theorem State.modCluster_clusters (s : State) (k : Nat) (f : Cluster → Cluster) : (s.modCluster k f).clusters = s.clusters.put k (f (s.cluster k)) := rfl
@[simp] theorem State.modCluster_dies (s : State) (k : Nat) (f : Cluster → Cluster) : (s.modCluster k f).dies = s.dies := rfl
@[simp] theorem State.modCluster_launches (s : State) (k : Nat) (f : Cluster → Cluster) : (s.modCluster k f).launches = s.launches := rfl
@[simp] theorem State.modCluster_pkg (s : State) (k : Nat) (f : Cluster → Cluster) : (s.modCluster k f).pkg = s.pkg := rfl
@[simp] theorem State.modCluster_outbox (s : State) (k : Nat) (f : Cluster → Cluster) : (s.modCluster k f).outbox = s.outbox := rfl

/-! ### State.setDie -/

@[simp] theorem State.setDie_now (s : State) (d : Nat) (v : Die) : (s.setDie d v).now = s.now := rfl
@[simp] theorem State.setDie_agenda (s : State) (d : Nat) (v : Die) : (s.setDie d v).agenda = s.agenda := rfl
@[simp] theorem State.setDie_focus (s : State) (d : Nat) (v : Die) : (s.setDie d v).focus = s.focus := rfl
@[simp] theorem State.setDie_marks (s : State) (d : Nat) (v : Die) : (s.setDie d v).marks = s.marks := rfl
@[simp] theorem State.setDie_mem (s : State) (d : Nat) (v : Die) : (s.setDie d v).mem = s.mem := rfl
@[simp] theorem State.setDie_tiles (s : State) (d : Nat) (v : Die) : (s.setDie d v).tiles = s.tiles := rfl
@[simp] theorem State.setDie_clusters (s : State) (d : Nat) (v : Die) : (s.setDie d v).clusters = s.clusters := rfl
@[simp] theorem State.setDie_dies (s : State) (d : Nat) (v : Die) : (s.setDie d v).dies = s.dies.put d v := rfl
@[simp] theorem State.setDie_launches (s : State) (d : Nat) (v : Die) : (s.setDie d v).launches = s.launches := rfl
@[simp] theorem State.setDie_pkg (s : State) (d : Nat) (v : Die) : (s.setDie d v).pkg = s.pkg := rfl
@[simp] theorem State.setDie_outbox (s : State) (d : Nat) (v : Die) : (s.setDie d v).outbox = s.outbox := rfl

/-! ### State.modDie -/

@[simp] theorem State.modDie_now (s : State) (d : Nat) (f : Die → Die) : (s.modDie d f).now = s.now := rfl
@[simp] theorem State.modDie_agenda (s : State) (d : Nat) (f : Die → Die) : (s.modDie d f).agenda = s.agenda := rfl
@[simp] theorem State.modDie_focus (s : State) (d : Nat) (f : Die → Die) : (s.modDie d f).focus = s.focus := rfl
@[simp] theorem State.modDie_marks (s : State) (d : Nat) (f : Die → Die) : (s.modDie d f).marks = s.marks := rfl
@[simp] theorem State.modDie_mem (s : State) (d : Nat) (f : Die → Die) : (s.modDie d f).mem = s.mem := rfl
@[simp] theorem State.modDie_tiles (s : State) (d : Nat) (f : Die → Die) : (s.modDie d f).tiles = s.tiles := rfl
@[simp] theorem State.modDie_clusters (s : State) (d : Nat) (f : Die → Die) : (s.modDie d f).clusters = s.clusters := rfl
@[simp] theorem State.modDie_dies (s : State) (d : Nat) (f : Die → Die) : (s.modDie d f).dies = s.dies.put d (f (s.die d)) := rfl
@[simp] theorem State.modDie_launches (s : State) (d : Nat) (f : Die → Die) : (s.modDie d f).launches = s.launches := rfl
@[simp] theorem State.modDie_pkg (s : State) (d : Nat) (f : Die → Die) : (s.modDie d f).pkg = s.pkg := rfl
@[simp] theorem State.modDie_outbox (s : State) (d : Nat) (f : Die → Die) : (s.modDie d f).outbox = s.outbox := rfl

/-! ### State.record -/

@[simp] theorem State.record_now (s : State) (r : Rec) : (s.record r).now = s.now := rfl
@[simp] theorem State.record_agenda (s : State) (r : Rec) : (s.record r).agenda = s.agenda := rfl
@[simp] theorem State.record_focus (s : State) (r : Rec) : (s.record r).focus = s.focus := rfl
@[simp] theorem State.record_marks (s : State) (r : Rec) : (s.record r).marks = s.marks := rfl
@[simp] theorem State.record_mem (s : State) (r : Rec) : (s.record r).mem = s.mem := rfl
@[simp] theorem State.record_tiles (s : State) (r : Rec) : (s.record r).tiles = s.tiles := rfl
@[simp] theorem State.record_clusters (s : State) (r : Rec) : (s.record r).clusters = s.clusters := rfl
@[simp] theorem State.record_dies (s : State) (r : Rec) : (s.record r).dies = s.dies.put r.die ((s.die r.die).place r) := rfl
@[simp] theorem State.record_launches (s : State) (r : Rec) : (s.record r).launches = s.launches := rfl
@[simp] theorem State.record_pkg (s : State) (r : Rec) : (s.record r).pkg = s.pkg := rfl
@[simp] theorem State.record_outbox (s : State) (r : Rec) : (s.record r).outbox = s.outbox := rfl

/-! ### State.setLaunch -/

@[simp] theorem State.setLaunch_now (s : State) (l : Nat) (v : Launch) : (s.setLaunch l v).now = s.now := rfl
@[simp] theorem State.setLaunch_agenda (s : State) (l : Nat) (v : Launch) : (s.setLaunch l v).agenda = s.agenda := rfl
@[simp] theorem State.setLaunch_focus (s : State) (l : Nat) (v : Launch) : (s.setLaunch l v).focus = s.focus := rfl
@[simp] theorem State.setLaunch_marks (s : State) (l : Nat) (v : Launch) : (s.setLaunch l v).marks = s.marks := rfl
@[simp] theorem State.setLaunch_mem (s : State) (l : Nat) (v : Launch) : (s.setLaunch l v).mem = s.mem := rfl
@[simp] theorem State.setLaunch_tiles (s : State) (l : Nat) (v : Launch) : (s.setLaunch l v).tiles = s.tiles := rfl
@[simp] theorem State.setLaunch_clusters (s : State) (l : Nat) (v : Launch) : (s.setLaunch l v).clusters = s.clusters := rfl
@[simp] theorem State.setLaunch_dies (s : State) (l : Nat) (v : Launch) : (s.setLaunch l v).dies = s.dies := rfl
@[simp] theorem State.setLaunch_launches (s : State) (l : Nat) (v : Launch) : (s.setLaunch l v).launches = s.launches.put l v := rfl
@[simp] theorem State.setLaunch_pkg (s : State) (l : Nat) (v : Launch) : (s.setLaunch l v).pkg = s.pkg := rfl
@[simp] theorem State.setLaunch_outbox (s : State) (l : Nat) (v : Launch) : (s.setLaunch l v).outbox = s.outbox := rfl

/-! ### State.modPkg -/

@[simp] theorem State.modPkg_now (s : State) (f : Pkg → Pkg) : (s.modPkg f).now = s.now := rfl
@[simp] theorem State.modPkg_agenda (s : State) (f : Pkg → Pkg) : (s.modPkg f).agenda = s.agenda := rfl
@[simp] theorem State.modPkg_focus (s : State) (f : Pkg → Pkg) : (s.modPkg f).focus = s.focus := rfl
@[simp] theorem State.modPkg_marks (s : State) (f : Pkg → Pkg) : (s.modPkg f).marks = s.marks := rfl
@[simp] theorem State.modPkg_mem (s : State) (f : Pkg → Pkg) : (s.modPkg f).mem = s.mem := rfl
@[simp] theorem State.modPkg_tiles (s : State) (f : Pkg → Pkg) : (s.modPkg f).tiles = s.tiles := rfl
@[simp] theorem State.modPkg_clusters (s : State) (f : Pkg → Pkg) : (s.modPkg f).clusters = s.clusters := rfl
@[simp] theorem State.modPkg_dies (s : State) (f : Pkg → Pkg) : (s.modPkg f).dies = s.dies := rfl
@[simp] theorem State.modPkg_launches (s : State) (f : Pkg → Pkg) : (s.modPkg f).launches = s.launches := rfl
@[simp] theorem State.modPkg_pkg (s : State) (f : Pkg → Pkg) : (s.modPkg f).pkg = f s.pkg := rfl
@[simp] theorem State.modPkg_outbox (s : State) (f : Pkg → Pkg) : (s.modPkg f).outbox = s.outbox := rfl

/-! ### State.count -/

@[simp] theorem State.count_now (s : State) (k n : Nat) : (s.count k n).now = s.now := rfl
@[simp] theorem State.count_agenda (s : State) (k n : Nat) : (s.count k n).agenda = s.agenda := rfl
@[simp] theorem State.count_focus (s : State) (k n : Nat) : (s.count k n).focus = s.focus := rfl
@[simp] theorem State.count_marks (s : State) (k n : Nat) : (s.count k n).marks = s.marks := rfl
@[simp] theorem State.count_mem (s : State) (k n : Nat) : (s.count k n).mem = s.mem := rfl
@[simp] theorem State.count_tiles (s : State) (k n : Nat) : (s.count k n).tiles = s.tiles := rfl
@[simp] theorem State.count_clusters (s : State) (k n : Nat) : (s.count k n).clusters = s.clusters := rfl
@[simp] theorem State.count_dies (s : State) (k n : Nat) : (s.count k n).dies = s.dies := rfl
@[simp] theorem State.count_launches (s : State) (k n : Nat) : (s.count k n).launches = s.launches := rfl
@[simp] theorem State.count_outbox (s : State) (k n : Nat) : (s.count k n).outbox = s.outbox := rfl

/-! ### State.send -/

@[simp] theorem State.send_now (s : State) (m : Message) : (s.send m).now = s.now := rfl
@[simp] theorem State.send_agenda (s : State) (m : Message) : (s.send m).agenda = s.agenda := rfl
@[simp] theorem State.send_focus (s : State) (m : Message) : (s.send m).focus = s.focus := rfl
@[simp] theorem State.send_marks (s : State) (m : Message) : (s.send m).marks = s.marks := rfl
@[simp] theorem State.send_mem (s : State) (m : Message) : (s.send m).mem = s.mem := rfl
@[simp] theorem State.send_tiles (s : State) (m : Message) : (s.send m).tiles = s.tiles := rfl
@[simp] theorem State.send_clusters (s : State) (m : Message) : (s.send m).clusters = s.clusters := rfl
@[simp] theorem State.send_dies (s : State) (m : Message) : (s.send m).dies = s.dies := rfl
@[simp] theorem State.send_launches (s : State) (m : Message) : (s.send m).launches = s.launches := rfl
@[simp] theorem State.send_pkg (s : State) (m : Message) : (s.send m).pkg = s.pkg := rfl
@[simp] theorem State.send_outbox (s : State) (m : Message) : (s.send m).outbox = s.outbox ++ [m] := rfl

/-! ### State.modLaunch -/

@[simp] theorem State.modLaunch_now (s : State) (l : Nat) (f : Launch → Launch) : (s.modLaunch l f).now = s.now := by
  unfold State.modLaunch; split <;> rfl
@[simp] theorem State.modLaunch_agenda (s : State) (l : Nat) (f : Launch → Launch) : (s.modLaunch l f).agenda = s.agenda := by
  unfold State.modLaunch; split <;> rfl
@[simp] theorem State.modLaunch_focus (s : State) (l : Nat) (f : Launch → Launch) : (s.modLaunch l f).focus = s.focus := by
  unfold State.modLaunch; split <;> rfl
@[simp] theorem State.modLaunch_marks (s : State) (l : Nat) (f : Launch → Launch) : (s.modLaunch l f).marks = s.marks := by
  unfold State.modLaunch; split <;> rfl
@[simp] theorem State.modLaunch_mem (s : State) (l : Nat) (f : Launch → Launch) : (s.modLaunch l f).mem = s.mem := by
  unfold State.modLaunch; split <;> rfl
@[simp] theorem State.modLaunch_tiles (s : State) (l : Nat) (f : Launch → Launch) : (s.modLaunch l f).tiles = s.tiles := by
  unfold State.modLaunch; split <;> rfl
@[simp] theorem State.modLaunch_clusters (s : State) (l : Nat) (f : Launch → Launch) : (s.modLaunch l f).clusters = s.clusters := by
  unfold State.modLaunch; split <;> rfl
@[simp] theorem State.modLaunch_dies (s : State) (l : Nat) (f : Launch → Launch) : (s.modLaunch l f).dies = s.dies := by
  unfold State.modLaunch; split <;> rfl
@[simp] theorem State.modLaunch_pkg (s : State) (l : Nat) (f : Launch → Launch) : (s.modLaunch l f).pkg = s.pkg := by
  unfold State.modLaunch; split <;> rfl
@[simp] theorem State.modLaunch_outbox (s : State) (l : Nat) (f : Launch → Launch) : (s.modLaunch l f).outbox = s.outbox := by
  unfold State.modLaunch; split <;> rfl

/-! ### Units after an update -/

@[simp] theorem State.setCluster_tile (s : State) (k : Nat) (v : Cluster) (u : Nat) : (s.setCluster k v).tile u = s.tile u := rfl
@[simp] theorem State.modCluster_tile (s : State) (k : Nat) (f : Cluster → Cluster) (u : Nat) : (s.modCluster k f).tile u = s.tile u := rfl
@[simp] theorem State.setDie_tile (s : State) (d : Nat) (v : Die) (u : Nat) : (s.setDie d v).tile u = s.tile u := rfl
@[simp] theorem State.modDie_tile (s : State) (d : Nat) (f : Die → Die) (u : Nat) : (s.modDie d f).tile u = s.tile u := rfl
@[simp] theorem State.record_tile (s : State) (r : Rec) (u : Nat) : (s.record r).tile u = s.tile u := rfl
@[simp] theorem State.setLaunch_tile (s : State) (l : Nat) (v : Launch) (u : Nat) : (s.setLaunch l v).tile u = s.tile u := rfl
@[simp] theorem State.modPkg_tile (s : State) (f : Pkg → Pkg) (u : Nat) : (s.modPkg f).tile u = s.tile u := rfl
@[simp] theorem State.count_tile (s : State) (k n : Nat) (u : Nat) : (s.count k n).tile u = s.tile u := rfl
@[simp] theorem State.send_tile (s : State) (m : Message) (u : Nat) : (s.send m).tile u = s.tile u := rfl
@[simp] theorem State.modLaunch_tile (s : State) (l : Nat) (f : Launch → Launch) (u : Nat) : (s.modLaunch l f).tile u = s.tile u := by
  unfold State.modLaunch; split <;> rfl

theorem State.setTile_tile (s : State) (t : Nat) (x : Tile) (u : Nat) :
    (s.setTile t x).tile u = if u = t then x else s.tile u := Tbl.get_put _ _ _ _ _

@[simp] theorem State.setTile_tile_same (s : State) (t : Nat) (x : Tile) : (s.setTile t x).tile t = x :=
  Tbl.get_put_same _ _ _ _

theorem State.modTile_tile (s : State) (t : Nat) (f : Tile → Tile) (u : Nat) :
    (s.modTile t f).tile u = if u = t then f (s.tile t) else s.tile u := Tbl.get_put _ _ _ _ _

@[simp] theorem State.modTile_tile_same (s : State) (t : Nat) (f : Tile → Tile) : (s.modTile t f).tile t = f (s.tile t) :=
  Tbl.get_put_same _ _ _ _

@[simp] theorem State.setTile_cluster (s : State) (t : Nat) (v : Tile) (u : Nat) : (s.setTile t v).cluster u = s.cluster u := rfl
@[simp] theorem State.modTile_cluster (s : State) (t : Nat) (f : Tile → Tile) (u : Nat) : (s.modTile t f).cluster u = s.cluster u := rfl
@[simp] theorem State.modSeq_cluster (s : State) (t : Nat) (f : Seq → Seq) (u : Nat) : (s.modSeq t f).cluster u = s.cluster u := rfl
@[simp] theorem State.setDie_cluster (s : State) (d : Nat) (v : Die) (u : Nat) : (s.setDie d v).cluster u = s.cluster u := rfl
@[simp] theorem State.modDie_cluster (s : State) (d : Nat) (f : Die → Die) (u : Nat) : (s.modDie d f).cluster u = s.cluster u := rfl
@[simp] theorem State.record_cluster (s : State) (r : Rec) (u : Nat) : (s.record r).cluster u = s.cluster u := rfl
@[simp] theorem State.setLaunch_cluster (s : State) (l : Nat) (v : Launch) (u : Nat) : (s.setLaunch l v).cluster u = s.cluster u := rfl
@[simp] theorem State.modPkg_cluster (s : State) (f : Pkg → Pkg) (u : Nat) : (s.modPkg f).cluster u = s.cluster u := rfl
@[simp] theorem State.count_cluster (s : State) (k n : Nat) (u : Nat) : (s.count k n).cluster u = s.cluster u := rfl
@[simp] theorem State.send_cluster (s : State) (m : Message) (u : Nat) : (s.send m).cluster u = s.cluster u := rfl
@[simp] theorem State.modLaunch_cluster (s : State) (l : Nat) (f : Launch → Launch) (u : Nat) : (s.modLaunch l f).cluster u = s.cluster u := by
  unfold State.modLaunch; split <;> rfl

theorem State.setCluster_cluster (s : State) (k : Nat) (x : Cluster) (u : Nat) :
    (s.setCluster k x).cluster u = if u = k then x else s.cluster u := Tbl.get_put _ _ _ _ _

@[simp] theorem State.setCluster_cluster_same (s : State) (k : Nat) (x : Cluster) : (s.setCluster k x).cluster k = x :=
  Tbl.get_put_same _ _ _ _

theorem State.modCluster_cluster (s : State) (k : Nat) (f : Cluster → Cluster) (u : Nat) :
    (s.modCluster k f).cluster u = if u = k then f (s.cluster k) else s.cluster u := Tbl.get_put _ _ _ _ _

@[simp] theorem State.modCluster_cluster_same (s : State) (k : Nat) (f : Cluster → Cluster) : (s.modCluster k f).cluster k = f (s.cluster k) :=
  Tbl.get_put_same _ _ _ _

@[simp] theorem State.setTile_die (s : State) (t : Nat) (v : Tile) (u : Nat) : (s.setTile t v).die u = s.die u := rfl
@[simp] theorem State.modTile_die (s : State) (t : Nat) (f : Tile → Tile) (u : Nat) : (s.modTile t f).die u = s.die u := rfl
@[simp] theorem State.modSeq_die (s : State) (t : Nat) (f : Seq → Seq) (u : Nat) : (s.modSeq t f).die u = s.die u := rfl
@[simp] theorem State.setCluster_die (s : State) (k : Nat) (v : Cluster) (u : Nat) : (s.setCluster k v).die u = s.die u := rfl
@[simp] theorem State.modCluster_die (s : State) (k : Nat) (f : Cluster → Cluster) (u : Nat) : (s.modCluster k f).die u = s.die u := rfl
@[simp] theorem State.setLaunch_die (s : State) (l : Nat) (v : Launch) (u : Nat) : (s.setLaunch l v).die u = s.die u := rfl
@[simp] theorem State.modPkg_die (s : State) (f : Pkg → Pkg) (u : Nat) : (s.modPkg f).die u = s.die u := rfl
@[simp] theorem State.count_die (s : State) (k n : Nat) (u : Nat) : (s.count k n).die u = s.die u := rfl
@[simp] theorem State.send_die (s : State) (m : Message) (u : Nat) : (s.send m).die u = s.die u := rfl
@[simp] theorem State.modLaunch_die (s : State) (l : Nat) (f : Launch → Launch) (u : Nat) : (s.modLaunch l f).die u = s.die u := by
  unfold State.modLaunch; split <;> rfl

theorem State.setDie_die (s : State) (d : Nat) (x : Die) (u : Nat) :
    (s.setDie d x).die u = if u = d then x else s.die u := Tbl.get_put _ _ _ _ _

@[simp] theorem State.setDie_die_same (s : State) (d : Nat) (x : Die) : (s.setDie d x).die d = x :=
  Tbl.get_put_same _ _ _ _

theorem State.modDie_die (s : State) (d : Nat) (f : Die → Die) (u : Nat) :
    (s.modDie d f).die u = if u = d then f (s.die d) else s.die u := Tbl.get_put _ _ _ _ _

@[simp] theorem State.modDie_die_same (s : State) (d : Nat) (f : Die → Die) : (s.modDie d f).die d = f (s.die d) :=
  Tbl.get_put_same _ _ _ _

theorem State.modSeq_tile (s : State) (t : Nat) (f : Seq → Seq) (u : Nat) :
    (s.modSeq t f).tile u = if u = t then { s.tile t with seq := f (s.tile t).seq } else s.tile u := Tbl.get_put _ _ _ _ _

@[simp] theorem State.modSeq_tile_same (s : State) (t : Nat) (f : Seq → Seq) :
    (s.modSeq t f).tile t = { s.tile t with seq := f (s.tile t).seq } := Tbl.get_put_same _ _ _ _

/-- A record goes to its die and touches no other (R280). -/
theorem State.record_die (s : State) (r : Rec) (d : Nat) :
    (s.record r).die d = if d = r.die then (s.die d).place r else s.die d := by
  unfold State.record
  rw [State.modDie_die]
  split <;> simp_all

theorem State.setLaunch_launch (s : State) (l : Nat) (v : Launch) (m : Nat) :
    (s.setLaunch l v).launch m = if m = l then some v else s.launch m := Tbl.find_put _ _ _ _

/-! ### Parts of a tile -/

@[simp] theorem Tile.setCtx_launch (T : Tile) (c : Nat) (x : Ctx) : (T.setCtx c x).launch = T.launch := rfl
@[simp] theorem Tile.setCtx_page (T : Tile) (c : Nat) (x : Ctx) : (T.setCtx c x).page = T.page := rfl
@[simp] theorem Tile.setCtx_gated (T : Tile) (c : Nat) (x : Ctx) : (T.setCtx c x).gated = T.gated := rfl
@[simp] theorem Tile.setCtx_dead (T : Tile) (c : Nat) (x : Ctx) : (T.setCtx c x).dead = T.dead := rfl
@[simp] theorem Tile.setCtx_seq (T : Tile) (c : Nat) (x : Ctx) : (T.setCtx c x).seq = T.seq := rfl
@[simp] theorem Tile.setCtx_rseed (T : Tile) (c : Nat) (x : Ctx) : (T.setCtx c x).rseed = T.rseed := rfl
@[simp] theorem Tile.setCtx_g (T : Tile) (c : Nat) (x : Ctx) : (T.setCtx c x).g = T.g := rfl
@[simp] theorem Tile.setCtx_v (T : Tile) (c : Nat) (x : Ctx) : (T.setCtx c x).v = T.v := rfl
@[simp] theorem Tile.setCtx_bars (T : Tile) (c : Nat) (x : Ctx) : (T.setCtx c x).bars = T.bars := rfl
@[simp] theorem Tile.setCtx_barDrops (T : Tile) (c : Nat) (x : Ctx) : (T.setCtx c x).barDrops = T.barDrops := rfl
@[simp] theorem Tile.setCtx_counts (T : Tile) (c : Nat) (x : Ctx) : (T.setCtx c x).counts = T.counts := rfl
@[simp] theorem Tile.setCtx_lostLoads (T : Tile) (c : Nat) (x : Ctx) : (T.setCtx c x).lostLoads = T.lostLoads := rfl
@[simp] theorem Tile.setCtx_ctxs (T : Tile) (c : Nat) (x : Ctx) : (T.setCtx c x).ctxs = T.ctxs.put c x := rfl
@[simp] theorem Tile.setCtx_round (T : Tile) (c : Nat) (x : Ctx) : (T.setCtx c x).round = T.round := rfl
@[simp] theorem Tile.setCtx_last (T : Tile) (c : Nat) (x : Ctx) : (T.setCtx c x).last = T.last := rfl
@[simp] theorem Tile.setCtx_rounds (T : Tile) (c : Nat) (x : Ctx) : (T.setCtx c x).rounds = T.rounds := rfl
@[simp] theorem Tile.setCtx_drain (T : Tile) (c : Nat) (x : Ctx) : (T.setCtx c x).drain = T.drain := rfl
@[simp] theorem Tile.setCtx_arrivals (T : Tile) (c : Nat) (x : Ctx) : (T.setCtx c x).arrivals = T.arrivals := rfl
@[simp] theorem Tile.setCtx_seam (T : Tile) (c : Nat) (x : Ctx) : (T.setCtx c x).seam = T.seam := rfl
@[simp] theorem Tile.setCtx_ports (T : Tile) (c : Nat) (x : Ctx) : (T.setCtx c x).ports = T.ports := rfl
@[simp] theorem Tile.setCtx_tlb (T : Tile) (c : Nat) (x : Ctx) : (T.setCtx c x).tlb = T.tlb := rfl
@[simp] theorem Tile.setCtx_robin (T : Tile) (c : Nat) (x : Ctx) : (T.setCtx c x).robin = T.robin := rfl

@[simp] theorem Tile.modCtx_launch (T : Tile) (c : Nat) (f : Ctx → Ctx) : (T.modCtx c f).launch = T.launch := rfl
@[simp] theorem Tile.modCtx_page (T : Tile) (c : Nat) (f : Ctx → Ctx) : (T.modCtx c f).page = T.page := rfl
@[simp] theorem Tile.modCtx_gated (T : Tile) (c : Nat) (f : Ctx → Ctx) : (T.modCtx c f).gated = T.gated := rfl
@[simp] theorem Tile.modCtx_dead (T : Tile) (c : Nat) (f : Ctx → Ctx) : (T.modCtx c f).dead = T.dead := rfl
@[simp] theorem Tile.modCtx_seq (T : Tile) (c : Nat) (f : Ctx → Ctx) : (T.modCtx c f).seq = T.seq := rfl
@[simp] theorem Tile.modCtx_rseed (T : Tile) (c : Nat) (f : Ctx → Ctx) : (T.modCtx c f).rseed = T.rseed := rfl
@[simp] theorem Tile.modCtx_g (T : Tile) (c : Nat) (f : Ctx → Ctx) : (T.modCtx c f).g = T.g := rfl
@[simp] theorem Tile.modCtx_v (T : Tile) (c : Nat) (f : Ctx → Ctx) : (T.modCtx c f).v = T.v := rfl
@[simp] theorem Tile.modCtx_bars (T : Tile) (c : Nat) (f : Ctx → Ctx) : (T.modCtx c f).bars = T.bars := rfl
@[simp] theorem Tile.modCtx_barDrops (T : Tile) (c : Nat) (f : Ctx → Ctx) : (T.modCtx c f).barDrops = T.barDrops := rfl
@[simp] theorem Tile.modCtx_counts (T : Tile) (c : Nat) (f : Ctx → Ctx) : (T.modCtx c f).counts = T.counts := rfl
@[simp] theorem Tile.modCtx_lostLoads (T : Tile) (c : Nat) (f : Ctx → Ctx) : (T.modCtx c f).lostLoads = T.lostLoads := rfl
@[simp] theorem Tile.modCtx_ctxs (T : Tile) (c : Nat) (f : Ctx → Ctx) : (T.modCtx c f).ctxs = T.ctxs.put c (f (T.ctx c)) := rfl
@[simp] theorem Tile.modCtx_round (T : Tile) (c : Nat) (f : Ctx → Ctx) : (T.modCtx c f).round = T.round := rfl
@[simp] theorem Tile.modCtx_last (T : Tile) (c : Nat) (f : Ctx → Ctx) : (T.modCtx c f).last = T.last := rfl
@[simp] theorem Tile.modCtx_rounds (T : Tile) (c : Nat) (f : Ctx → Ctx) : (T.modCtx c f).rounds = T.rounds := rfl
@[simp] theorem Tile.modCtx_drain (T : Tile) (c : Nat) (f : Ctx → Ctx) : (T.modCtx c f).drain = T.drain := rfl
@[simp] theorem Tile.modCtx_arrivals (T : Tile) (c : Nat) (f : Ctx → Ctx) : (T.modCtx c f).arrivals = T.arrivals := rfl
@[simp] theorem Tile.modCtx_seam (T : Tile) (c : Nat) (f : Ctx → Ctx) : (T.modCtx c f).seam = T.seam := rfl
@[simp] theorem Tile.modCtx_ports (T : Tile) (c : Nat) (f : Ctx → Ctx) : (T.modCtx c f).ports = T.ports := rfl
@[simp] theorem Tile.modCtx_tlb (T : Tile) (c : Nat) (f : Ctx → Ctx) : (T.modCtx c f).tlb = T.tlb := rfl
@[simp] theorem Tile.modCtx_robin (T : Tile) (c : Nat) (f : Ctx → Ctx) : (T.modCtx c f).robin = T.robin := rfl

@[simp] theorem Tile.setPort_launch (T : Tile) (p : Nat) (x : Port) : (T.setPort p x).launch = T.launch := rfl
@[simp] theorem Tile.setPort_page (T : Tile) (p : Nat) (x : Port) : (T.setPort p x).page = T.page := rfl
@[simp] theorem Tile.setPort_gated (T : Tile) (p : Nat) (x : Port) : (T.setPort p x).gated = T.gated := rfl
@[simp] theorem Tile.setPort_dead (T : Tile) (p : Nat) (x : Port) : (T.setPort p x).dead = T.dead := rfl
@[simp] theorem Tile.setPort_seq (T : Tile) (p : Nat) (x : Port) : (T.setPort p x).seq = T.seq := rfl
@[simp] theorem Tile.setPort_rseed (T : Tile) (p : Nat) (x : Port) : (T.setPort p x).rseed = T.rseed := rfl
@[simp] theorem Tile.setPort_g (T : Tile) (p : Nat) (x : Port) : (T.setPort p x).g = T.g := rfl
@[simp] theorem Tile.setPort_v (T : Tile) (p : Nat) (x : Port) : (T.setPort p x).v = T.v := rfl
@[simp] theorem Tile.setPort_bars (T : Tile) (p : Nat) (x : Port) : (T.setPort p x).bars = T.bars := rfl
@[simp] theorem Tile.setPort_barDrops (T : Tile) (p : Nat) (x : Port) : (T.setPort p x).barDrops = T.barDrops := rfl
@[simp] theorem Tile.setPort_counts (T : Tile) (p : Nat) (x : Port) : (T.setPort p x).counts = T.counts := rfl
@[simp] theorem Tile.setPort_lostLoads (T : Tile) (p : Nat) (x : Port) : (T.setPort p x).lostLoads = T.lostLoads := rfl
@[simp] theorem Tile.setPort_ctxs (T : Tile) (p : Nat) (x : Port) : (T.setPort p x).ctxs = T.ctxs := rfl
@[simp] theorem Tile.setPort_round (T : Tile) (p : Nat) (x : Port) : (T.setPort p x).round = T.round := rfl
@[simp] theorem Tile.setPort_last (T : Tile) (p : Nat) (x : Port) : (T.setPort p x).last = T.last := rfl
@[simp] theorem Tile.setPort_rounds (T : Tile) (p : Nat) (x : Port) : (T.setPort p x).rounds = T.rounds := rfl
@[simp] theorem Tile.setPort_drain (T : Tile) (p : Nat) (x : Port) : (T.setPort p x).drain = T.drain := rfl
@[simp] theorem Tile.setPort_arrivals (T : Tile) (p : Nat) (x : Port) : (T.setPort p x).arrivals = T.arrivals := rfl
@[simp] theorem Tile.setPort_seam (T : Tile) (p : Nat) (x : Port) : (T.setPort p x).seam = T.seam := rfl
@[simp] theorem Tile.setPort_ports (T : Tile) (p : Nat) (x : Port) : (T.setPort p x).ports = T.ports.put p x := rfl
@[simp] theorem Tile.setPort_tlb (T : Tile) (p : Nat) (x : Port) : (T.setPort p x).tlb = T.tlb := rfl
@[simp] theorem Tile.setPort_robin (T : Tile) (p : Nat) (x : Port) : (T.setPort p x).robin = T.robin := rfl

@[simp] theorem Tile.modPort_launch (T : Tile) (p : Nat) (f : Port → Port) : (T.modPort p f).launch = T.launch := rfl
@[simp] theorem Tile.modPort_page (T : Tile) (p : Nat) (f : Port → Port) : (T.modPort p f).page = T.page := rfl
@[simp] theorem Tile.modPort_gated (T : Tile) (p : Nat) (f : Port → Port) : (T.modPort p f).gated = T.gated := rfl
@[simp] theorem Tile.modPort_dead (T : Tile) (p : Nat) (f : Port → Port) : (T.modPort p f).dead = T.dead := rfl
@[simp] theorem Tile.modPort_seq (T : Tile) (p : Nat) (f : Port → Port) : (T.modPort p f).seq = T.seq := rfl
@[simp] theorem Tile.modPort_rseed (T : Tile) (p : Nat) (f : Port → Port) : (T.modPort p f).rseed = T.rseed := rfl
@[simp] theorem Tile.modPort_g (T : Tile) (p : Nat) (f : Port → Port) : (T.modPort p f).g = T.g := rfl
@[simp] theorem Tile.modPort_v (T : Tile) (p : Nat) (f : Port → Port) : (T.modPort p f).v = T.v := rfl
@[simp] theorem Tile.modPort_bars (T : Tile) (p : Nat) (f : Port → Port) : (T.modPort p f).bars = T.bars := rfl
@[simp] theorem Tile.modPort_barDrops (T : Tile) (p : Nat) (f : Port → Port) : (T.modPort p f).barDrops = T.barDrops := rfl
@[simp] theorem Tile.modPort_counts (T : Tile) (p : Nat) (f : Port → Port) : (T.modPort p f).counts = T.counts := rfl
@[simp] theorem Tile.modPort_lostLoads (T : Tile) (p : Nat) (f : Port → Port) : (T.modPort p f).lostLoads = T.lostLoads := rfl
@[simp] theorem Tile.modPort_ctxs (T : Tile) (p : Nat) (f : Port → Port) : (T.modPort p f).ctxs = T.ctxs := rfl
@[simp] theorem Tile.modPort_round (T : Tile) (p : Nat) (f : Port → Port) : (T.modPort p f).round = T.round := rfl
@[simp] theorem Tile.modPort_last (T : Tile) (p : Nat) (f : Port → Port) : (T.modPort p f).last = T.last := rfl
@[simp] theorem Tile.modPort_rounds (T : Tile) (p : Nat) (f : Port → Port) : (T.modPort p f).rounds = T.rounds := rfl
@[simp] theorem Tile.modPort_drain (T : Tile) (p : Nat) (f : Port → Port) : (T.modPort p f).drain = T.drain := rfl
@[simp] theorem Tile.modPort_arrivals (T : Tile) (p : Nat) (f : Port → Port) : (T.modPort p f).arrivals = T.arrivals := rfl
@[simp] theorem Tile.modPort_seam (T : Tile) (p : Nat) (f : Port → Port) : (T.modPort p f).seam = T.seam := rfl
@[simp] theorem Tile.modPort_ports (T : Tile) (p : Nat) (f : Port → Port) : (T.modPort p f).ports = T.ports.put p (f (T.port p)) := rfl
@[simp] theorem Tile.modPort_tlb (T : Tile) (p : Nat) (f : Port → Port) : (T.modPort p f).tlb = T.tlb := rfl
@[simp] theorem Tile.modPort_robin (T : Tile) (p : Nat) (f : Port → Port) : (T.modPort p f).robin = T.robin := rfl

@[simp] theorem Tile.setBar_launch (T : Tile) (i : Nat) (b : Bar) : (T.setBar i b).launch = T.launch := rfl
@[simp] theorem Tile.setBar_page (T : Tile) (i : Nat) (b : Bar) : (T.setBar i b).page = T.page := rfl
@[simp] theorem Tile.setBar_gated (T : Tile) (i : Nat) (b : Bar) : (T.setBar i b).gated = T.gated := rfl
@[simp] theorem Tile.setBar_dead (T : Tile) (i : Nat) (b : Bar) : (T.setBar i b).dead = T.dead := rfl
@[simp] theorem Tile.setBar_seq (T : Tile) (i : Nat) (b : Bar) : (T.setBar i b).seq = T.seq := rfl
@[simp] theorem Tile.setBar_rseed (T : Tile) (i : Nat) (b : Bar) : (T.setBar i b).rseed = T.rseed := rfl
@[simp] theorem Tile.setBar_g (T : Tile) (i : Nat) (b : Bar) : (T.setBar i b).g = T.g := rfl
@[simp] theorem Tile.setBar_v (T : Tile) (i : Nat) (b : Bar) : (T.setBar i b).v = T.v := rfl
@[simp] theorem Tile.setBar_bars (T : Tile) (i : Nat) (b : Bar) : (T.setBar i b).bars = T.bars.put i b := rfl
@[simp] theorem Tile.setBar_barDrops (T : Tile) (i : Nat) (b : Bar) : (T.setBar i b).barDrops = T.barDrops := rfl
@[simp] theorem Tile.setBar_counts (T : Tile) (i : Nat) (b : Bar) : (T.setBar i b).counts = T.counts := rfl
@[simp] theorem Tile.setBar_lostLoads (T : Tile) (i : Nat) (b : Bar) : (T.setBar i b).lostLoads = T.lostLoads := rfl
@[simp] theorem Tile.setBar_ctxs (T : Tile) (i : Nat) (b : Bar) : (T.setBar i b).ctxs = T.ctxs := rfl
@[simp] theorem Tile.setBar_round (T : Tile) (i : Nat) (b : Bar) : (T.setBar i b).round = T.round := rfl
@[simp] theorem Tile.setBar_last (T : Tile) (i : Nat) (b : Bar) : (T.setBar i b).last = T.last := rfl
@[simp] theorem Tile.setBar_rounds (T : Tile) (i : Nat) (b : Bar) : (T.setBar i b).rounds = T.rounds := rfl
@[simp] theorem Tile.setBar_drain (T : Tile) (i : Nat) (b : Bar) : (T.setBar i b).drain = T.drain := rfl
@[simp] theorem Tile.setBar_arrivals (T : Tile) (i : Nat) (b : Bar) : (T.setBar i b).arrivals = T.arrivals := rfl
@[simp] theorem Tile.setBar_seam (T : Tile) (i : Nat) (b : Bar) : (T.setBar i b).seam = T.seam := rfl
@[simp] theorem Tile.setBar_ports (T : Tile) (i : Nat) (b : Bar) : (T.setBar i b).ports = T.ports := rfl
@[simp] theorem Tile.setBar_tlb (T : Tile) (i : Nat) (b : Bar) : (T.setBar i b).tlb = T.tlb := rfl
@[simp] theorem Tile.setBar_robin (T : Tile) (i : Nat) (b : Bar) : (T.setBar i b).robin = T.robin := rfl

theorem Tile.setCtx_ctx (T : Tile) (c : Nat) (x : Ctx) (u : Nat) :
    (T.setCtx c x).ctx u = if u = c then x else T.ctx u := Tbl.get_put _ _ _ _ _

theorem Tile.modCtx_ctx (T : Tile) (c : Nat) (f : Ctx → Ctx) (u : Nat) :
    (T.modCtx c f).ctx u = if u = c then f (T.ctx c) else T.ctx u := Tbl.get_put _ _ _ _ _

theorem Tile.setPort_port (T : Tile) (p : Nat) (x : Port) (u : Nat) :
    (T.setPort p x).port u = if u = p then x else T.port u := Tbl.get_put _ _ _ _ _

theorem Tile.modPort_port (T : Tile) (p : Nat) (f : Port → Port) (u : Nat) :
    (T.modPort p f).port u = if u = p then f (T.port p) else T.port u := Tbl.get_put _ _ _ _ _

theorem Tile.setBar_bar (T : Tile) (i : Nat) (b : Bar) (u : Nat) : (T.setBar i b).bar u = if u = i then b else T.bar u :=
  Tbl.get_put _ _ _ _ _

/-! ### The sequencer's registers -/

/-- x0 reads zero (R134). -/
@[simp] theorem Seq.get_zero (q : Seq) : q.get 0 = 0 := by simp [Seq.get]

/-- A write to x0 writes nothing (R141). -/
@[simp] theorem Seq.set_zero (q : Seq) (v : Word) : q.set 0 v = q := by simp [Seq.set]

/-- write(d, v) gives the written register its value and leaves every other (R141); x0 stays zero. -/
theorem Seq.get_set (q : Seq) (d r : Reg) (v : Word) : (q.set d v).get r = if r = d ∧ d ≠ 0 then v else q.get r := by
  unfold Seq.get Seq.set
  by_cases h0 : d = 0#5
  · simp [h0]
  · by_cases hr : r = 0#5
    · have hd : ¬0#5 = d := fun h => h0 h.symm
      simp [hr, hd]
    · have e : (r.toNat = d.toNat) ↔ r = d := ⟨fun h => BitVec.eq_of_toNat_eq h, fun h => by rw [h]⟩
      simp [h0, hr, Tbl.get_put, e]

@[simp] theorem Seq.set_phase (q : Seq) (d : Reg) (v : Word) : (q.set d v).phase = q.phase := by
  unfold Seq.set; split <;> rfl
@[simp] theorem Seq.set_pc (q : Seq) (d : Reg) (v : Word) : (q.set d v).pc = q.pc := by
  unfold Seq.set; split <;> rfl
@[simp] theorem Seq.set_lk (q : Seq) (d : Reg) (v : Word) : (q.set d v).lk = q.lk := by
  unfold Seq.set; split <;> rfl
@[simp] theorem Seq.set_mode (q : Seq) (d : Reg) (v : Word) : (q.set d v).mode = q.mode := by
  unfold Seq.set; split <;> rfl
@[simp] theorem Seq.set_ctxsel (q : Seq) (d : Reg) (v : Word) : (q.set d v).ctxsel = q.ctxsel := by
  unfold Seq.set; split <;> rfl
@[simp] theorem Seq.set_tvec (q : Seq) (d : Reg) (v : Word) : (q.set d v).tvec = q.tvec := by
  unfold Seq.set; split <;> rfl
@[simp] theorem Seq.set_tepc (q : Seq) (d : Reg) (v : Word) : (q.set d v).tepc = q.tepc := by
  unfold Seq.set; split <;> rfl
@[simp] theorem Seq.set_tcause (q : Seq) (d : Reg) (v : Word) : (q.set d v).tcause = q.tcause := by
  unfold Seq.set; split <;> rfl
@[simp] theorem Seq.set_tval (q : Seq) (d : Reg) (v : Word) : (q.set d v).tval = q.tval := by
  unfold Seq.set; split <;> rfl
@[simp] theorem Seq.set_tscratch (q : Seq) (d : Reg) (v : Word) : (q.set d v).tscratch = q.tscratch := by
  unfold Seq.set; split <;> rfl
@[simp] theorem Seq.set_no (q : Seq) (d : Reg) (v : Word) : (q.set d v).no = q.no := by
  unfold Seq.set; split <;> rfl
@[simp] theorem Seq.set_loads (q : Seq) (d : Reg) (v : Word) : (q.set d v).loads = q.loads := by
  unfold Seq.set; split <;> rfl
@[simp] theorem Seq.set_queue (q : Seq) (d : Reg) (v : Word) : (q.set d v).queue = q.queue := by
  unfold Seq.set; split <;> rfl
@[simp] theorem Seq.set_fences (q : Seq) (d : Reg) (v : Word) : (q.set d v).fences = q.fences := by
  unfold Seq.set; split <;> rfl
@[simp] theorem Seq.set_task (q : Seq) (d : Reg) (v : Word) : (q.set d v).task = q.task := by
  unfold Seq.set; split <;> rfl

end Sys2Proof.Machine
end

