-- ==== Sys2Proof/Laws/Meanings.lean ====
section
/-! SUPPORT. What a meaning can answer: every meaning is an act performed. -/

namespace Sys2Proof.Machine

/-! ### Acts -/

@[simp] theorem perform_go (s t : State) (ws : List (Nat × Byte)) :
    perform s (.go t ws) = .next { t with mem := s.mem.writes ws } := rfl

@[simp] theorem perform_idle (s : State) : perform s (idle s) = .next s := rfl

@[simp] theorem perform_stop (s : State) (f : Fault) : perform s (.stop f) = .fault f := rfl

@[simp] theorem when_true (s : State) (a : Act) : when true s a = a := rfl

@[simp] theorem when_false (s : State) (a : Act) : when false s a = idle s := rfl

@[simp] theorem within_true (a : Act) : within true a = a := rfl

@[simp] theorem within_false (a : Act) : within false a = .stop .noSuchUnit := rfl

/-- An act performed never refuses. -/
theorem perform_not_refused (s : State) (a : Act) (r : Refusal) : perform s a ≠ .refused r := by
  cases a <;> exact fun h => nomatch h

/-- What an act leaves of memory when it answers a next state: the listed bytes written, and after a wipe the bytes outside the
package alone. -/
theorem perform_next {s t : State} {a : Act} (h : perform s a = .next t) :
    (∃ u ws, a = .go u ws ∧ t = { u with mem := s.mem.writes ws }) ∨
    (∃ u ws, a = .wipe u ws ∧ t = { u with mem := (s.mem.writes ws).keep (fun k => !keyInside k) }) := by
  cases a with
  | go u ws => exact .inl ⟨u, ws, rfl, by simpa [perform] using h.symm⟩
  | wipe u ws => exact .inr ⟨u, ws, rfl, by simpa [perform] using h.symm⟩
  | stop f => exact nomatch h

/-- An act performed keeps memory canonical. -/
theorem perform_wf {s t : State} {a : Act} (hm : s.mem.wf = true) (h : perform s a = .next t) : t.mem.wf = true := by
  obtain ⟨u, ws, -, rfl⟩ | ⟨u, ws, -, rfl⟩ := perform_next h
  · exact Memory.writes_wf hm ws
  · exact Memory.keep_wf (Memory.writes_wf hm ws) (fun k => !keyInside k)

/-! ### Every meaning is an act -/

theorem seqOp_perform (s : State) (rs : List Reg) (a : Act) : ∃ b, seqOp s rs a = perform s b := ⟨_, rfl⟩

theorem execMfs_perform (d : Reg) (sys : BitVec 12) (s : State) : ∃ a, execMfs d sys s = perform s a := by
  unfold execMfs
  dsimp only
  split
  · exact ⟨_, rfl⟩
  · split <;> exact ⟨_, rfl⟩

theorem execMts_perform (a : Reg) (sys : BitVec 12) (s : State) : ∃ x, execMts a sys s = perform s x := by
  unfold execMts
  dsimp only
  split
  · exact ⟨_, rfl⟩
  · split <;> exact ⟨_, rfl⟩

theorem execRedEst_perform (cluster tile : Nat) (s : State) : ∃ a, execRedEst cluster tile s = perform s a := by
  unfold execRedEst
  split
  · exact ⟨.go _ [], rfl⟩
  · exact ⟨_, rfl⟩

/-- The meaning of every step is an act performed at its state. -/
theorem exec_perform (i : Instr) (s : State) : ∃ a, exec i s = perform s a := by
  cases i
  case mfs d sys => exact execMfs_perform d sys s
  case mts a sys => exact execMts_perform a sys s
  case redEst k j => exact execRedEst_perform k j s
  case packageReset => exact ⟨wipe s s.pkg.life, rfl⟩
  case orderlyShutdown => exact ⟨.go _ [], rfl⟩
  case tmsel => exact ⟨.go _ [], rfl⟩
  case thermalShutdown => exact ⟨.go _ [], rfl⟩
  case powerFailure => exact ⟨.go _ [], rfl⟩
  all_goals exact ⟨_, rfl⟩

end Sys2Proof.Machine
end

