-- ==== Sys2Proof/Laws/Fabric.lean ====
section
/-! SUPPORT. The shared sends of a fabric slot (R188, R196): what each does where no output can raise a fault of its own. -/

namespace Sys2Proof.Machine

/-- Where the outputs of a slot go is not changed by a token that it sends (R188). -/
theorem Fab.inject_dest (e : Fab) (out index pos : Nat) (page : Option Nat) (tok : Tok) (o : Nat) :
    (e.inject out index pos page tok).dest o = e.dest o := rfl

theorem toSlots_inject {e : Fab} (h : ToSlots e) (out index pos : Nat) (page : Option Nat) (tok : Tok) :
    ToSlots (e.inject out index pos page tok) := fun o ho => by simpa only [Fab.inject_dest] using h o ho

/-- A token that no port takes translates nothing. -/
@[simp] theorem Fab.translate_nil (e : Fab) (tok : Tok) : e.translate [] tok = e := rfl

/-- A send on an output to a slot, or to nothing, is made (R188). -/
theorem Fab.send_toSlots {e : Fab} (h : ToSlots e) {out : Nat} (ho : out < 2) (tok : Tok) :
    ∃ e1, e.send out tok = .ok e1 ∧ ToSlots e1 := by
  obtain hd | ⟨i, pos, hd⟩ | ⟨p, i, pos, hd⟩ := h out ho
  · exact ⟨e, by simp [Fab.send, Fab.portFaults, hd, Fab.put], h⟩
  · exact ⟨e.inject out i pos none tok, by simp [Fab.send, Fab.portFaults, hd, Fab.put], toSlots_inject h _ _ _ _ _⟩
  · exact ⟨e.inject out i pos (some p) { tok with deps := [] }, by simp [Fab.send, Fab.portFaults, hd, Fab.put], toSlots_inject h _ _ _ _ _⟩

/-- One token goes out on both outputs (R188). -/
theorem Fab.emit_toSlots {e : Fab} (h : ToSlots e) (tok : Tok) : ∃ e1, e.emit tok = .ok e1 ∧ ToSlots e1 := by
  obtain ⟨e1, h1, t1⟩ := e.send_toSlots h (out := 0) (by decide) tok
  obtain ⟨e2, h2, t2⟩ := e1.send_toSlots t1 (out := 1) (by decide) tok
  exact ⟨e2, by simp [Fab.emit, h1, h2, Fate.both], t2⟩

/-- A stop of level k goes out on both outputs (R196). -/
theorem Fab.emitStop_toSlots {e : Fab} (h : ToSlots e) (k : Nat) (deps : List Nat) : ∃ e1, e.emitStop k deps = .ok e1 ∧ ToSlots e1 := by
  obtain ⟨e1, h1, t1⟩ := e.send_toSlots h (out := 0) (by decide) (e.stopFor 0 k deps)
  obtain ⟨e2, h2, t2⟩ := e1.send_toSlots t1 (out := 1) (by decide) (e1.stopFor 1 k deps)
  exact ⟨e2, by simp [Fab.emitStop, h1, h2, Fate.both], t2⟩

/-- A null goes out on both outputs (R196). -/
theorem Fab.emitNull_toSlots {e : Fab} (h : ToSlots e) (deps : List Nat) : ∃ e1, e.emitNull deps = .ok e1 ∧ ToSlots e1 := by
  obtain ⟨e1, h1, t1⟩ := e.send_toSlots h (out := 0) (by decide) (e.nullFor 0 deps)
  obtain ⟨e2, h2, t2⟩ := e1.send_toSlots t1 (out := 1) (by decide) (e1.nullFor 1 deps)
  exact ⟨e2, by simp [Fab.emitNull, h1, h2, Fate.both], t2⟩

end Sys2Proof.Machine
end

