-- ==== Sys2Proof/Laws/Sequencer.lean ====
section
/-! SUPPORT. The shared operations of the sequencer (R141, R154, R160, R183, R184): one lemma for everything each can do. -/

namespace Sys2Proof.Machine

/-- With no register of its own awaited, a sequencer instruction does its body. -/
theorem seqOp_free {s : State} {rs : List Reg} (h : (s.tile s.focus.tile).seq.busy rs = false) (a : Act) :
    seqOp s rs a = perform s a := by
  simp [seqOp, h, when]

/-- While a load to one of its registers has not returned, it leaves the machine as it is (R160). -/
theorem seqOp_busy {s : State} {rs : List Reg} (h : (s.tile s.focus.tile).seq.busy rs = true) (a : Act) :
    seqOp s rs a = .next s := by
  simp [seqOp, h, when, idle]

/-- A sequencer instruction waits, or does its body. -/
theorem seqOp_next {s t : State} {rs : List Reg} {a : Act} (h : seqOp s rs a = .next t) :
    t = s ∨ (s.tile s.focus.tile).seq.busy rs = false ∧ perform s a = .next t := by
  cases hb : (s.tile s.focus.tile).seq.busy rs with
  | true => rw [seqOp_busy hb] at h; exact .inl (by simpa using h.symm)
  | false => rw [seqOp_free hb] at h; exact .inr ⟨rfl, h⟩

/-- A state performed with no byte to write, its memory that of s, is the next state. -/
theorem perform_go_nil {s t : State} (h : t.mem = s.mem) : perform s (.go t []) = .next t := by
  cases t
  simp_all

/-! ### The end of an instruction (R141, R154) -/

theorem advance_inner {s : State} {t : Nat} (h : (s.tile t).seq.pc ≠ 0x3FFF) :
    advance s t = s.modSeq t (fun q => { q with pc := q.pc + 1 }) := by
  unfold advance
  rw [if_neg h]

theorem advance_last {s : State} {t : Nat} (h : (s.tile t).seq.pc = 0x3FFF) : advance s t = takeTrap s t 3 0x10000 (s.xaAt t 0xFFFC) true := by
  unfold advance
  rw [if_pos h]

/-! ### Traps (R183) -/

/-- What a trap leaves, in the three cases of R183. -/
theorem takeTrap_cases (s : State) (t cause : Nat) (tval xa : Word) (completed : Bool) :
    ((s.tile t).seq.mode = true ∧ takeTrap s t cause tval xa completed =
      (s.modSeq t (fun q => { q with tepc := q.pc, tcause := trapCause q.mode completed cause, tval := tval, phase := .stopped })).record
        (s.tileRec t true 1 0x41 tval [(s.tile t).seq.pcWord, (trapCause true completed cause).zeroExtend 64, (s.tile t).seq.lk, xa])) ∨
    ((s.tile t).seq.mode = false ∧ (s.tile t).seq.tvec = 0 ∧ takeTrap s t cause tval xa completed =
      (s.modSeq t (fun q => { q with tepc := q.pc, tcause := trapCause q.mode completed cause, tval := tval, phase := .stopped })).record
        (s.tileRec t (causeAmber cause) 1 cause tval
          [(s.tile t).seq.pcWord, (trapCause false completed cause).zeroExtend 64, (s.tile t).seq.lk, xa])) ∨
    ((s.tile t).seq.mode = false ∧ (s.tile t).seq.tvec ≠ 0 ∧ takeTrap s t cause tval xa completed =
      s.modSeq t (fun q => { q with tepc := q.pc, tcause := trapCause q.mode completed cause, tval := tval, mode := true, pc := q.tvec })) := by
  cases hm : (s.tile t).seq.mode with
  | true => exact .inl ⟨rfl, by simp [takeTrap, hm, State.modSeq, State.modTile]⟩
  | false =>
    by_cases hv : (s.tile t).seq.tvec = 0
    · exact .inr (.inl ⟨rfl, hv, by simp [takeTrap, hm, hv, State.modSeq, State.modTile]⟩)
    · refine .inr (.inr ⟨rfl, hv, ?_⟩)
      have hv' : ¬(s.tile t).seq.tvec = 0#14 := hv
      simp [takeTrap, hm, hv', State.modSeq, State.modTile]

@[simp] theorem takeTrap_mem (s : State) (t c : Nat) (v x : Word) (b : Bool) : (takeTrap s t c v x b).mem = s.mem := by
  unfold takeTrap
  dsimp only
  repeat' split
  all_goals rfl

@[simp] theorem takeTrap_focus (s : State) (t c : Nat) (v x : Word) (b : Bool) : (takeTrap s t c v x b).focus = s.focus := by
  unfold takeTrap
  dsimp only
  repeat' split
  all_goals rfl

@[simp] theorem advance_mem (s : State) (t : Nat) : (advance s t).mem = s.mem := by
  unfold advance
  split
  · exact takeTrap_mem _ _ _ _ _ _
  · rfl

@[simp] theorem next_mem (s : State) : (next s).mem = s.mem := advance_mem _ _

@[simp] theorem writeNext_mem (s : State) (d : Reg) (v : Word) : (writeNext s d v).mem = s.mem := advance_mem _ _

@[simp] theorem transfer_mem (s : State) (t : Nat) (g x : Word) (f : Seq → Seq) : (transfer s t g x f).mem = s.mem := by
  unfold transfer
  split
  · exact takeTrap_mem _ _ _ _ _ _
  · rfl

@[simp] theorem trapReturn_mem (s : State) (t : Nat) : (trapReturn s t).mem = s.mem := transfer_mem _ _ _ _ _

/-! ### Results (R141) -/

/-- A register result writes d and moves on; at the last word of private memory it ends in the fetch trap (R154). -/
theorem resultOp_free {s : State} {d : Reg} {rs : List Reg} (h : (s.tile s.focus.tile).seq.busy (d :: rs) = false) (v : Word) :
    resultOp s d rs v = .next (next (s.modSeq s.focus.tile (fun q => q.set d v))) := by
  rw [resultOp, seqOp_free h, perform_go_nil (writeNext_mem s d v)]
  rfl

/-- An ALU instruction on two registers. -/
theorem aluOp_free {s : State} {d a b : Reg} (h : (s.tile s.focus.tile).seq.busy [d, a, b] = false) (f : Word → Word → Word) :
    aluOp s d a b f = .next (next (s.modSeq s.focus.tile (fun q => q.set d (f (s.x a) (s.x b))))) := resultOp_free h _

/-- An ALU instruction on one register, or on one and an immediate. -/
theorem aluOp1_free {s : State} {d a : Reg} (h : (s.tile s.focus.tile).seq.busy [d, a] = false) (f : Word → Word) :
    aluOp1 s d a f = .next (next (s.modSeq s.focus.tile (fun q => q.set d (f (s.x a))))) := resultOp_free h _

/-- Away from the last word the two changes are one. -/
theorem writeNext_inner {s : State} (d : Reg) (v : Word) (h : (s.tile s.focus.tile).seq.pc ≠ 0x3FFF) :
    writeNext s d v = s.modSeq s.focus.tile (fun q => { q.set d v with pc := q.pc + 1 }) := by
  unfold writeNext
  rw [advance_inner (by simpa using h)]
  simp [State.modSeq, State.modTile, State.setTile, State.tile]

/-- A transfer of control checks its target, then goes there or traps (R154, R155). -/
theorem transfer_ok {s : State} {t : Nat} {g : Word} (h : checkTarget g = none) (xa : Word) (f : Seq → Seq) :
    transfer s t g xa f = s.modSeq t (fun q => { f q with pc := BitVec.ofNat 14 (g.toNat / 4) }) := by
  simp [transfer, h]

theorem transfer_trap {s : State} {t : Nat} {g : Word} {c : Nat} (h : checkTarget g = some c) (xa : Word) (f : Seq → Seq) :
    transfer s t g xa f = takeTrap s t c g xa := by
  simp [transfer, h]

end Sys2Proof.Machine
end

