-- ==== Sys2Proof/Laws/Turns.lean ====
section
/-! SUPPORT. What passes between two turns, and which turn comes next (R4, R31). -/

namespace Sys2Proof.Machine

/-! ### Cycles that pass -/

/-- A cycle that passes on a tile leaves its sequencer as it is. -/
@[simp] theorem tickTile_seq (s : State) (n t : Nat) (T : Tile) : (tickTile s n t T).seq = T.seq := by
  unfold tickTile
  split
  · rfl
  · split <;> rfl

/-- Passing cycles leave every sequencer as it is (R4). -/
@[simp] theorem tick_seq (s : State) (n t : Nat) : ((tick s n).tile t).seq = (s.tile t).seq := by
  unfold tick
  split
  · rfl
  · show (Tbl.get Tile.reset (s.tiles.map (fun p => (p.1, tickTile s n p.1 p.2))) t).seq = (Tbl.get Tile.reset s.tiles t).seq
    rw [Tbl.get_eq_find, Tbl.get_eq_find, Tbl.find_mapAll]
    cases Tbl.find s.tiles t <;> simp

@[simp] theorem tick_now (s : State) (n : Nat) : (tick s n).now = s.now + n := by
  unfold tick
  split <;> simp_all

@[simp] theorem tick_mem (s : State) (n : Nat) : (tick s n).mem = s.mem := by
  unfold tick
  split <;> rfl

@[simp] theorem tick_focus (s : State) (n : Nat) : (tick s n).focus = s.focus := by
  unfold tick
  split <;> rfl

@[simp] theorem tick_launches (s : State) (n : Nat) : (tick s n).launches = s.launches := by
  unfold tick
  split <;> rfl

@[simp] theorem tick_agenda (s : State) (n : Nat) : (tick s n).agenda = s.agenda := by
  unfold tick
  split <;> rfl

/-- Some cycles that pass begin the orders of a cycle anew (R170). -/
theorem tick_marks (s : State) {n : Nat} (h : n ≠ 0) : (tick s n).marks = [] := by
  unfold tick
  rw [if_neg h]

/-! ### What the end of a cycle leaves -/

/-- Of what cycles leave as it is: memory, the focus, the agenda, the time, every sequencer. -/
structure Quiet (s t : State) : Prop where
  mem : t.mem = s.mem
  focus : t.focus = s.focus
  agenda : t.agenda = s.agenda
  now : t.now = s.now
  seq : ∀ u, (t.tile u).seq = (s.tile u).seq

theorem Quiet.refl (s : State) : Quiet s s := ⟨rfl, rfl, rfl, rfl, fun _ => rfl⟩

theorem Quiet.trans {a b c : State} (h : Quiet a b) (g : Quiet b c) : Quiet a c :=
  ⟨g.mem.trans h.mem, g.focus.trans h.focus, g.agenda.trans h.agenda, g.now.trans h.now, fun u => (g.seq u).trans (h.seq u)⟩

/-- Steps that are quiet one by one are quiet together. -/
theorem Quiet.foldl {α : Type} (f : State → α → State) (h : ∀ s x, Quiet s (f s x)) (l : List α) : ∀ s, Quiet s (l.foldl f s) := by
  induction l with
  | nil => exact Quiet.refl
  | cons x r ih => exact fun s => (h s x).trans (ih (f s x))

/-- A change of a tile that leaves its sequencer is quiet. -/
theorem Quiet.modTile (s : State) (t : Nat) (f : Tile → Tile) (h : (f (s.tile t)).seq = (s.tile t).seq) : Quiet s (s.modTile t f) := by
  refine ⟨rfl, rfl, rfl, rfl, fun u => ?_⟩
  rw [State.modTile_tile]
  split
  · next hu => rw [h, hu]
  · rfl

theorem Quiet.modLaunch (s : State) (l : Nat) (f : Launch → Launch) : Quiet s (s.modLaunch l f) := by
  constructor <;> simp

theorem Quiet.modCluster (s : State) (k : Nat) (f : Cluster → Cluster) : Quiet s (s.modCluster k f) := ⟨rfl, rfl, rfl, rfl, fun _ => rfl⟩

theorem Quiet.modExt (s : State) (i : Nat) (f : ExtPort → ExtPort) : Quiet s (s.modExt i f) := ⟨rfl, rfl, rfl, rfl, fun _ => rfl⟩

theorem Tile.arrive_seq (T : Tile) (now b n : Nat) (bytes : Bool) : (T.arrive now b n bytes).seq = T.seq := by
  unfold Tile.arrive
  dsimp only
  split <;> rfl

theorem Tile.countNow_seq (T : Tile) (now : Nat) : (T.countNow now).seq = T.seq := by
  have all (l : List (Nat × Nat × Nat)) : ∀ T : Tile, (l.foldl (fun T c => T.arrive now c.2.1 c.2.2 true) T).seq = T.seq := by
    induction l with
    | nil => exact fun _ => rfl
    | cons c r ih => exact fun T => (ih _).trans (Tile.arrive_seq T now _ _ true)
  exact all _ _

theorem Tile.arriveAll_seq (T : Tile) (now : Nat) (xs : List Nat) : (T.arriveAll now xs).seq = T.seq := by
  have all (l : List Nat) : ∀ T : Tile, (l.foldl (fun T i => T.arrive now i (xs.filter (· = i)).length false) T).seq = T.seq := by
    induction l with
    | nil => exact fun _ => rfl
    | cons x r ih => exact fun T => (ih _).trans (Tile.arrive_seq T now _ _ _)
  exact all _ T

theorem Quiet.settleTile (s : State) (t : Nat) : Quiet s (settleTile s t) := by
  unfold Sys2Proof.Machine.settleTile
  dsimp only
  split
  · exact Quiet.refl s
  · exact Quiet.modTile s t (fun _ => Tile.arriveAll _ _ _) (Tile.arriveAll_seq _ _ _)

theorem Quiet.settleTiles (s : State) : Quiet s (settleTiles s) :=
  Quiet.foldl (fun (s : State) (p : Nat × Tile) => Sys2Proof.Machine.settleTile s p.1) (fun s p => Quiet.settleTile s p.1) _ s

theorem Quiet.countTiles (s : State) : Quiet s (countTiles s) :=
  Quiet.foldl (fun (s : State) (p : Nat × Tile) => s.modTile p.1 (fun T => T.countNow s.now))
    (fun s p => Quiet.modTile s p.1 _ (Tile.countNow_seq _ _)) _ s

theorem Quiet.feedTokens (s : State) (m : Member) (ts : List Tok) : Quiet s (feedTokens s m ts) := Quiet.modTile s _ _ rfl

theorem Quiet.serveClaim (s : State) (l pos : Nat) : Quiet s (serveClaim s l pos) := by
  unfold Sys2Proof.Machine.serveClaim
  split
  · exact Quiet.refl s
  · dsimp only
    split
    · exact Quiet.refl s
    · split
      · exact Quiet.modLaunch s l _
      · exact (Quiet.feedTokens s _ _).trans (Quiet.modLaunch _ l _)

theorem Quiet.endLoan (s : State) (m : Member) : Quiet s (endLoan s m) := Quiet.modTile s _ _ rfl

theorem Quiet.endLoans (s : State) (l : Nat) : Quiet s (endLoans s l) := by
  unfold Sys2Proof.Machine.endLoans
  split
  · exact Quiet.refl s
  · split
    · exact Quiet.refl s
    · dsimp only
      split
      · exact Quiet.refl s
      · exact (Quiet.modLaunch s l _).trans (Quiet.foldl (fun s (p : Nat × Member) => Sys2Proof.Machine.endLoan s p.2) (fun s p => Quiet.endLoan s p.2) _ _)

theorem Quiet.sessionCycle (s : State) (l : Nat) : Quiet s (sessionCycle s l) :=
  Quiet.trans (Quiet.foldl (fun s pos => Sys2Proof.Machine.serveClaim (Sys2Proof.Machine.serveClaim s l pos) l pos)
    (fun s pos => (Quiet.serveClaim s l pos).trans (Quiet.serveClaim _ l pos)) _ s) (Quiet.endLoans _ l)

theorem Quiet.cycleSessions (s : State) : Quiet s (cycleSessions s) :=
  Quiet.foldl (fun (s : State) (p : Nat × Launch) => Sys2Proof.Machine.sessionCycle s p.1) (fun s p => Quiet.sessionCycle s p.1) _ s

theorem Quiet.leave (s : State) (e : Nat) (m : Message) : Quiet s (s.leave e m) := by
  unfold State.leave
  dsimp only
  split <;> exact ⟨rfl, rfl, rfl, rfl, fun _ => rfl⟩

theorem Quiet.release (s : State) (port : Nat) : Quiet s (release s port) :=
  (Quiet.modExt s port _).trans (Quiet.foldl (fun (s : State) (m : Message) => s.leave m.endpoint m) (fun s m => Quiet.leave s m.endpoint m) _ _)

theorem Quiet.resumeKey (s : State) (port : Nat) (receive : Bool) : Quiet s (resumeKey s port receive) := by
  unfold Sys2Proof.Machine.resumeKey takeKey
  dsimp only
  split
  · split
    · exact Quiet.modExt s port _
    · exact (Quiet.modExt s port _).trans (Quiet.release _ port)
  · exact Quiet.refl s

theorem Quiet.resumePorts (s : State) : Quiet s (resumePorts s) :=
  Quiet.foldl (fun s i => Sys2Proof.Machine.resumeKey (Sys2Proof.Machine.resumeKey s i false) i true)
    (fun s i => (Quiet.resumeKey s i false).trans (Quiet.resumeKey _ i true)) _ s

/-- The end of a cycle changes neither memory nor a sequencer. -/
theorem Quiet.endCycle (s : State) : Quiet s (endCycle s) :=
  ((((Quiet.settleTiles s).trans (Quiet.countTiles _)).trans (Quiet.cycleSessions _)).trans (Quiet.resumePorts _)).trans
    (Quiet.foldl wakeRouter (fun s k => Quiet.modCluster s k _) _ _)

/-- What cycles that pass leave as it is. -/
theorem pass_quiet (s : State) (n : Nat) : (pass s n).mem = s.mem ∧ (pass s n).focus = s.focus ∧ (pass s n).agenda = s.agenda ∧
    (pass s n).now = s.now + n ∧ ∀ t, ((pass s n).tile t).seq = (s.tile t).seq := by
  have h := Quiet.endCycle s
  match n with
  | 0 => exact ⟨rfl, rfl, rfl, rfl, fun _ => rfl⟩
  | 1 => simp [pass, h.mem, h.focus, h.agenda, h.now, h.seq]
  | n + 2 =>
    have g := Quiet.endCycle (tick (endCycle s) 1)
    exact ⟨by simp [pass, g.mem, h.mem], by simp [pass, g.focus, h.focus], by simp [pass, g.agenda, h.agenda],
      by simp only [pass, tick_now, g.now, h.now]; omega, fun t => by simp [pass, g.seq, h.seq]⟩

@[simp] theorem pass_mem (s : State) (n : Nat) : (pass s n).mem = s.mem := (pass_quiet s n).1
@[simp] theorem pass_focus (s : State) (n : Nat) : (pass s n).focus = s.focus := (pass_quiet s n).2.1
@[simp] theorem pass_agenda (s : State) (n : Nat) : (pass s n).agenda = s.agenda := (pass_quiet s n).2.2.1
@[simp] theorem pass_now (s : State) (n : Nat) : (pass s n).now = s.now + n := (pass_quiet s n).2.2.2.1
@[simp] theorem pass_seq (s : State) (n t : Nat) : ((pass s n).tile t).seq = (s.tile t).seq := (pass_quiet s n).2.2.2.2 t

/-- Some cycles that pass begin the orders of a cycle anew (R170). -/
theorem pass_marks (s : State) {n : Nat} (h : n ≠ 0) : (pass s n).marks = [] := by
  match n with
  | 0 => exact absurd rfl h
  | 1 => exact tick_marks _ (by decide)
  | n + 2 => exact tick_marks _ (by omega)

/-! ### Launches, which a cycle changes only by their sessions -/

/-- No launch has a session. -/
def NoSessions (s : State) : Prop := ∀ p ∈ s.launches, p.2.session = none

theorem countTiles_launches (s : State) : (countTiles s).launches = s.launches := by
  have all (l : List (Nat × Tile)) : ∀ s : State, (l.foldl (fun s p => s.modTile p.1 (fun T => T.countNow s.now)) s).launches = s.launches := by
    induction l with
    | nil => exact fun _ => rfl
    | cons p r ih => exact fun s => ih _
  exact all _ s

theorem settleTile_launches (s : State) (t : Nat) : (settleTile s t).launches = s.launches := by
  unfold settleTile
  dsimp only
  split <;> rfl

theorem settleTiles_launches (s : State) : (settleTiles s).launches = s.launches := by
  have all (l : List (Nat × Tile)) : ∀ s : State, (l.foldl (fun s p => settleTile s p.1) s).launches = s.launches := by
    induction l with
    | nil => exact fun _ => rfl
    | cons p r ih => exact fun s => (ih _).trans (settleTile_launches s p.1)
  exact all _ s

theorem cycleSessions_none {s : State} (h : NoSessions s) : cycleSessions s = s := by
  have : s.launches.filter (fun p => p.2.session.isSome) = [] := List.filter_eq_nil_iff.mpr (fun p hp => by simp [h p hp])
  unfold cycleSessions
  rw [this]
  rfl

theorem leave_launches (s : State) (e : Nat) (m : Message) : (s.leave e m).launches = s.launches := by
  unfold State.leave
  dsimp only
  split <;> rfl

theorem release_launches (s : State) (port : Nat) : (release s port).launches = s.launches := by
  have all (l : List Message) : ∀ s : State, (l.foldl (fun s m => s.leave m.endpoint m) s).launches = s.launches := by
    induction l with
    | nil => exact fun _ => rfl
    | cons m r ih => exact fun s => (ih _).trans (leave_launches s _ m)
  exact (all _ _).trans rfl

theorem resumeKey_launches (s : State) (port : Nat) (receive : Bool) : (resumeKey s port receive).launches = s.launches := by
  unfold resumeKey takeKey
  dsimp only
  split
  · split
    · rfl
    · exact (release_launches _ port).trans rfl
  · rfl

theorem resumePorts_launches (s : State) : (resumePorts s).launches = s.launches := by
  have all (l : List Nat) : ∀ s : State, (l.foldl (fun s i => resumeKey (resumeKey s i false) i true) s).launches = s.launches := by
    induction l with
    | nil => exact fun _ => rfl
    | cons i r ih => exact fun s => (ih _).trans ((resumeKey_launches _ i true).trans (resumeKey_launches s i false))
  exact all _ s

theorem wakeAll_launches (l : List Nat) : ∀ s : State, (l.foldl wakeRouter s).launches = s.launches := by
  induction l with
  | nil => exact fun _ => rfl
  | cons k r ih => exact fun s => ih _

/-- The end of a cycle leaves launches as they are where none has a session. -/
theorem endCycle_launches {s : State} (h : NoSessions s) : (endCycle s).launches = s.launches := by
  have hc := (countTiles_launches (settleTiles s)).trans (settleTiles_launches s)
  have h1 : NoSessions (countTiles (settleTiles s)) := fun p hp => h p (hc ▸ hp)
  unfold endCycle
  dsimp only
  rw [wakeAll_launches, resumePorts_launches, cycleSessions_none h1, hc]

theorem pass_launches {s : State} (h : NoSessions s) (n : Nat) : (pass s n).launches = s.launches := by
  have h1 := endCycle_launches h
  match n with
  | 0 => rfl
  | 1 => simp [pass, h1]
  | n + 2 =>
    have h2 : NoSessions (tick (endCycle s) 1) := fun p hp => h p (by simpa [h1] using hp)
    simp [pass, endCycle_launches h2, h1]

/-! ### The turn that comes next -/

/-- Picking a turn of the cycle leaves memory as it is. -/
@[simp] theorem pickTurn_mem (s : State) (u : Turn) (us : List Turn) (rest : List (Nat × Turn)) :
    (pickTurn s u us rest).1.mem = s.mem := by
  simp only [pickTurn]
  split <;> simp

/-- Choosing a turn leaves memory as it is. -/
@[simp] theorem chosenTurn_mem (s : State) : (chosenTurn s).1.mem = s.mem := by
  unfold chosenTurn
  split
  · exact pass_mem s 1
  · dsimp only
    split <;> simp

/-- With an empty agenda one cycle passes and the sequencer in focus has its turn. -/
theorem chosenTurn_empty {s : State} (h : s.agenda = []) : chosenTurn s = (pass s 1, .seq s.focus.tile) := by
  unfold chosenTurn
  rw [h]

/-- A turn alone in a cycle of its own comes after the cycles before it. -/
theorem chosenTurn_alone {s : State} {n : Nat} {u : Turn} {rest : List (Nat × Turn)} (h : s.agenda = (n, u) :: rest)
    (hr : rest.takeWhile (fun x => x.1 = 0) = []) (hm : n ≠ 0 ∨ s.marks = []) : chosenTurn s = (pass { s with agenda := rest } n, u) := by
  have marks : (pass { s with agenda := rest } n).marks = [] := by
    by_cases h0 : n = 0
    · have : s.marks = [] := hm.resolve_left (fun f => f h0)
      simp [pass, h0, this]
    · exact pass_marks _ h0
  simp [chosenTurn, h, hr, marks]

/-- Of what the packets of a turn leave as it is: all but the routers of clusters. -/
structure Woken (s t : State) : Prop where
  mem : t.mem = s.mem
  focus : t.focus = s.focus
  agenda : t.agenda = s.agenda
  marks : t.marks = s.marks
  now : t.now = s.now
  tiles : t.tiles = s.tiles
  dies : t.dies = s.dies
  launches : t.launches = s.launches
  pkg : t.pkg = s.pkg
  outbox : t.outbox = s.outbox

theorem wakeAll_woken (l : List Nat) : ∀ s : State, Woken s (l.foldl wakeRouter s) := by
  induction l with
  | nil => exact fun _ => ⟨rfl, rfl, rfl, rfl, rfl, rfl, rfl, rfl, rfl, rfl⟩
  | cons k r ih =>
    intro s
    have h := ih (wakeRouter s k)
    exact ⟨h.mem, h.focus, h.agenda, h.marks, h.now, h.tiles, h.dies, h.launches, h.pkg, h.outbox⟩

/-- The packets of a turn change the routers on their ways alone (R400). -/
theorem routed_woken (s : State) (u : Turn) : Woken s (routed s u) := by
  have none : Woken s s := ⟨rfl, rfl, rfl, rfl, rfl, rfl, rfl, rfl, rfl, rfl⟩
  unfold routed
  dsimp only
  split
  · exact none
  · split
    · split
      · exact none
      · exact wakeAll_woken _ s
    · exact none

@[simp] theorem routed_mem (s : State) (u : Turn) : (routed s u).mem = s.mem := (routed_woken s u).mem

/-- A turn that sends no packet leaves every router as it is. -/
theorem routed_none {s : State} {u : Turn} (h : turnWays s u = []) : routed s u = s := by
  unfold routed
  rw [h]
  rfl

/-- Taking the next turn off the agenda leaves memory as it is. -/
@[simp] theorem nextTurn_mem (s : State) : (nextTurn s).1.mem = s.mem := by simp [nextTurn]

end Sys2Proof.Machine
end

