-- ==== Sys2Proof/Tests/Slice0.lean ====
section
/-! SUPPORT. Tests of one step each, with results worked out from the manual, and a witness for the hypotheses of every statement. -/

namespace Sys2Proof.Tests

set_option Elab.async false

open Sys2Proof Sys2Proof.Machine

/-! ### Ill-formed instructions: each check refuses one -/

theorem test_wf_amo_op : wellFormed (.amo 1 2 3 0 0 0 10) = false := by decide
theorem test_wf_amo_order : wellFormed (.amos 1 2 3 1 0 0 0) = false := by decide
theorem test_wf_scope : wellFormed (.amoLd 1 2 7 0 0) = false ∧ wellFormed (.amoSt 1 2 7 0 0) = false := by decide
theorem test_wf_fence : wellFormed (.fence 1 0) = false ∧ wellFormed (.fence 7 2) = false := by decide
theorem test_wf_load_kind : wellFormed (.lds 1 2 0 7) = false ∧ wellFormed (.ldp 1 2 0 7) = false := by decide
theorem test_wf_store_kind : wellFormed (.sts 1 2 0 4) = false ∧ wellFormed (.stp 1 2 0 4) = false := by decide
theorem test_wf_readable : wellFormed (.mfs 1 0x004) = false := by decide
theorem test_wf_writable : wellFormed (.mts 1 0x003) = false ∧ wellFormed (.mts 1 0x800) = false := by decide
theorem test_wf_engine : wellFormed (.issue 0 1 2 3 0) = false ∧ wellFormed (.issue 5 1 2 3 0) = false := by decide
theorem test_wf_issue_flags : wellFormed (.issue 1 1 2 3 0b00100) = false := by decide
theorem test_wf_not_instruction : wellFormed (.illegalInstruction 0x08000000) = false := by decide
theorem test_wf_slot : wellFormed (.fabAdd { pm := 0, mod := 8, t0 := 0x105, t1 := 0, imm := 0 }) = false := by decide
theorem test_wf_die : wellFormed (.bootgo) = true ∧ wellFormed (.place 24) = false := by decide
theorem test_wf_cluster : wellFormed (.kstep 960) = false := by decide
theorem test_wf_tile : wellFormed (.roundCommit 3840) = false := by decide
theorem test_wf_chain : wellFormed (.cpBulk 0 ⟨4, 0, .read 0⟩) = false := by decide
theorem test_wf_context : wellFormed (.roundStart 0 8) = false := by decide
theorem test_wf_launch : wellFormed (.retire 16384) = false := by decide
theorem test_wf_position : wellFormed (.claim 0 16) = false := by decide
theorem test_wf_task : wellFormed (.taskDispatch 0 512) = false := by decide
theorem test_wf_stream_port : wellFormed (.portWritePerform 0 4) = false := by decide
theorem test_wf_link : wellFormed (.linkDead 0 4) = false := by decide
theorem test_wf_train : wellFormed (.linkTraining 0 20 true) = false := by decide
theorem test_wf_ext_port : wellFormed (.portDown 20) = false := by decide
theorem test_wf_ualink : wellFormed (.seckey 16 true 0) = false := by decide
theorem test_wf_ether : wellFormed (.ingressRetry 0 4) = false := by decide
theorem test_wf_tag : wellFormed (.reductionStart 0 64) = false := by decide
theorem test_wf_array : wellFormed (.uncorrectableError 0 0 0) = false ∧ wellFormed (.uncorrectableError 0 10 0) = false := by decide
theorem test_wf_scrub : wellFormed (.scrub 0 10 0 .clean) = false := by decide
theorem test_wf_aperture : wellFormed (.apertureErr 256) = false := by decide
theorem test_wf_handle : wellFormed (.spill 0 32768) = false := by decide
theorem test_wf_amo_source : wellFormed (.amoRequest (.outside 0 0 0 0 0 12 false 0 0 0)) = false := by decide
theorem test_wf_enq_source : wellFormed (.enqRequest (.outside 24 0 0 0 0 0 [])) = false := by decide
theorem test_wf_timed : wellFormed (.requestTimeout (.load 3840 0)) = false := by decide

/-! ### Words written out from the encodings (R140, R143, R189, R124), one of each family -/

theorem test_word_alu : decodeSeq (0b000001#6 ++ 0b00100#5 ++ 0b00101#5 ++ 0b01110#5 ++ 0x000#11) = .ok (.add 4 5 14) := by rfl
theorem test_word_misc : decodeSeq (0b000010#6 ++ 0#5 ++ 0#5 ++ 0#5 ++ 0x001#11) = .ok .ret := by rfl
theorem test_word_immediate : decodeSeq (0b001010#6 ++ 0b00001#5 ++ 0b00010#5 ++ 0x8000#16) = .ok (.slti 1 2 0x8000) := by rfl
theorem test_word_branch : decodeSeq (0b010010#6 ++ 0b00011#5 ++ 0b00100#5 ++ 0xFFFF#16) = .ok (.blt 3 4 0xFFFF) := by rfl
theorem test_word_jump : decodeSeq (0b010111#6 ++ 0x2000001#26) = .ok (.jal 0x2000001) := by rfl
theorem test_word_system : decodeSeq (0b011011#6 ++ 0#5 ++ 0b00111#5 ++ 0x0035#16) = .ok (.mts 7 0x035) := by rfl
theorem test_word_load : decodeSeq (0b100011#6 ++ 0b01100#5 ++ 0b11111#5 ++ 0x0010#16) = .ok (.ld64 12 31 16) := by rfl
theorem test_word_store : decodeSeq (0b101001#6 ++ 0b00110#5 ++ 0b00111#5 ++ 0xFFFE#16) = .ok (.st16 6 7 0xFFFE) := by rfl
theorem test_word_scratchpad :
    decodeSeq (0b101100#6 ++ 0b00001#5 ++ 0b00010#5 ++ 0#5 ++ (0b111111#6 ++ 0b0#1 ++ 0b0#1 ++ 0b101#3)) = .ok (.lds 1 2 0x3F 5) := by rfl
theorem test_word_private :
    decodeSeq (0b101100#6 ++ 0#5 ++ 0b00010#5 ++ 0b00011#5 ++ (0b000001#6 ++ 0b1#1 ++ 0b1#1 ++ 0b011#3)) = .ok (.stp 2 3 1 3) := by rfl
theorem test_word_atomic : decodeSeq 0xB6842BE1 = .ok (.amo 20 4 5 3 3 1 1) := by rfl
theorem test_word_fence : decodeSeq 0xB8000380 = .ok (.fence 3 2) := by rfl
theorem test_word_barrier : decodeSeq (0b101111#6 ++ 0b10100#5 ++ 0b10101#5 ++ 0#5 ++ 0x012#11) = .ok (.barArr 20 21) := by rfl
theorem test_word_event : decodeSeq (0b101111#6 ++ 0#5 ++ 0b00001#5 ++ 0#5 ++ 0x023#11) = .ok (.evTake 1) := by rfl
theorem test_word_timeline : decodeSeq (0b101111#6 ++ 0#5 ++ 0b00001#5 ++ 0b00010#5 ++ 0x02A#11) = .ok (.tlWait 1 2) := by rfl
theorem test_word_queue : decodeSeq (0b101111#6 ++ 0b00011#5 ++ 0b00001#5 ++ 0#5 ++ 0x031#11) = .ok (.evqW 3 1) := by rfl
theorem test_word_tags : decodeSeq (0b101111#6 ++ 0#5 ++ 0b00001#5 ++ 0b00010#5 ++ 0x039#11) = .ok (.tset 1 2) := by rfl
theorem test_word_control : decodeSeq (0b101111#6 ++ 0#5 ++ 0b00001#5 ++ 0b00010#5 ++ 0x003#11) = .ok (.cfgs 1 2) := by rfl
theorem test_word_issue :
    decodeSeq (0b110000#6 ++ 0b001#3 ++ 0x01#8 ++ 0b00001#5 ++ 0b00000#5 ++ 0b01110#5) = .ok (.issue 1 1 1 0 0b01110) := by rfl
theorem test_word_port_command : decodeSeq 0xC002D2A0 = .ok (.spRel 20 21) := by rfl
theorem test_word_trap : decodeSeq (0b110001#6 ++ 0#5 ++ 0b01001#5 ++ 0#5 ++ 0x000#11) = .ok (.trap 9) := by rfl
theorem test_word_reserved_field : (match decodeSeq (0b110001#6 ++ 1#5 ++ 0#5 ++ 0#5 ++ 0x002#11) with | .ok _ => false | .error _ => true) = true := by decide
theorem test_word_reserved_major : (match decodeSeq (0b011100#6 ++ 0#26) with | .ok _ => false | .error _ => true) = true := by decide

/-- A slot word from its fields (R189). -/
def slotBits (op : BitVec 8) (pm : BitVec 2) (mod : BitVec 4) (t0 t1 : BitVec 10) (imm : BitVec 30) : BitVec 64 :=
  op ++ pm ++ mod ++ t0 ++ t1 ++ imm

theorem test_slot_move : decodeSlot (slotBits 0x01 1 0 0x105 0 0) = .ok (.fabMov { pm := 1, mod := 0, t0 := 0x105, t1 := 0, imm := 0 }) := by rfl
theorem test_slot_integer : decodeSlot (slotBits 0x12 0 2 0x105 0 0x3FFFFFFF) =
    .ok (.fabAddi { pm := 0, mod := 2, t0 := 0x105, t1 := 0, imm := 0x3FFFFFFF }) := by rfl
theorem test_slot_compare : decodeSlot (slotBits 0x2A 0 9 0x305 0 0) = .ok (.fabClt { pm := 0, mod := 9, t0 := 0x305, t1 := 0, imm := 0 }) := by rfl
theorem test_slot_float : decodeSlot (slotBits 0x30 0 9 0x105 0x206 0x08000000) =
    .ok (.fabFadd { pm := 0, mod := 9, t0 := 0x105, t1 := 0x206, imm := 0x08000000 }) := by rfl
theorem test_slot_vector : decodeSlot (slotBits 0x40 0 3 0x105 0 0) = .ok (.fabVadd { pm := 0, mod := 3, t0 := 0x105, t1 := 0, imm := 0 }) := by rfl
theorem test_slot_convert : decodeSlot (slotBits 0x60 0 9 0x105 0 2) = .ok (.fabCvt { pm := 0, mod := 9, t0 := 0x105, t1 := 0, imm := 2 }) := by rfl
theorem test_slot_stop : decodeSlot (slotBits 0x68 1 0 0x105 0 1) = .ok (.fabStop { pm := 1, mod := 0, t0 := 0x105, t1 := 0, imm := 1 }) := by rfl
theorem test_slot_memory : decodeSlot (slotBits 0x70 0 0 0x105 0x306 0x10) =
    .ok (.fabLd { pm := 0, mod := 0, t0 := 0x105, t1 := 0x306, imm := 0x10 }) := by rfl
theorem test_slot_exit : decodeSlot (slotBits 0x90 0 0 0 0 0x8) = .ok (.fabExit { pm := 0, mod := 0, t0 := 0, t1 := 0, imm := 8 }) := by rfl
theorem test_slot_none : (match decodeSlot (slotBits 0xFF 0 0 0 0 0) with | .ok _ => false | .error _ => true) = true := by decide

theorem test_cfg_write : decodeCfg (0b0#1 ++ 0x3#4 ++ 0x05#6 ++ 0x02#5 ++ 0xBEEF#16) = .ok (.cfgWrite 3 5 2 0xBEEF) := by rfl
theorem test_cfg_header : decodeCfg (0b1#1 ++ 0b001#3 ++ 0x2#4 ++ 0#8 ++ 0x0007#16) = .ok (.cfgPageHeader 2 0 7) := by rfl
theorem test_cfg_complete : decodeCfg (0b1#1 ++ 0b011#3 ++ 0#28) = .ok (.configurationComplete 0) := by rfl
theorem test_cfg_reserved : (match decodeCfg (0b1#1 ++ 0b101#3 ++ 0#28) with | .ok _ => false | .error _ => true) = true := by decide


/-! ### Steps of the sequencer: values of the manual's examples and of its rules at their corners -/

/-- The machine after reset with the sequencer of tile 0 changed. -/
def seqState (f : Seq → Seq) : State := State.reset.modSeq 0 f
/-- With registers set. -/
def regs (xs : List (Reg × Word)) : State := seqState (fun q => xs.foldl (fun q p => q.set p.1 p.2) q)
/-- A property of the next state. -/
def after (i : Instr) (s : State) (p : State → Bool) : Bool := match exec i s with | .next t => p t | _ => false
/-- The value that an instruction gives a register. -/
def gives (i : Instr) (s : State) (d : Reg) (v : Word) : Bool := after i s (fun t => (sq t).get d = v)

-- R146 to R151: wraps, sign changes, the shift amount taken modulo 64, the example of R151.
theorem test_add_wraps : gives (.add 4 4 5) (regs [(4, 0xFFFFFFFFFFFFFFFF), (5, 2)]) 4 1 = true := by decide +kernel
theorem test_sub_order : gives (.sub 4 5 6) (regs [(5, 3), (6, 5)]) 4 0xFFFFFFFFFFFFFFFE = true := by decide +kernel
theorem test_sll_modulo : gives (.sll 4 5 6) (regs [(5, 3), (6, 65)]) 4 6 = true := by decide +kernel
theorem test_sra_sign : gives (.sra 4 5 6) (regs [(5, 0x8000000000000000), (6, 63)]) 4 0xFFFFFFFFFFFFFFFF = true := by decide +kernel
theorem test_slt_signed : gives (.slt 4 5 6) (regs [(5, 0xFFFFFFFFFFFFFFFF), (6, 0)]) 4 1 = true := by decide +kernel
theorem test_sltu_unsigned : gives (.sltu 4 5 6) (regs [(5, 0xFFFFFFFFFFFFFFFF), (6, 0)]) 4 0 = true := by decide +kernel
theorem test_mulh_negative : gives (.mulh 4 5 6) (regs [(5, 0xFFFFFFFFFFFFFFFF), (6, 2)]) 4 0xFFFFFFFFFFFFFFFF = true := by decide +kernel
theorem test_mulhu_large : gives (.mulhu 4 5 6) (regs [(5, 0xFFFFFFFFFFFFFFFF), (6, 2)]) 4 1 = true := by decide +kernel
theorem test_div_7_by_minus_2 : gives (.div 4 5 6) (regs [(5, 7), (6, 0xFFFFFFFFFFFFFFFE)]) 4 0xFFFFFFFFFFFFFFFD = true := by decide +kernel
theorem test_rem_minus_7_by_2 : gives (.rem 4 5 6) (regs [(5, 0xFFFFFFFFFFFFFFF9), (6, 2)]) 4 0xFFFFFFFFFFFFFFFF = true := by decide +kernel
theorem test_div_by_zero : gives (.div 4 5 0) (regs [(5, 0xFFFFFFFFFFFFFFF9)]) 4 0x8000000000000000 = true := by decide +kernel
theorem test_clz_of_zero : gives (.clz 4 0) (regs []) 4 64 = true := by decide +kernel
theorem test_ctz_counts : gives (.ctz 4 5) (regs [(5, 0x10)]) 4 4 = true := by decide +kernel
theorem test_sadd_keeps_handle : gives (.saddi 4 5 16) (regs [(5, 0x8005FFFFFFFFFFF8)]) 4 0x8005000000000008 = true := by decide +kernel
theorem test_andi_zero_extends : gives (.andi 4 5 0xFFFF) (regs [(5, 0xFFFFFFFFFFFFFFFF)]) 4 0xFFFF = true := by decide +kernel
theorem test_addi32_places : gives (.addi32 12 12 0x1234) (regs []) 12 0x0000123400000000 = true := by decide +kernel
theorem test_addi_carry : gives (.addi 12 12 0x9ABC) (regs [(12, 0x0000123456790000)]) 12 0x123456789ABC = true := by decide +kernel
theorem test_x0_drops : after (.addi 0 0 5) (regs []) (fun t => (sq t).get 0 = 0 && (sq t).pc = 1) = true := by decide +kernel

-- R153 to R156: a negative target reads as a large one; lk with a good target; a register of system mode in program mode.
theorem test_branch_back_traps :
    after (.beq 0 0 0xFFFF) (regs []) (fun t => (sq t).phase = .stopped && (sq t).tcause = 3 && (sq t).tval = 0xFFFFFFFFFFFFFFFC) = true := by
  decide +kernel
theorem test_branch_not_taken : after (.bne 0 0 0xFFFF) (regs []) (fun t => (sq t).pc = 1) = true := by decide +kernel
theorem test_jal_links : after (.jal 3) (regs []) (fun t => (sq t).pc = 3 && (sq t).lk = 4) = true := by decide +kernel
theorem test_jalr_misaligned : after (.jalr 5 0) (regs [(5, 2)]) (fun t => (sq t).lk = 0 && (sq t).tcause = 4 && (sq t).pc = 0) = true := by
  decide +kernel
theorem test_mfs_privilege : after (.mfs 4 0x031) (regs []) (fun t => (sq t).tcause = 2 && (sq t).phase = .stopped) = true := by decide +kernel
theorem test_mts_tvec :
    after (.mts 5 0x031) (seqState (fun q => { q.set 5 0x1237 with mode := true })) (fun t => (sq t).tvec = 0x48D) = true := by decide +kernel

-- R183, R184: a handler is entered in system mode; eret goes past a completed instruction.
theorem test_trap_enters_handler :
    after (.trap 5) (seqState (fun q => { q.set 5 7 with tvec := 9 }))
      (fun t => (sq t).mode && (sq t).pc = 9 && (sq t).tval = 7 && (sq t).tcause = 0x40000010 && (sq t).phase = .idle) = true := by
  decide +kernel
theorem test_eret_past :
    after .eret (seqState (fun q => { q with mode := true, tepc := 5, tcause := 0x40000010 })) (fun t => (sq t).pc = 6 && !(sq t).mode) = true := by
  decide +kernel

-- R162: a negative displacement wraps in private memory; the bytes of a store, read back with its sign.
theorem test_stp_wraps :
    after (.stp 0 5 0x3F 1) (regs [(5, 0xABCD)]) (fun t => t.mem.read (privKey 0 0xFFFE) = 0xCD && t.mem.read (privKey 0 0xFFFF) = 0xAB) = true := by
  decide +kernel
theorem test_ldp_extends :
    gives (.ldp 4 0 0 1) { State.reset with mem := [(privKey 0 0, 0xFE), (privKey 0 1, 0xFF)] } 4 0xFFFFFFFFFFFFFFFE = true := by decide +kernel

-- R163: compare-and-swap at 32 bits; the operand-range order of R164.
theorem test_amos_cas :
    after (.amos 4 5 6 0 0 0 9) { regs [(4, 1), (6, 0x55)] with mem := [(spadKey 0 0, 1)] }
      (fun t => t.mem.read (spadKey 0 0) = 0x55 && (sq t).loads.length = 1) = true := by decide +kernel
theorem test_amos_misaligned : after (.amos 4 5 6 0 0 1 0) (regs [(5, 4)]) (fun t => (sq t).tcause = 8 && (sq t).tval = 4) = true := by
  decide +kernel

-- The example of R169: target 2, phase 0, an arrival over.
theorem test_bar_arr_flips :
    after (.barArr 20 21) ((regs [(21, 3)]).modTile 0 (fun T => T.setBar 3 { Bar.reset with count := 2, target := 2 }))
      (fun t => (sq t).get 20 = 0 && (here t).bar 3 = { phase := true, bytes := false, count := 1, target := 2, flipped := some 0 }) = true := by decide +kernel
theorem test_tl_wait_serial :
    after (.tlWait 5 6) (((regs [(5, 2), (6, 0xFFFFFFFFFFFFFFFF)])).modCluster 0 (fun K => { K with tl := K.tl.put 2 1 }))
      (fun t => (sq t).pc = 1) = true := by decide +kernel
theorem test_ev_take_clears :
    after (.evTake 5) ((regs [(5, 255)]).modCluster 0 (fun K => { K with events := K.events.put 255 true }))
      (fun t => (hub t).events.get false 255 = false && (sq t).pc = 1) = true := by decide +kernel
theorem test_ev_limit : after (.evSet 5) (regs [(5, 256)]) (fun t => (sq t).tcause = 0x11 && (sq t).tval = 256) = true := by decide +kernel
theorem test_tset_tlook :
    after (.tlook 4 5) ((regs [(5, 0x1800)]).modCluster 0 (fun K => { K with tags := K.tags.put 7 0x8000000000000003 }))
      (fun t => (sq t).get 4 = 7) = true := by decide +kernel
theorem test_issue_entry :
    after (.issue 1 1 5 0 0) (regs [(5, 64)])
      (fun t => ((hub t).chain 1 0).next = 2 && t.mem.bytes (spadKey 0 (1008 * 0x800)) 8 = [1, 0, 0, 0, 0, 0, 0x20, 1]) = true := by
  decide +kernel

/-! ### Slots of the fabric: one firing each, in the round of context 0 of tile 0 -/

/-- The machine after reset with an instruction in slot 0, a round in hand, and tokens at its positions (1 at .l, 2 at .r, 3 at .p). -/
def slotState (i : Instr) (toks : List (Nat × Tok)) : State :=
  match encode i with
  | .slot w => (placeSlot State.reset w.toNat).modTile 0 (fun T => { T with round := T.round.map (fun r => { r with latch := toks }) })
  | _ => State.reset
/-- A scalar token. -/
def num (v : Nat) : Tok := dataTok .scalar (BitVec.ofNat 512 v) []
/-- The tokens on their way after a firing. -/
def sent (i : Instr) (toks : List (Nat × Tok)) : List (Nat × Nat × Nat × Nat) :=
  match exec i (slotState i toks) with
  | .next t => (match (t.tile 0).round with
    | some r => r.transit.map (fun x => (x.index, x.pos, x.tok.level, x.tok.bits.toNat))
    | none => [])
  | _ => []
/-- A word that sends to .l of slot 5. -/
def to5 (mod : BitVec 4) (imm : BitVec 30) : FabWord := { pm := 0, mod := mod, t0 := 0x105, t1 := 0, imm := imm }

-- R218 with R147: the division corners at 32 and 8 bits, saturation, signs of short types.
theorem test_fab_div_by_zero : sent (.fabDiv (to5 1 0)) [(1, num 7), (2, num 0)] = [(5, 1, 0, 0x7FFFFFFF)] := by decide +kernel
theorem test_fab_rem_corner : sent (.fabRem (to5 3 0)) [(1, num 0x80), (2, num 0xFF)] = [(5, 1, 0, 0xFFFFFFFFFFFFFFFF)] := by decide +kernel
theorem test_fab_abs_least : sent (.fabAbs (to5 3 0)) [(1, num 0x80)] = [(5, 1, 0, 0xFFFFFFFFFFFFFF80)] := by decide +kernel
theorem test_fab_adds_clamps : sent (.fabAdds (to5 7 0)) [(1, num 0xFF), (2, num 0xFF)] = [(5, 1, 0, 0xFF)] := by decide +kernel
theorem test_fab_addi_negative : sent (.fabAddi (to5 0 0x3FFFFFFF)) [(1, num 0)] = [(5, 1, 0, 0xFFFFFFFFFFFFFFFF)] := by decide +kernel
-- R219, R220: 1.0 + 2.0 in f32; -0.0 equals +0.0; a predicate that refuses sends nothing.
theorem test_fab_fadd : sent (.fabFadd (to5 9 0)) [(1, num 0x3F800000), (2, num 0x40000000)] = [(5, 1, 0, 0x40400000)] := by decide +kernel
theorem test_fab_ceq_zeros : sent (.fabCeq (to5 9 0)) [(1, num 0x80000000), (2, num 0)] = [(5, 1, 0, 1)] := by decide +kernel
theorem test_fab_refused : sent (.fabMov { to5 0 0 with pm := 1 }) [(1, num 9), (3, bitTok false [])] = [] := by decide +kernel
-- R216, R217: sel takes .r on 0; a constant of an f32; R223: lanes of bytes wrap apart.
theorem test_fab_sel_right : sent (.fabSel (to5 0 0)) [(1, num 1), (2, num 2), (3, bitTok false [])] = [(5, 1, 0, 2)] := by decide +kernel
theorem test_fab_const_f32 : sent (.fabConst (to5 9 (0x3F800000 / 4))) [] = [(5, 1, 0, 0x3F800000)] := by decide +kernel
theorem test_fab_vadd_lanes : sent (.fabVadd (to5 7 0))
    [(1, dataTok .vector 0x01FF []), (2, dataTok .vector 0x0101 [])] = [(5, 1, 0, 0x0200)] := by decide +kernel
-- R228: data become a stop token of the level; R232: a count starts over at a stop of its level.
theorem test_fab_stop_level : sent (.fabStop (to5 0 2)) [(1, num 9)] = [(5, 1, 2, 0)] := by decide +kernel
theorem test_fab_scount : sent (.fabScount (to5 0 1)) [(1, stopTok .scalar 1 [])] = [(5, 1, 0, 0)] := by decide +kernel
-- R218, R196: operands of unequal stop levels are the structure fault, which voids the round.
theorem test_fab_mismatch : after (.fabAdd (to5 0 0)) (slotState (.fabAdd (to5 0 0)) [(1, num 1), (2, stopTok .scalar 1 [])])
    (fun t => (t.tile 0).round = none && ((t.tile 0).ctx 0).stopped = some (.cause 0x22 [])) = true := by decide +kernel
-- R234: a store is held, memory as before, and its completion bit goes to .r1.
theorem test_fab_sts_holds : after (.fabSts { to5 1 0 with t0 := 0, t1 := 0x305 }) (slotState (.fabSts { to5 1 0 with t0 := 0, t1 := 0x305 }) [(1, num 0x40), (2, num 0x12345678)])
    (fun t => t.mem = [] && (match (t.tile 0).round with
      | some r => (r.stores.map (fun h => (h.addr, h.data))) = [((0x40 : Word), ([0x78, 0x56, 0x34, 0x12] : List Byte))] && r.transit.length = 1
      | none => false)) = true := by decide +kernel

/-! ### Witnesses: a state and operands that meet the hypotheses of each statement, for each of its clauses -/

/-- Tile 0 with a load of x5 on its way. -/
def loading : State := seqState (fun q => { q with loads :=
  [{ no := 0, d := 5, pieces := [{ key := 0, size := 8, home := .near }], got := [], sgn := false, value := none, addr := 0, since := 0, retries := 0 }] })
/-- Tile 0 in system mode. -/
def system : State := seqState (fun q => { q with mode := true })

theorem witness_IntegerResults : Free (regs [(4, 1)]) [4, 4, 5] ∧ Free State.reset [0, 0, 0] ∧ Free State.reset [31, 30] := by unfold Free; decide +kernel
theorem witness_DivisionResults :
    Free (regs [(5, 0x8000000000000000), (6, 0xFFFFFFFFFFFFFFFF)]) [4, 5, 6] ∧ ((regs [(5, 0x8000000000000000)]).x 5).toInt = -2 ^ 63 ∧
    ((regs [(6, 0xFFFFFFFFFFFFFFFF)]).x 6).toInt = -1 ∧ (State.reset.x 6).toInt = 0 := by unfold Free; decide +kernel
theorem witness_BitCountResults : Free State.reset [0, 0] ∧ Free (regs [(5, 1)]) [4, 5] ∧ (regs [(5, 1)]).x 5 ≠ 0 ∧ State.reset.x 5 = 0 := by unfold Free; decide +kernel
theorem witness_ConstantSequence : (sq State.reset).loads = [] ∧ (sq State.reset).pc.toNat + 4 ≤ 0x3FFF ∧
    (let s := seqState (fun q => { q with pc := 0x3FFB }); (sq s).loads = [] ∧ (sq s).pc.toNat + 4 ≤ 0x3FFF) := by decide +kernel
theorem witness_InstructionOrderAndRegisters :
    (sq State.reset).pc ≠ 0x3FFF ∧ (sq (seqState (fun q => { q with pc := 0x3FFF }))).pc = 0x3FFF := by decide +kernel
theorem witness_RegisterResultFrame : ∃ t, registerResult (.add 4 5 6) = some 4 ∧ (sq State.reset).pc ≠ 0x3FFF ∧ exec (.add 4 5 6) State.reset = .next t :=
  ⟨_, rfl, by decide +kernel, rfl⟩
theorem witness_RegisterResultFrame_read : ∃ t u, registerRead (.barRd 4 5) = some 4 ∧ registerRead (.ldp 4 5 0 0) = some 4 ∧
    exec (.barRd 4 5) (regs [(5, 1024)]) = .next t ∧ exec (.barRd 4 0) State.reset = .next u := ⟨_, _, rfl, rfl, rfl, rfl⟩
theorem witness_WaitsForPendingLoad : (sq loading).busy [5, 1, 2] = true ∧ (sq loading).busy [1, 5] = true ∧ (sq loading).busy [5] = true := by decide +kernel
theorem witness_BranchesJumpsAndMisc : Free State.reset [0] ∧ Free (regs [(5, 1)]) [5, 0] ∧ (regs [(5, 1)]).x 5 ≠ State.reset.x 0 ∧
    ((0 : Word) + 4 * (1 : BitVec 16).signExtend 64).toNat < 0x10000 ∧ 0x10000 ≤ ((0 : Word) + 4 * (0xFFFF : BitVec 16).signExtend 64).toNat := by
  unfold Free; decide +kernel
theorem witness_SystemRegisters : Free State.reset [4] ∧ (sq State.reset).mode = false ∧ Free system [4] ∧ (sq system).mode = true ∧
    sysAssigned 0x004 = false ∧ sysAssigned 0x7FF = false ∧ sysAssigned 0x800 = true := by unfold Free; decide +kernel
theorem witness_TrapEntry : (0xFFFF : Nat) < 2 ^ 16 ∧ (sq State.reset).mode = false ∧ (sq State.reset).tvec = 0 ∧
    (sq (seqState (fun q => { q with tvec := 1 }))).tvec ≠ 0 ∧ (sq system).mode = true := by decide +kernel
theorem witness_TrapCausesAndReturn : Free State.reset [5] ∧ (sq State.reset).mode = false ∧ (sq system).mode = true ∧
    (sq system).tepc.toNat * 4 < 0x10000 ∧
    (let q := sq (seqState (fun q => { q with mode := true, tepc := 0x3FFF, tcause := 0x40000003 }))
     q.mode = true ∧ 0x10000 ≤ q.tepc.toNat * 4 + (if q.tcause.getLsbD 30 then 4 else 0)) := by unfold Free; decide +kernel

/-- A queued store of one byte of the scratchpad. -/
def byteStore : SeqStore := { no := 0, piece := { key := spadKey 0 0, size := 1, home := .near }, data := [7], addr := 0 }
/-- Tile 0 with n queued stores. -/
def storing (n : Nat) : State := seqState (fun q => { q with no := 1, queue := List.replicate n byteStore })
/-- Tile 0 with the first page of LV space cached as the first page of its die's SRAM. -/
def mapped (f : Seq → Seq) : State :=
  (seqState f).modTile 0 (fun T => { T with tlb := [{ ctxid := 0, page := 0, span := 14, leaf := 0, rd := true, wr := true }] })
/-- The pieces that an access translates to. -/
def piecesOf (s : State) (a : Word) (n : Nat) (wr : Bool) : List (Nat × Nat) :=
  match seqLv s a n wr with | .ok (ps, _) => ps.map (fun p => (p.key - sramKey 0 0, p.size)) | .error _ => []
/-- The fault of an access. -/
def faultOf (s : State) (a : Word) (n : Nat) (wr : Bool) : Nat := match seqLv s a n wr with | .ok _ => 0 | .error f => f.cause

theorem witness_LoadsFromIssueToReturn :
    Free (mapped id) [4, 0] ∧ piecesOf (mapped id) 0x3FFF 1 false = [(0x3FFF, 1)] ∧ piecesOf (mapped id) 0x3FFA 4 false = [(0x3FFA, 2), (0x3FFC, 2)] ∧
    faultOf (mapped id) 0x3FFF 2 false = 9 ∧ ((loading.tile 0).seq.loads)[0]?.isSome = true ∧
    pieceReady loading 0 0 { key := 0, size := 8, home := .near } = true ∧ (∀ e ∈ (sq (storing 15)).queue, e.data.length = e.piece.size) := by
  unfold Free; decide +kernel
theorem witness_TranslationAndFaultingOperands :
    Free (regs [(5, 0x0200000000000000)]) [4, 5] ∧ 2 ^ 57 ≤ ((regs [(5, 0x0200000000000000)]).x 5 + (0 : BitVec 16).signExtend 64).toNat ∧
    Free (regs [(5, 1024)]) [5, 6] ∧ 1024 ≤ ((regs [(5, 1024)]).x 5).toNat ∧ ((regs [(5, 1023)]).x 5).toNat < 1024 ∧
    2 ^ 30 ≤ ((regs [(6, 0x40000000)]).x 6).toNat ∧ ((here State.reset).bar 0).target = 0 := by unfold Free; decide +kernel
theorem witness_StoresFromQueueToMemory :
    Free (mapped id) [4, 0] ∧ piecesOf (mapped id) 0 8 true = [(0, 8)] ∧ (sq (storing 15)).queue.length + 1 ≤ 16 ∧
    16 < (sq (storing 16)).queue.length + 1 ∧ memoryOk (storing 1) = true ∧ ((storing 1).tile 0).seq.queue[0]? = some byteStore ∧
    drainReady (storing 1) 0 0 byteStore = true ∧ dupOf (storing 1) byteStore.piece = none ∧ byteStore.piece.home = .near := by
  unfold Free; decide +kernel
theorem witness_ScratchpadAndPrivate :
    Free (regs [(5, 0x1FFFF8)]) [4, 5] ∧ ((regs [(5, 0x1FFFF8)]).x 5).toNat % 2 ^ 21 + 8 ≤ 2 ^ 21 ∧
    2 ^ 21 < ((regs [(5, 0x1FFFF9)]).x 5).toNat % 2 ^ 21 + 8 ∧ ((regs [(5, 0xFFF8)]).x 5).toNat % 2 ^ 16 + 8 ≤ 2 ^ 16 ∧
    2 ^ 16 < ((regs [(5, 0xFFF9)]).x 5).toNat % 2 ^ 16 + 8 ∧ 16 < (sq (storing 16)).queue.length + 1 := by unfold Free; decide +kernel
theorem witness_PrivateStoreFrame : ∃ t, memoryOk State.reset = true ∧ Free State.reset [0, 5] ∧ (sq State.reset).pc ≠ 0x3FFF ∧
    spadAddr State.reset 0 0 3 16 + kindSize 3 ≤ 2 ^ 16 ∧ exec (.stp 0 5 0 3) State.reset = .next t :=
  ⟨_, by decide +kernel, by unfold Free; decide +kernel, by decide +kernel, by decide +kernel, rfl⟩
/-- The atomic piece at the start of LV space. -/
def lvPiece : Piece := { key := sramKey 0 0, size := 8, home := .die 0 }
theorem witness_Atomics :
    Free (mapped id) [5, 6, 4] ∧ (9 : BitVec 4).toNat < 10 ∧ amoReady (mapped id) 0 { key := spadKey 0 0, size := 8, home := .near } true true false = true ∧
    2 ^ 21 < ((regs [(5, 0x1FFFFC)]).x 5).toNat % 2 ^ 21 + 8 ∧ ((regs [(5, 4)]).x 5).toNat % 8 ≠ 0 ∧
    piecesOf (mapped id) 0 8 true = [(0, 8)] ∧ dupOf (mapped id) lvPiece = none ∧ servable (mapped id) 0 lvPiece = true ∧
    amoReady (mapped id) 0 lvPiece true true false = true ∧ 2 ^ 57 ≤ ((regs [(5, 0x0200000000000000)]).x 5).toNat := by unfold Free; decide +kernel
/-- A release fence behind one store and before another. -/
def fencing : State := seqState (fun q => { q with no := 2, fences := [(1, false)], queue := [byteStore, { byteStore with no := 1 }] })
theorem witness_Fences : (here State.reset).seq.loads.any (fun l => l.value.isNone) = false ∧
    (here loading).seq.loads.any (fun l => l.value.isNone) = true ∧ (here (storing 1)).seq.queue.isEmpty = false ∧ 2 ≤ (2 : BitVec 2).toNat ∧
    (here State.reset).seq.queue.isEmpty = true ∧ (here State.reset).drain = [] ∧ (1, false) ∈ (here fencing).seq.fences ∧
    byteStore ∈ (here fencing).seq.queue ∧ byteStore.no < 1 ∧ (here fencing).seq.queue[1]? = some { byteStore with no := 1 } := by
  decide +kernel
/-- A store of a round that the sequencer started, at a commit. -/
def draining : Held :=
  { slot := 0, addr := 0, pieces := [], data := [], amo := none, signed := false, ctx := 0, no := 0, place := 0, bySeq := true,
    blocked := none, retries := 0 }
theorem witness_Fences_rounds :
    (let s := State.reset.modTile 0 (fun T => { T with drain := [draining] })
     (here s).drain.any (fun h => h.bySeq) = true) := by decide +kernel
theorem witness_BarriersEventsTimelines :
    Free (regs [(5, 1023), (6, 1)]) [5, 6] ∧ ((regs [(5, 1023)]).x 5).toNat < 1024 ∧ 0 < ((regs [(6, 0x3FFFFFFF)]).x 6).toNat ∧
    ((regs [(6, 0x3FFFFFFF)]).x 6).toNat < 2 ^ 30 ∧
    released State.reset 0 false = true ∧
    (let s := (regs []).modTile 0 (fun T => T.setBar 0 { Bar.reset with target := 1 })
     ((here s).bar 0).target ≠ 0 ∧ ((here s).bar 0).bytes = false) ∧
    ((regs [(5, 255)]).x 5).toNat < 256 ∧ ((regs [(5, 63)]).x 5).toNat < 64 ∧ 48 ≤ ((regs [(5, 48)]).x 5).toNat ∧ (sq system).mode = true ∧
    (sq State.reset).mode = false ∧ (((hub State.reset).tl.get 0 0) - 0x8000000000000000).toNat = 2 ^ 63 := by unfold Free; decide +kernel
/-- Cluster 0 with one record for tile 0. -/
def recorded : State := State.reset.modCluster 0 (fun K => { K with evq := K.evq.put 0 [List.replicate 64 1] })
theorem witness_EventQueueAndTagTable :
    Free recorded [4, 0] ∧ (recorded.x 0).toNat % 64 = 0 ∧ (hub recorded).evq.get [] 0 = [List.replicate 64 1] ∧
    (sq recorded).touches { key := spadKey 0 0, size := 64, home := .near } = false ∧ (hub State.reset).evq.get [] 0 = [] ∧
    (let s := (regs []).modCluster 0 (fun K => { K with tags := K.tags.put 1023 0x8000000000000000 })
     ((hub s).tags.get 0 1023).getLsbD 63 = true ∧ (hub s).tags.get 0 1022 = 0) ∧ ((regs [(5, 1023)]).x 5).toNat < 1024 := by
  unfold Free; decide +kernel
/-- Context 0 of tile 0 with a block, and a run where r says so. -/
def blocked (r : Option Run) : State :=
  State.reset.modTile 0 (fun T => T.modCtx 0 (fun c => { c with block := { c.block with slots := [(0, 0x0100000000000000)] }, run := r }))
/-- A run that the sequencer started. -/
def seqRun : Run := { asked := 1, done := 0, by_ := .sequencer, below := 0 }
theorem witness_ContextControlAndEnd :
    Free State.reset [5] ∧ ((here State.reset).ctx 7).ctxid.toNat = State.reset.tileCtxid 0 ∧
    (let s := State.reset.modTile 0 (fun T => T.modCtx 7 (fun c => { c with ctxid := 9 }))
     (sq s).mode = false ∧ ((here s).ctx 7).ctxid.toNat ≠ s.tileCtxid 0) ∧
    (ctxHere (blocked none)).block.slots.any (fun p => p.2 != 0) = true ∧ (ctxHere (blocked none)).run = none ∧
    (ctxHere (blocked (some seqRun))).run ≠ none ∧ (ctxHere State.reset).block.slots.any (fun p => p.2 != 0) = false ∧
    drained State.reset 0 = true ∧ drained (blocked (some seqRun)) 0 = false ∧ (sq State.reset).queue = [] ∧ (sq State.reset).loads = [] ∧
    inFlight State.reset 0 = false ∧ (sq State.reset).task = none := by unfold Free; decide +kernel
theorem witness_EngineIssue :
    Free State.reset [5, 6] ∧ (1 : BitVec 3).toNat = 1 ∧ (4 : BitVec 3).toNat = 4 ∧
    ((hub State.reset).chain 4 0).next - ((hub State.reset).chain 4 0).first < 64 ∧
    (let s := State.reset.modCluster 0 (fun K => K.setChain 1 0 { Chain.reset with next := 65 })
     64 ≤ ((hub s).chain 1 0).next - ((hub s).chain 1 0).first) := by unfold Free; decide +kernel

/-! ### Witnesses: streams, launches, configuration -/

/-- A stream of one frame of 4096 bytes, of system scope, with reader 0. -/
def aStream : Stream :=
  { lfr := 12, spill := true, scope := 6, tier := 0, frames := 1, limit := 2, delay := 1, hwm := 0, rsv := 0,
    readers := [(0, { live := true, cursor := 0, release := 0 })], extent := 4096, resvs := [], backing := [], base := [], clock := [],
    furthest := 0, refused := 0, queue := none }
/-- A launch of one page on tile 0, with one stream. -/
def aLaunch : Launch :=
  { ctxid := 0, home := 0, phase := .running, packet := [], source := .host, density := 1, pinned := false, wantsSlot := false, pages := 1,
    imageBase := 0, imageSpace := 1, place := [0], consist := [0], cfg := Cfg.reset, seeds := [], streams := [(0, aStream)], status := 6,
    dead := false, saved := [], savedClusters := [], resumeTo := .running, session := none, reds := [], progress := 0, fired := false,
    base := 0 }
/-- The machine with that launch in place. -/
def placed (L : Launch) : State :=
  { State.reset with launches := [(0, L)], tiles := [(0, { Tile.reset with launch := some 0 })], clusters := [(0, { Cluster.reset with launch := some 0 })] }
/-- The same with its stream changed. -/
def streaming (st : Stream) : State := placed { aLaunch with streams := [(0, st)] }
/-- The same with registers of tile 0 set. -/
def with_ (s : State) (xs : List (Reg × Word)) : State := s.modSeq 0 (fun q => xs.foldl (fun q p => q.set p.1 p.2) q)
/-- The image of a port program that reads one element of the scratchpad for .l of slot 0. -/
def portImage : List Byte :=
  leBytes 8 0 ++ leBytes 8 (2 ^ 62 + 2 ^ 49) ++ leBytes 4 1 ++ leBytes 4 1 ++ leBytes 4 1 ++ leBytes 4 1 ++ leBytes 32 0
/-- Tile 0 of a launch with a port. -/
def porting (P : Port) : State := (placed aLaunch).modTile 0 (fun T => T.setPort 0 P)
/-- A reading program on the stream. -/
def streamProg : PortProg :=
  { base := 0x8000000000000000, spad := false, write := false, ctx := 0, slot := 0, pos := 1, esz := 0, psz := 0, nlev := 0, stops := false,
    rdr := 0, rel := false, pub := false, rlv := 0, n := [8, 1, 1, 1], s := [1, 0, 0, 0] }

theorem witness_StreamCommands_marks :
    let s := with_ (placed aLaunch) [(5, 0x8000000000000000)]
    Free s [5, 6] ∧ (State.reset.x 5).getLsbD 63 = false ∧ (s.x 5).getLsbD 63 = true ∧ s.stream (focusLaunch s) 0 = some aStream ∧
    (regs [(5, 0x8001000000000000)]).stream (2 ^ 14) 1 = none ∧ aStream.rsv = aStream.hwm ∧ serialLe 48 aStream.hwm 4096 = true ∧
    gap 4096 aStream.tf ≤ aStream.extent ∧ ¬gap 4097 aStream.tf ≤ aStream.extent ∧ aStream.readers.find (8 % 8) = some { live := true, cursor := 0, release := 0 } ∧
    serialLt 48 0 0 = false ∧ serialLe 48 0 aStream.hwm = true ∧ serialLe 48 1 aStream.hwm = false ∧
    ((aStream.reserve 1).1.resvs = [{ start := 0, size := 1, published := false }]) ∧ (1 : Nat) ≤ aStream.extent := by unfold Free; decide +kernel
theorem witness_StreamCommands_ports :
    let s := { placed aLaunch with mem := Memory.writes [] (putBytes (spadKey 0 0) portImage) }
    portOk s 0 (s.mem.bytes (spadKey 0 0) 64) = true ∧ (sq s).queue = [] ∧ (here s).round = none ∧ ((here s).port 3).loan = false ∧
    ((here s).port 3).ended = true ∧ (let p := porting { Port.reset with prog := some streamProg }
      ((here p).port 0).ended = false ∧ ((here p).port 0).prog = some streamProg ∧ streamProg.isStream = true ∧
      aStream.readers.find streamProg.rdr = some { live := true, cursor := 0, release := 0 } ∧
      serialLt 48 (gap 0 0) 0 = false ∧ serialLt 48 (gap 0 1) 0 = true) ∧
    aStream.readers ≠ [] ∧ ((s.die 0).queues.get Queue.reset 4095).retired = false ∧ ((s.die 0).queues.get Queue.reset 4095).bound = none := by
  decide +kernel
/-- A write port that waits at the window. -/
def stuckPort : Port :=
  { Port.reset with
    prog := some { streamProg with write := true }, winBlocked := some 0, committed := [{ addr := 0x8000000000001000, data := [1], c := 0, no := 0, deps := [], xlat := none }] }
theorem witness_BlockedStreams :
    let s := porting { Port.reset with prog := some streamProg, hwmBlocked := some 0 }
    let w := { porting stuckPort with now := 2 ^ 24 }
    blockedRead s 0 (.port 0) = some (0, 0, 1) ∧ s.stream 0 0 = some aStream ∧ aStream.decideRead 0 1 = .block ∧
    { aStream with hwm := 1 }.decideRead 0 1 ≠ .block ∧ blockedWrite w 0 (.port 0) = some (0, 4096, 1) ∧ writeDecision w 0 0 4096 1 = .block ∧
    aStream.spill = true ∧ aStream.extent < aStream.limit * 2 ^ aStream.lfr ∧ (blockedParties w aLaunch).any (fun p => p.1 = 0 && p.2.2 && p.2.1 + 1 ≤ w.now) = true ∧
    aLaunch.fired = false ∧ aLaunch.progress + 2 ^ (w.die 0).dlint ≤ w.now ∧
    (blockedParties w aLaunch).any (fun p => p.2.1 + 2 ^ (w.die 0).dlint ≤ w.now) = true := by decide +kernel
theorem witness_Apertures :
    let v : Word := BitVec.ofNat 64 (2 ^ 63 + 13 * 2 ^ 24)
    let r : Word := BitVec.ofNat 64 (2 ^ 63 + 2 ^ 62 + 13 * 2 ^ 24)
    let s := (placed aLaunch).setAperture 255 { bind := v, err := 0 }
    (255 : Nat) < 256 ∧ bindOk (placed aLaunch) v = true ∧ bindOk (placed aLaunch) (v - 2 ^ 24) = false ∧ bindOk (placed aLaunch) r = true ∧
    apertureOf State.reset 0 = none ∧ apertureOf s 255 = some (v, 0, 0, aStream) ∧ v.getLsbD 62 = false ∧ r.getLsbD 62 = true ∧
    aStream.decideWrite 0 4096 = .pass ∧ aStream.decideWrite 0 4097 ≠ .pass ∧ (streamWrite s none 0 0 0 [1]).isSome = true ∧
    { aStream with hwm := 1 }.decideRead 0 1 = .pass ∧ aStream.decideRead 0 1 ≠ .pass ∧
    (streamRead (streaming { aStream with hwm := 1 }) none 0 0 0 1).isSome = true := by decide +kernel

/-- A launch whose stream has one more command after its next, with a context and a page of it selected. -/
def configuring : Launch :=
  { aLaunch with phase := .configuring, cfg := { Cfg.reset with words := [0, 0], selected := some 0, header := some 0, left := 1, headers := [0] } }
theorem witness_ConfigurationStream :
    (let s := placed configuring
     let C := configuring.cfg
     s.focus.launch < 2 ^ 14 ∧ s.launch 0 = some configuring ∧ cfgLive configuring = true ∧ C.words.tail ≠ [] ∧ C.selected = some 0 ∧
     C.headers.contains 0 = true ∧ 0 < configuring.pages ∧ reservedField 5 0 = false ∧ C.left ≠ 0 ∧ configuring.place[0]? = some 0 ∧
     touchedBusy s configuring = false ∧ C.headers.contains 1 = false ∧ C.header = some 0 ∧ C.sum % 2 ^ 28 = (0 : BitVec 28).toNat ∧
     C.sum % 2 ^ 28 ≠ (1 : BitVec 28).toNat) ∧
    (let L := { aLaunch with cfg := { Cfg.reset with words := [0], by_ := some 0 } }
     cfgLive L = true ∧ L.cfg.words.tail = [] ∧ L.cfg.header = none ∧ completeBroken (placed L) L true = none ∧ touchedBusy (placed L) L = false) ∧
    (let s := with_ (placed aLaunch) [(6, 0x100000)]
     Free s [5, 6] ∧ (s.x 5).toNat % 4 = 0 ∧ (s.x 6).toNat = 2 ^ 20 ∧ s.launch (focusLaunch s) = some aLaunch ∧ aLaunch.cfg.by_ = none ∧
     drained s 0 = true ∧ (sq s).queue = [] ∧ aLaunch.phase = .running ∧ drained (blocked (some seqRun)) 0 = false) := by unfold Free; decide +kernel

/-- An image of one page without a configuration stream, and the packet that names it. -/
def anImage : List Byte := leBytes 4 0x314F5841 ++ leBytes 2 1 ++ leBytes 2 2 ++ leBytes 40 0 ++ leBytes 8 64 ++ leBytes 8 0 ++ leBytes 2 1
/-- Its packet: in the SRAM of die 0, one page a cluster. -/
def aPacket : List Byte := leBytes 8 0 ++ [2, 0, 1, 0] ++ leBytes 4 0 ++ leBytes 8 0 ++ leBytes 2 0x3FF ++ leBytes 38 0
/-- A die with the packet queued. -/
def queued : State :=
  { (State.reset.modDie 0 (fun D => { D with queue := [(aPacket, .host)] })).modPkg (fun p => { p with bootstat := 2 }) with
    mem := Memory.writes [] (putBytes (sramKey 0 0) anImage) }
theorem witness_LaunchLifecycle_place :
    packetOk State.reset aPacket = true ∧ packetOk State.reset [] = false ∧ pktEndpoint aPacket = 0x3FF ∧ pktSpace aPacket ≠ 0 ∧
    queued.pkg.bootstat = 2 ∧ queued.pkg.wiping = false ∧ imageHead State.reset 0 aPacket .host = none ∧
    (imageHead queued 0 aPacket .host).any (fun hd => leAt hd.2 0 2 = 1) = true ∧ ceilDiv 1 (pktDensity aPacket) = 1 ∧
    1 ≤ ((List.range 40).filter (fun c => queued.clusterEnabled c)).length ∧
    (match readImage queued 0 aPacket .host with
     | some im => decide (im.pages = 1) && (nextStream im 0).isNone && im.symbols.isEmpty &&
        nextStream { im with cfg := [some []] } 0 == some (0, []) && nextStream { im with cfg := [some [5]] } 0 == some (0, [5]) && chooseClusters queued 0 1 == some [0] && newIndex queued == some 1 &&
        imageTasksOk (newLaunch queued 0 aPacket .host im 1 [0]) im && strmsOk queued 0 im.strms
     | none => false) = true := by decide +kernel
/-- The same with a symbol table at an address that no memory holds. -/
def unread : State :=
  let h := leBytes 4 0x314F5841 ++ leBytes 2 1 ++ leBytes 2 2 ++ leBytes 16 0 ++ leBytes 8 (2 ^ 40) ++ leBytes 4 1 ++ leBytes 12 0
  { queued with mem := Memory.writes [] (putBytes (sramKey 0 0) (h ++ anImage.drop 48)) }
theorem witness_LaunchLifecycle_unread :
    (imageHead unread 0 aPacket .host).isSome = true ∧ readImage unread 0 aPacket .host = none ∧ chooseClusters unread 0 1 = some [0] ∧
    newIndex unread = some 1 := by decide +kernel
theorem witness_LaunchLifecycle_phases :
    isQuiescent (placed aLaunch) aLaunch = true ∧ aLaunch.saved = [] ∧ aLaunch.dead = false ∧ aLaunch.cfg.by_ = none ∧ aLaunch.cfg.index = 0 ∧
    aLaunch.pinned = false ∧ launchDrained (placed aLaunch) aLaunch = true ∧
    (placed { aLaunch with phase := .waved }).launch 0 = some { aLaunch with phase := .waved } ∧
    (let s := (placed aLaunch).modDie 0 (fun D => { D with compaction := true })
     (s.die 0).compaction = true ∧ clusterFree s 1 = true ∧ readoutReady s 0 = true ∧ aLaunch.consist[0]? = some 0 ∧
     dieOfCluster 0 = dieOfCluster 39 ∧ adjacentDies 0 6 = true ∧ adjacentDies 0 7 = false) ∧
    (State.reset.pkg.ringHead = State.reset.pkg.ringTail) ∧
    (let s := State.reset.modPkg (fun p => { p with ring := [(255, aPacket)], ringHead := 511, ringTail := 512 })
     s.pkg.ringHead ≠ s.pkg.ringTail ∧ s.pkg.ring.get [] (s.pkg.ringHead % 256) = aPacket) := by decide +kernel

/-! ### Witnesses: the fabric -/

/-- The round in hand of tile 0. -/
def theRound (s : State) : Round := (s.tile 0).round.getD (newRound State.reset 0 0)
/-- Slot 0 of context 0 of tile 0 at work. -/
def slotFab (s : State) (op : Nat) (f : FabWord) : Fab := Fab.at_ s 0 (theRound s) 0 op f
/-- The operands that it holds. -/
def heldOf (e : Fab) : Held3 := e.operands.getD { vals := [], pred := none, deps := [] }
/-- Is it at work? -/
def working (s : State) : Bool :=
  s.focus = { tile := 0, ctx := 0, slot := 0, launch := 0 } && (s.tile 0).live && (s.tile 0).round.any (fun r => r.ctx = 0)
/-- Does it fire by a row of the table? -/
def fires (s : State) (op : Nat) (f : FabWord) (row : Row) : Bool :=
  working s && (slotFab s op f).operands.isSome && (slotFab s op f).space && judge f op (heldOf (slotFab s op f)) = row

theorem atWork_of_working {s : State} (h : working s = true) (op : Nat) (f : FabWord) : AtWork s op f (slotFab s op f) := by
  simp only [working, Bool.and_eq_true, decide_eq_true_eq] at h
  obtain ⟨⟨hf, hl⟩, hr⟩ := h
  cases hq : (s.tile 0).round with
  | none => simp [hq] at hr
  | some r =>
    simp only [hq, Option.any_some, decide_eq_true_eq] at hr
    refine ⟨by rw [hf]; decide, by simp [hf], by simp [hf], by simpa [here, hf] using hl, r, by simpa [here, hf] using hq, by simp [hf, hr], ?_⟩
    simp [slotFab, theRound, hq, hf]

theorem firesRow_of_fires {s : State} {op : Nat} {f : FabWord} {row : Row} (h : fires s op f row = true) :
    FiresRow s op f (slotFab s op f) (heldOf (slotFab s op f)) row := by
  simp only [fires, Bool.and_eq_true, decide_eq_true_eq] at h
  obtain ⟨⟨⟨hw, ho⟩, hs⟩, hj⟩ := h
  refine ⟨atWork_of_working hw op f, ?_, hs, hj⟩
  obtain ⟨h, hh⟩ := Option.isSome_iff_exists.mp ho
  simp [heldOf, hh]

/-- Tokens at the three positions of slot 0, for a word of type code c. -/
def data3 : List (Nat × Tok) := [(1, num 5), (2, num 6), (3, bitTok true [])]
/-- Do slots fire by a row on tokens, each from its own word? -/
def allFire (f : FabWord) (ps : List (Nat × Instr)) (toks : List (Nat × Tok)) (row : Row) : Bool :=
  ps.all (fun p => fires (slotState p.2 toks) p.1 f row)
theorem fires_each {f : FabWord} {ps : List (Nat × Instr)} {toks : List (Nat × Tok)} {row : Row} (h : allFire f ps toks row = true) :
    ∀ p ∈ ps, ∃ s e x, FiresRow s p.1 f e x row := by
  intro p hp
  exact ⟨_, _, _, firesRow_of_fires (List.all_eq_true.mp h p hp)⟩
/-- With the round in hand changed. -/
def rounded (i : Instr) (toks : List (Nat × Tok)) (g : Round → Round) : State :=
  (slotState i toks).modTile 0 (fun T => { T with round := T.round.map g })

theorem witness_FabricIntegerResults :
    (∀ p ∈ tableSlots (to5 0 0), ∃ s e h, FiresOn s p.1 (to5 0 0) e h) ∧ (∀ p ∈ tableSlots (to5 7 0), ∃ s e h, FiresOn s p.1 (to5 7 0) e h) ∧
    typeOf (to5 0 0) = 0 ∧ typeOf (to5 7 0) < 8 :=
  ⟨fires_each (toks := data3) (by decide +kernel), fires_each (toks := data3) (by decide +kernel), by decide, by decide⟩
theorem witness_FabricFloatResults :
    (∀ p ∈ tableSlots (to5 8 0), ∃ s e h, FiresOn s p.1 (to5 8 0) e h) ∧ (∀ p ∈ tableSlots (to5 11 0), ∃ s e h, FiresOn s p.1 (to5 11 0) e h) ∧
    (fmtOf (typeOf (to5 8 0))).isSome = true ∧ (fmtOf (typeOf (to5 11 0))).isSome = true ∧ 8 ≤ typeOf (to5 8 0) ∧ typeOf (to5 11 0) ≤ 11 :=
  ⟨fires_each (toks := data3) (by decide +kernel), fires_each (toks := data3) (by decide +kernel), by decide, by decide, by decide, by decide⟩
theorem witness_FusedResults :
    (∀ p ∈ fusedSlots (to5 9 0), ∃ s e h, FiresOn s p.1 (to5 9 0) e h) ∧
    (∀ p ∈ fusedSlots (to5 8 0x1000000), ∃ s e h, FiresOn s p.1 (to5 8 0x1000000) e h) ∧
    (∀ p ∈ fusedSlots (to5 9 0x400000), ∃ s e h, FiresRow s p.1 (to5 9 0x400000) e h (.stop 3)) ∧
    (0x1000000 : BitVec 30).toNat / 2 ^ 24 % 8 = 1 ∧ (0x400000 : BitVec 30).toNat / 2 ^ 21 % 8 = 2 :=
  ⟨fires_each (toks := data3) (by decide +kernel), fires_each (toks := data3) (by decide +kernel),
    fires_each (toks := [(1, stopTok .scalar 3 []), (2, stopTok .scalar 3 []), (3, bitTok true [])]) (by decide +kernel), by decide, by decide⟩
theorem witness_LaneResults :
    (∀ p ∈ tableSlots (to5 3 0), ∃ s e h, FiresOn s p.1 (to5 3 0) e h) ∧ (∀ p ∈ tableSlots (to5 10 0), ∃ s e h, FiresOn s p.1 (to5 10 0) e h) ∧
    typeOf (to5 3 0) < 8 ∧ 8 ≤ typeOf (to5 10 0) ∧ typeOf (to5 10 0) ≤ 11 :=
  ⟨fires_each (toks := data3) (by decide +kernel), fires_each (toks := data3) (by decide +kernel), by decide, by decide, by decide⟩
theorem witness_ReductionAndConversionResults :
    (∀ p ∈ tableSlots (to5 9 2), ∃ s e h, FiresOn s p.1 (to5 9 2) e h) ∧ (∀ p ∈ tableSlots (to5 8 15), ∃ s e h, FiresOn s p.1 (to5 8 15) e h) ∧
    (2 : BitVec 30).toNat % 16 ≤ 0xD ∧ typeOf (to5 9 2) ≤ 0xD ∧ drawsWords (to5 9 2) = false ∧ (15 : BitVec 30).toNat % 16 = 0xF ∧
    codeLanes 9 ≤ codeLanes 2 ∧ 0 * codeLanes 9 + min (codeLanes 2) (codeLanes 9) ≤ codeLanes 2 :=
  ⟨fires_each (toks := data3) (by decide +kernel), fires_each (toks := data3) (by decide +kernel), by decide, by decide, by decide, by decide,
    by decide, by decide⟩
/-- Is a slot at work with its operands and space, no null among them and no refusal? -/
def takesData (s : State) (op : Nat) (f : FabWord) : Bool :=
  working s && (slotFab s op f).operands.isSome && (slotFab s op f).space &&
    !((heldOf (slotFab s op f)).vals ++ (heldOf (slotFab s op f)).pred.toList).any (·.null) && !refuses f op (heldOf (slotFab s op f)).pred
theorem witness_StopAndSourceNodes :
    let f := to5 0 2
    let stops : List (Nat × Instr) := [(0x68, .fabStop f), (0x69, .fabSlvl f), (0x6C, .fabOrdt f), (0x6A, .fabSgate f), (0x6B, .fabScount f), (0x90, .fabExit f)]
    (∀ p ∈ stops, takesData (slotState p.2 [(1, num 1)]) p.1 f = true ∧ takesData (slotState p.2 [(1, stopTok .scalar 1 [])]) p.1 f = true ∧
      takesData (slotState p.2 [(1, stopTok .scalar 2 [])]) p.1 f = true ∧ working (slotState p.2 [(1, nullTok .scalar [])]) = true) ∧
    (∀ p ∈ [(0x02, Instr.fabConst f), (0x03, .fabGrd f), (0x04, .fabVrd f)], working (slotState p.2 []) = true ∧
      (slotFab (slotState p.2 []) p.1 f).st.active = false ∧ (slotFab (slotState p.2 []) p.1 f).space = true) ∧
    (slotFab (rounded (.fabConst f) [] (fun r => r.setSt 0 { SlotSt.reset with active := true })) 2 f).st.active = true ∧
    (slotFab (slotState (.fabExit f) [(1, num 1)]) 0x90 f).r.fired.contains 0 = false := by decide +kernel
/-- What an access of slot 0 comes to: the pieces' number, or the fault's cause, or a stream. -/
def accessOf (s : State) (sp : MemSpace) (a : Word) (n : Nat) (wr : Bool) : Nat × Nat × Bool :=
  match (slotFab s 0x70 (to5 0 0)).access sp a n wr with
  | .pieces ps _ => (ps.length, 0, false)
  | .stream b => (0, 0, b)
  | .fault c _ _ => (0, c, false)
theorem witness_MemoryNodes :
    let ops : List (Nat × Instr) := (tableSlots (to5 0 0)).filter (fun p => p.1 ∈ [0x70, 0x71, 0x72, 0x73, 0x74, 0x75, 0x76, 0x77, 0x78, 0x79, 0x7A, 0x7B, 0x7E, 0x7F])
    let s := slotState (.fabLd (to5 0 0)) data3
    let m := s.modTile 0 (fun T => { T with tlb := ((mapped id).tile 0).tlb })
    let l := { (s.modTile 0 (fun T => { T with launch := some 0 })) with launches := [(0, aLaunch)] }
    ops.length = 14 ∧ allFire (to5 0 0) ops data3 .data = true ∧ accessOf m .memory 8 8 true = (1, 0, false) ∧ accessOf s .memory 8 8 false = (0, 9, false) ∧
    accessOf l .memory 0x8000000000000000 8 true = (0, 0, false) ∧ accessOf l .memory 0x8000000000000000 8 false = (0, 0, true) ∧
    accessOf s .spad 0x1FFFF8 8 true = (1, 0, false) ∧ accessOf s .spad 0x1FFFF9 8 true = (0, 6, false) ∧
    2 ^ 57 ≤ (0x0200000000000000 : Word).toNat ∧ (theRound s).fired.contains 0 = false ∧
    (theRound (rounded (.fabSt (to5 0 0)) data3 (fun r => { r with fired := [0] }))).fired.contains 0 = true := by decide +kernel
theorem witness_FiringTableRows :
    let f : FabWord := { to5 0 0 with pm := 1 }
    let ps := tableSlots f ++ fusedSlots f
    let n := nullTok .scalar []
    let k := stopTok .scalar 1 []
    allFire f ps [(1, n), (2, n), (3, n)] .null = true ∧ allFire f ps [(1, k), (2, k), (3, bitTok true [])] (.stop 1) = true ∧
    allFire f (ps.filter (fun p => !selector p.1)) [(1, num 1), (2, num 1), (3, bitTok false [])] .refuse = true ∧
    allFire f (ps.filter (fun p => (valuePos p.1 f).length = 2)) [(1, num 1), (2, k), (3, bitTok true [])] .mismatch = true ∧
    (∀ p ∈ ps, (slotFab (slotState p.2 []) p.1 f).operands.isNone = true) ∧
    (let s := rounded (.fabAdd f) data3 (fun r => { r with latch := r.latch ++ [(5 * 4 + 1, num 1)] })
     working s = true ∧ (slotFab s 0x10 f).space = false ∧ (slotFab s 0x10 f).st.out = []) ∧
    opCounted 0x71 = true ∧ (theRound (rounded (.fabSt f) data3 (fun r => { r with fired := [0] }))).fired.contains 0 = true := by decide +kernel

theorem witness_TokenDelivery :
    let e (t0 : BitVec 10) (g : Round → Round) : Fab :=
      slotFab (rounded (.fabMov { to5 0 0 with t0 := t0 }) data3 g) 0x01 { to5 0 0 with t0 := t0 }
    let x := (slotState (.fabMov (to5 0 0)) data3).modTile 0 (fun T => T.modCtx 0 (fun c => { c with block := { c.block with fields := [(0, 0x13)] } }))
    (0 : Nat) < 2 ∧ (1 : Nat) < 2 ∧ feedPorts (e 0x105 id).T 0 0 = [] ∧ exportOf (e 0x105 id).c.block 0 0 = none ∧
    (e 0x180 id).r.gw.find 0 = none ∧ (e 0x1BF (fun r => { r with gw := [(63, some 1)] })).r.gw.find 63 ≠ none ∧
    (e 0x1C0 id).r.vw.find 0 = none ∧ (e 0x1CF (fun r => { r with vw := [(15, none)] })).r.vw.find 15 ≠ none ∧
    exportOf ((x.tile 0).ctx 0).block 0 0 = some 3 := by decide +kernel
/-- A load of slot 0 of eight bytes of the scratchpad. -/
def aLoad : FabLoad :=
  { slot := 0, addr := 0, pieces := [{ key := spadKey 0 0, size := 8, home := .near }], got := [], size := 8, blocked := none, deps := [], since := 0, saw := none }
/-- A held store of the same bytes. -/
def aHeld (amo : Option (Nat × Nat)) : Held :=
  { slot := 0, addr := 0, pieces := [{ key := spadKey 0 0, size := 8, home := .near }], data := leBytes 8 7, amo := amo, signed := false, ctx := 0,
    no := 0, place := 0, bySeq := false, blocked := none, retries := 0 }
/-- The fate of sending, as a slot when it has acted. -/
def sentBy (x : Fate) : Bool := match x with | .ok _ => true | _ => false
theorem witness_FabricMemoryTraffic :
    let s := rounded (.fabLds (to5 0 0)) [] (fun r => { r with loads := [aLoad] })
    let e := slotFab s 0x78 (to5 0 0)
    let d (amo : Option (Nat × Nat)) := State.reset.modTile 0 (fun T => { T with drain := [aHeld amo] })
    (theRound s).loads[0]? = some aLoad ∧ (s.tile 0).live = true ∧ aLoad.addr.getLsbD 63 = false ∧ aLoad.pieces.all (servable s 0) = true ∧
    aLoad.whole = false ∧ { aLoad with pieces := [], got := leBytes 8 7 }.whole = true ∧ e.serves aLoad = true ∧ e.delivers 0 = true ∧
    slotOp (((s.tile 0).ctx 0).block.word 0) = 0x78 ∧
    sentBy ((e.send 0 (num 1)).andThen (fun e1 => e1.send 1 (bitTok true []))) = true ∧
    memoryOk (d none) = true ∧ ((d none).tile 0).drain = [aHeld none] ∧ dupOf (d none) { key := spadKey 0 0, size := 8, home := .near } = none ∧
    ((d none).tile 0).olderWrites 0 = false ∧ ((d (some (1, 3))).tile 0).drain = [aHeld (some (1, 3))] := by decide +kernel
theorem witness_ConvertersAndRepeat :
    let f := to5 0 2
    let w := slotState (.fabWsplit f) [(1, num 1)]
    let j := fun (toks : List Tok) (x : Tok) => rounded (.fabWjoin f) [(1, x)] (fun r => r.setSt 0 { SlotSt.reset with toks := toks })
    let rp := fun (st : SlotSt) (l : List (Nat × Tok)) => rounded (.fabRpt f) l (fun r => r.setSt 0 st)
    fires w 0x7C f .data = true ∧ (slotFab w 0x7C f).st.out = [] ∧
    (let s := rounded (.fabWsplit f) [] (fun r => r.setSt 0 { SlotSt.reset with out := [num 1], sent := 1 })
     working s = true ∧ (slotFab s 0x7C f).st.out = [num 1] ∧ (slotFab s 0x7C f).room true .scalar (.slot 6 1) = true ∧ pieceGone (slotFab s 0x7C f) 0 = true) ∧
    (let s := rounded (.fabWsplit f) [(5 * 4 + 1, num 1)] (fun r => r.setSt 0 { SlotSt.reset with out := [num 1] })
     (slotFab s 0x7C f).room true .scalar (.slot 5 1) = false) ∧
    takesData (j [] (num 1)) 0x7D f = true ∧ takesData (j [num 1] (num 2)) 0x7D f = true ∧ (num 1).level = 0 ∧
    takesData (j [] (stopTok .scalar 1 [])) 0x7D f = true ∧ takesData (j [num 1] (stopTok .scalar 1 [])) 0x7D f = true ∧
    working (rp SlotSt.reset [(1, num 1)]) = true ∧ (slotFab (rp SlotSt.reset [(1, num 1)]) 0x88 f).st.term = none ∧
    (theRound (rp SlotSt.reset [(1, num 1)])).at_ 0 1 = some (num 1) ∧ (List.replicate 64 (num 1)).length = 64 ∧
    (let s := rp { SlotSt.reset with toks := [num 1], term := some 1 } [(2, num 3)]
     working s = true ∧ (slotFab s 0x88 f).st.term = some 1 ∧ (theRound s).at_ 0 2 = some (num 3) ∧ (slotFab s 0x88 f).space = true ∧
     (num 3).null = false ∧ (slotFab s 0x88 f).st.nul = false ∧ 0 < ((num 3).bits.truncate 64 : Word).toNat ∧
     ((num 0xFFFFFFFF).bits.truncate 64 : Word).toNat < 2 ^ 32 ∧ 2 ^ 32 ≤ ((num 0x100000000).bits.truncate 64 : Word).toNat ∧
     ((num 0).bits.truncate 64 : Word).toNat = 0 ∧ sentBy ((slotFab s 0x88 f).emit (num 1)) = true) ∧
    (theRound (rp { SlotSt.reset with term := some 1 } [])).at_ 0 2 = none := by decide +kernel
theorem witness_MatrixAndBoundNodes :
    let f := to5 0 0
    let imm := f.imm.toNat
    let panel (n : Nat) := List.replicate n (dataTok .vector 1 [])
    let s (a b : List Tok) (l : List (Nat × Tok)) := rounded (.fabMma f) l (fun r => r.setSt 0 { SlotSt.reset with toks := a, toksR := b })
    let full := s (panel (panelA 0 imm)) (panel (panelB 0 imm)) []
    let e := slotFab full 0x89 f
    let stop (k : Nat) := [stopTok .vector k []]
    f.pm = 0 ∧ imm / 2 ^ 9 % 4 = 0 ∧ imm / 2 ^ 12 % 2 = 0 ∧ working full = true ∧ e.space = true ∧ (e.mx.queue.filter (fun q => q.node = e.node)).length < 2 ∧
    acceptable e.mx e.node e.r.no 0 (mmaM imm) (mmaN imm) (mmaWidth (mmaAf imm) (e.c.steps.get 0 e.slot)) full.now = true ∧
    operandOf e.st.toks (panelA 0 imm) = .panel (panel (panelA 0 imm)) ∧ operandOf e.st.toksR (panelB 0 imm) = .panel (panel (panelB 0 imm)) ∧
    operandOf [] (panelA 0 imm) = .partial_ ∧ (theRound (s [] [] data3)).at_ 0 1 = some (num 5) ∧
    operandOf (slotFab (s (stop 1) (stop 2) []) 0x89 f).st.toks 1 = .stop 1 ∧ operandOf (slotFab (s (stop 1) (stop 2) []) 0x89 f).st.toksR 1 = .stop 2 := by
  decide +kernel
theorem witness_MatrixAndBoundNodes_reads :
    let f := to5 9 0
    let c := { Bank.reset with tag := .complete, owner := { tile := 0, ctx := 0, slot := 9 } }
    let rd := (slotState (.fabAccrd f) data3).modCluster 0 (fun K => { K with mx := { K.mx with banks := [(0, c)] } })
    let g := to5 9 0x80000
    let h := to5 9 0x20000
    fires rd 0x8A f .data = true ∧ (slotFab rd 0x8A f).st.out = [] ∧ ((slotFab rd 0x8A f).mx.bank 0).tag = .complete ∧
    ((slotFab rd 0x8A f).mx.bank 0).first = 0 ∧ (rd.cluster 0).copyHolds 0 = false ∧
    ((rd.cluster 0).setChain 1 3 { Chain.reset with
      started := [{ seq := 1, eng := 1, cmd := 1, flags := 0, mode := false, a := 0, b := 0, before := 0, task := none, stage := .begun 0, at_ := 0,
                    blocked := [], retryAt := 0, banks := 1, accFlags := 0, desc := none, groups := [], clock := [], src := [], fin := [], since := 0,
                    ends := false }] }).copyHolds 0 = true ∧ ((slotFab rd 0x8A f).mx.bank 0).owner.tile = 0 ∧
    (slotFab (rounded (.fabAccrd f) [] (fun r => r.setSt 0 { SlotSt.reset with out := [num 1] })) 0x8A f).st.out = [num 1] ∧
    fires (slotState (.fabBld g) data3) 0x8B g .data = true ∧ bldWaits (slotState (.fabBld g) data3) 0 0 0 = false ∧ g.imm.toNat / 2 ^ 19 % 2 = 1 ∧
    fires (slotState (.fabBst h) [(1, num 2), (2, num 0)]) 0x8C h .data = true ∧ h.imm.toNat / 2 ^ 19 % 2 = 0 ∧
    (match boundAddr h (heldOf (slotFab (slotState (.fabBst h) [(1, num 2), (2, num 0)]) 0x8C h)) with
     | .ok a => boundFault h a == none && accessOf (slotState (.fabBst h) []) (boundSpace h) a 2 true == (1, 0, false)
     | .error _ => false) = true ∧ ((slotFab (slotState (.fabBst h) data3) 0x8C h).mx.bank 0).tag ≠ .open_ := by decide +kernel
/-- Do all of a slot's outputs go to slots, as a test? -/
def toSlots (e : Fab) : Bool := (List.range 2).all (fun out => match e.dest out with | .none | .slot _ _ | .away _ _ _ => true | _ => false)
theorem toSlots_of {e : Fab} (h : toSlots e = true) : ToSlots e := by
  intro out ho
  have h1 := List.all_eq_true.mp h out (List.mem_range.mpr ho)
  cases hd : e.dest out <;> simp_all
theorem witness_Completions :
    let f := to5 0 0
    let stop := [stopTok .vector 1 []]
    let m := rounded (.fabMma f) [] (fun r => r.setSt 0 { SlotSt.reset with toks := stop, toksR := stop })
    let a := rounded (.fabAccrd (to5 9 0)) [] (fun r => r.setSt 0 { SlotSt.reset with out := [num 1] })
    let l := slotState (.fabBld (to5 9 0x80000)) data3
    let b := slotState (.fabBst (to5 9 0x20000)) [(1, num 2), (2, num 0)]
    toSlots (slotFab m 0x89 f) = true ∧ operandOf (slotFab m 0x89 f).st.toks (panelA 0 0) = .stop 1 ∧
    toSlots (slotFab a 0x8A (to5 9 0)) = true ∧ (slotFab a 0x8A (to5 9 0)).space = true ∧ (Bank.reset).since ≠ some (a.now) ∧
    toSlots (slotFab l 0x8B (to5 9 0x80000)) = true ∧ toSlots (slotFab b 0x8C (to5 9 0x20000)) = true ∧
    (theRound b).fired.contains 0 = false := by decide +kernel
theorem witness_RoundsStartAndCommit :
    let s := blocked (some seqRun)
    let r := s.modTile 0 (fun T => { T with round := some (newRound s 0 0) })
    (s.tile 0).round = none ∧ (s.tile 0).live = true ∧ turnOf (s.tile 0) = some 0 ∧ turnOf (s.tile 0) ≠ some 7 ∧ recordWaits s 0 0 = false ∧
    heldFault (s.tile 0) 0 = none ∧ (r.tile 0).round ≠ none ∧ gangOf r 0 0 = [] ∧ canCommit r 0 = true ∧
    canCommit (rounded (.fabLds (to5 0 0)) [] (fun r => { r with loads := [aLoad] })) 0 = false := by decide +kernel
/-- A program that reads the scratchpad, and one that writes it. -/
def spadProg (write : Bool) : PortProg := { streamProg with base := 0, spad := true, write := write, stops := true }
/-- A program on the first page of LV space. -/
def lvProg (write : Bool) : PortProg := { streamProg with base := 0, write := write }
theorem witness_PortsOfARound_reads :
    let P : Port := { Port.reset with prog := some (spadProg false) }
    let s := porting P
    let m := (mapped id).modTile 0 (fun T => T.setPort 0 { Port.reset with prog := some (lvProg false), tlb := T.tlb })
    let r := (slotState (.fabMov (to5 0 0)) []).modTile 0 (fun T => T.setPort 0 { P with toks := [num 1] })
    (s.tile 0).live = true ∧ ((s.tile 0).port 0).prog = some (spadProg false) ∧ P.loan = false ∧ P.issued < (spadProg false).total ∧ P.waiting < 32 ∧
    P.hwmBlocked = none ∧ P.fault = none ∧
    (match spadAccess 0 ((spadProg false).addr 0).toNat 1 with | .ok _ => true | .error _ => false) = true ∧
    (match portPiece m 0 ((m.tile 0).port 0) (lvProg false) none 0 with | .ok (q, _) => servable m 0 q | .error _ => false) = true ∧
    ((m.tile 0).port 0).mustFlush (lvProg false) 0 = false ∧ (placed aLaunch).stream ((placed aLaunch).tile 0).launchNo (streamHandle streamProg.base) = some aStream ∧
    aStream.decideRead 0 1 = .block ∧ { aStream with hwm := 1 }.decideRead 0 1 = .pass ∧
    (theRound r).ctx = (spadProg false).ctx ∧ ((r.tile 0).port 0).toks = [num 1] ∧ P.shareClosed = false ∧ (theRound r).transit = [] ∧ posFree (theRound r) ((r.tile 0).ctx 0) 0 1 = true := by
  decide +kernel
theorem witness_PortsOfARound_writes :
    let w : PortWrite := { addr := 0x1FFFFF, data := [7], c := 0, no := 0, deps := [], xlat := none }
    let s := porting { Port.reset with prog := some (spadProg true), committed := [w] }
    let m := (mapped id).modTile 0 (fun T => T.setPort 0 { Port.reset with prog := some (lvProg true), tlb := T.tlb, committed := [{ w with addr := 0 }] })
    let P : Port := { Port.reset with prog := some (lvProg true), delivered := 2 ^ 31 }
    let c := ((mapped id).tile 0).ctx 0
    memoryOk s = true ∧ ((s.tile 0).port 0).committed = [w] ∧ ((s.tile 0).port 0).winBlocked = none ∧ w.addr.toNat + w.data.length ≤ 2 ^ 21 ∧
    (match portPiece m 0 ((m.tile 0).port 0) (lvProg true) none 0 with
     | .ok (q, _) => decide (q.home = .die 0) && servable m 0 q && (dupOf m q).isNone | .error _ => false) = true ∧ (s.tile 0).olderWrites 0 = false ∧
    writeDecision (placed aLaunch) 0 0 4096 1 = .block ∧ P.flushDue (lvProg true) false = true ∧ c.hotbase = 0 ∧
    (match lvAccess (mapped id) 0 { c with hotbase := 16, hotlen := 1 } ((mapped id).tile 0).tlb 16 16 true with
     | .ok ([q], _) => decide (q.home = .die 0) && servable (mapped id) 0 q | _ => false) = true := by decide +kernel

/-! ### Witnesses: tasks, engines, messages -/

/-- A task entry of a kind with a body, for page 0, with a barrier and a set mask. -/
def entry (kind body : Nat) : BitVec 1024 :=
  BitVec.ofNat 1024 (2 ^ 256 + (2 ^ 63 + kind * 2 ^ 60 + 2 ^ 36) * 2 ^ 512 + body * 2 ^ 576)
/-- The machine with a launch and an entry in its table. -/
def tasked (e : BitVec 1024) (running : Bool) : State :=
  (placed aLaunch).modCluster 0 (fun K => { K with tasks := [(511, { Task.fresh e with running := running })] })
theorem witness_TaskEngine :
    chosen (tasked (entry 0 1) false) 0 511 = true ∧ chosen (tasked (entry 1 0) false) 0 511 = true ∧ chosen (tasked (entry 2 9) false) 0 511 = true ∧
    chosen (tasked (entry 3 0) false) 0 511 = true ∧ chosen (tasked (entry 3 0) true) 0 511 = false ∧ blockTaskDone (tasked (entry 0 1) true) 0 511 = true ∧
    blockTaskDone (tasked (entry 0 1) false) 0 511 = false ∧ entryKind (entry 4 0) = 4 ∧ entryKind (entry 5 1) = 5 ∧
    tileRuns (tasked (entry 4 0) true) (entryTile (tasked (entry 4 0) true) 0 (entry 4 0)) = true ∧ condWord (tasked (entry 3 0) true) 0 (entry 3 0) = 0 ∧
    condWord { tasked (entry 3 0) true with mem := [(spadKey 0 0, 1)] } 0 (entry 3 0) ≠ 0 ∧ entryBody (entry 4 (2 ^ 32)) / 2 ^ 32 = 1 ∧
    (((tasked (entry 5 1) true).cluster 0).task 511).count + 1 = entryBody (entry 5 1) % 2 ^ 16 ∧
    (((tasked (entry 5 1) true).cluster 0).task 511).count + 1 ≠ entryBody (entry 5 2) % 2 ^ 16 := by decide +kernel

/-- A command at the head of tile 0's chain, its descriptor at the offset that it names. -/
def chained (s : State) (eng cmd : Nat) (mode : Bool) (a b : Word) (desc : List Byte) : State :=
  { s.modCluster 0 (fun K => K.setChain eng 0 { Chain.reset with tail := 1, next := 2 }) with
    mem := Memory.writes (Memory.writes s.mem (putBytes (spadKey 0 (ringOff eng 0 0)) (chainEntry cmd eng 0 0 mode 1 a b))) (putBytes (spadKey 0 (a.toNat % 2 ^ 21)) desc) }
/-- The command as it starts. -/
def headCmd (s : State) (eng : Nat) : Cmd := cmdOf s 0 eng 0 ((s.cluster 0).chain eng 0)
/-- The machine with a launch and a command. -/
def commanded (eng cmd : Nat) (mode : Bool) (a b : Word) (desc : List Byte) : State := chained (placed aLaunch) eng cmd mode a b desc
/-- What Starts asks, as a test. -/
def starts (s : State) (eng cmd : Nat) (desc : Bool) : Bool :=
  let c := (s.cluster 0).chain eng 0
  let x := headCmd s eng
  decide (x.cmd = cmd) && decide (x.scope ≠ 7) && c.started.all (fun y => decide (y.cmd ≠ cmd ∧ assigned y.eng y.cmd = true ∧ y.seq < x.seq)) && canStart s 0 eng 0 &&
    decide (turnTile s 0 eng = some 0) && tileRuns s 0 && cmdReady (startCmd s 0 eng 0) 0 0 desc x && decide (((s.cluster 0).evq.get [] 0).length < 64) && !x.release
theorem starts_of {s : State} {eng cmd : Nat} {desc : Bool} (h : starts s eng cmd desc = true) : Starts s 0 0 eng cmd desc (headCmd s eng) := by
  simp only [starts, Bool.and_eq_true, decide_eq_true_eq, List.all_eq_true, Bool.not_eq_true'] at h
  obtain ⟨⟨⟨⟨⟨⟨⟨⟨h1, h2⟩, h3⟩, h4⟩, h5⟩, h6⟩, h7⟩, h8⟩, h9⟩ := h
  exact ⟨by decide, by decide, rfl, h1, h2, h3, h4, h5, h6, h7, h8, Or.inl h9⟩

theorem witness_TaskCommands :
    (let s := commanded 3 1 false 0 511 (leBytes 128 (entry 1 0).toNat)
     starts s 3 1 true = true ∧ badEntry (BitVec.ofNat 1024 (leNat (spadBytes s 0 0 128))) true = false ∧ pageTile s (s.cluster 0).launchNo 0 = some 0 ∧
     (headCmd s 3).b.toNat = 511 ∧ ((s.cluster 0).task 511).running = false) ∧
    (let s := commanded 3 1 false 0 511 (leBytes 128 (entry 7 0).toNat)
     starts s 3 1 true = true ∧ badEntry (BitVec.ofNat 1024 (leNat (spadBytes s 0 0 128))) true = true) ∧
    starts (commanded 3 2 false 511 0 []) 3 2 false = true ∧ starts (commanded 3 3 false 0x40 0 (leBytes 32 1)) 3 3 true = true ∧
    ((commanded 3 3 false 0x40 0 []).cluster 0).launch = some 0 ∧ aLaunch.consist[0]? = some 0 ∧
    starts (commanded 3 4 true 63 0 []) 3 4 false = true ∧ (headCmd (commanded 3 4 true 63 0 []) 3).mode = true ∧
    starts (commanded 3 4 false 63 0 []) 3 4 false = true ∧ (headCmd (commanded 3 4 false 63 0 []) 3).mode = false ∧
    (let s := (commanded 3 5 false 0 0 []).modCluster 0 (fun K => { K with tlb := ((mapped id).tile 0).tlb })
     let s := { s with mem := s.mem.writes (putBytes (sramKey 0 0) aPacket) }
     starts s 3 5 false = true ∧ (match lvAccess s 0 (s.tile 0).selected (s.cluster 0).tlb 0 64 false with
       | .ok (ps, _) => ps.all (servable s 0) && packetOk s (ps.flatMap s.pieceBytes) | .error _ => false) = true) := by decide +kernel

/-- A cp.bulk descriptor. -/
def bulk (src dst len ss ds : Nat) : List Byte := leBytes 8 src ++ leBytes 8 dst ++ leBytes 4 len ++ leBytes 1 ss ++ leBytes 1 ds ++ leBytes 10 0
/-- The cluster TLB of cluster 0 maps the first page. -/
def hubMapped (s : State) : State := s.modCluster 0 (fun K => { K with tlb := ((mapped id).tile 0).tlb })
theorem witness_CopyCommands_bulk :
    (let s := commanded 1 1 false 0 0 (bulk 0x1FFFC0 0x100 64 1 1)
     memoryOk s = true ∧ starts s 1 1 true = true ∧ descOk (headCmd s 1) = true ∧ bulkOk (descriptor s 0 (headCmd s 1)) = true ∧
     (parseBulk (descriptor s 0 (headCmd s 1))).len = 64) ∧
    (let s := commanded 1 1 false 0 0 (bulk 0 0 0 1 1)
     starts s 1 1 true = true ∧ bulkOk (descriptor s 0 (headCmd s 1)) = false) ∧
    (let s := commanded 1 1 false 0 0 (bulk 0 0x100 8 2 1)
     starts s 1 1 true = true ∧ bulkOk (descriptor s 0 (headCmd s 1)) = true ∧ banksReady (s.cluster 0).mx 2 0 8 = false) ∧
    (let s := hubMapped (commanded 1 1 false 0 0 (bulk 0 0x100 8 0 1))
     starts s 1 1 true = true ∧ bulkOk (descriptor s 0 (headCmd s 1)) = true ∧
     (match lvAccess s 0 (s.tile 0).selected (s.cluster 0).tlb 0 8 false with | .ok (ps, _) => ps.all (servable s 0) | .error _ => false) = true) ∧
    (let s := hubMapped (commanded 1 1 false 0 0 (bulk 0x100 0 8 1 0))
     starts s 1 1 true = true ∧ (match lvAccess s 0 (s.tile 0).selected (s.cluster 0).tlb 0 8 true with
       | .ok ([q], _) => decide (q.size = 8) && (dupOf s q).isNone && decide (q.home = .die 0) && servable s 0 q | _ => false) = true) := by
  decide +kernel
theorem witness_CopyCommands_rest :
    (let s := commanded 1 2 false 0 0 (leBytes 8 0x100 ++ leBytes 4 0x200 ++ leBytes 4 64 ++ leBytes 2 1 ++ [1, 3] ++ leBytes 2 0x8000 ++ leBytes 10 0)
     starts s 1 2 true = true ∧ mcastOk (descriptor s 0 (headCmd s 1)) 1 = true ∧ receivers aLaunch 1 = [0] ∧ (headCmd s 1).task = none ∧
     (parseMcast (descriptor s 0 (headCmd s 1))).bar = some 0) ∧
    (let s := (commanded 1 3 false 0 0 (leBytes 8 0x100 ++ leBytes 4 0 ++ leBytes 4 8 ++ leBytes 2 4095 ++ [1] ++ leBytes 13 0)).modPkg
        (fun p => { p with groups := [(4095, 1)] })
     starts s 1 3 true = true ∧ grpOk (descriptor s 0 (headCmd s 1)) = true ∧ s.pkg.groups.get 0 4095 ≠ 0 ∧ s.pkg.groups.get 0 0 = 0 ∧
     (maskBits (s.pkg.groups.get 0 4095)).filter (fun e => (dieOfEndpoint s e).any (dieEnabled s)) ≠ []) ∧
    (let s := hubMapped (commanded 1 4 false 0 0 (leBytes 8 0 ++ leBytes 8 1 ++ leBytes 8 0 ++ [0x11] ++ leBytes 5 0x100 ++ leBytes 2 0))
     starts s 1 4 true = true ∧ amoDescOk (descriptor s 0 (headCmd s 1)) = true ∧ tagFree s 0 = true ∧
     tagFree (s.modDie 0 (fun D => { D with tags := [0] })) 0 = false ∧
     (match lvAccess s 0 (s.tile 0).selected (s.cluster 0).tlb 0 8 true with | .ok ([_], _) => true | _ => false) = true) ∧
    (let s := commanded 1 5 false 0 0 (leBytes 8 0x100 ++ leBytes 4 0 ++ leBytes 4 8 ++ [1, 0] ++ leBytes 14 0)
     starts s 1 5 true = true ∧ enqDescOk (descriptor s 0 (headCmd s 1)) = true ∧ (dieOfEndpoint s 0).any (fun q => !dieEnabled s q) = false ∧
     (dieOfEndpoint (s.modPkg (fun p => { p with caps := p.caps.put 1 0 })) 0).any (fun q => !dieEnabled (s.modPkg (fun p => { p with caps := p.caps.put 1 0 })) q) = true) := by
  decide +kernel

/-- A command of the copy engine under way. -/
def underWay (st : Stage) : Cmd :=
  { seq := 1, eng := 1, cmd := 4, flags := 0, mode := false, a := 0, b := 0, before := 0, task := none, stage := st, at_ := 0, blocked := [], retryAt := 0,
    banks := 0, accFlags := 0, desc := none, groups := [], clock := [], src := [], fin := [], since := 0, ends := false }
/-- The machine with it. -/
def flying (st : Stage) : State :=
  (placed aLaunch).modCluster 0 (fun K => K.setChain 1 0 { Chain.reset with head := 1, tail := 1, next := 2, first := 2, started := [underWay st] })
/-- What CanEnd asks of a command of the copy engine, as a test. -/
def canEnd (s : State) (x : Cmd) : Bool :=
  canComplete s 0 0 x && decide (((s.cluster 0).evq.get [] 0).length < 64) && ((s.cluster 0).chain x.eng 0).held.isEmpty
theorem canEnd_of {s : State} {x : Cmd} (h : canEnd s x = true) : CanEnd s 0 0 x := by
  simp only [canEnd, Bool.and_eq_true, decide_eq_true_eq, List.isEmpty_iff] at h
  exact ⟨h.1.1, h.1.2, h.2⟩
/-- A group multicast that awaits endpoint 5, which lies in no die. -/
def aGrp : Grp := { since := 0, waiting := [5], ok := 0, failed := [] }
/-- A group message for endpoint 0. -/
def aMsg : GrpMsg := { cluster := 0, tile := 0, endpoint := 0, group := 7, off := 0, data := [1], seq := 1, judged := none, entry := 0, fin := [], clock := [], source := none }
/-- A receive entry of the launch, in the scratchpad. -/
def recvEntry : BitVec 192 := BitVec.ofNat 192 (0x100 + 64 * 2 ^ 64 + 0xC0 * 2 ^ 120)
theorem witness_GroupMessages :
    let s := ((placed aLaunch).modPkg (fun p => { p with grps := [aMsg] })).modDie 0 (fun D => { D with receive := [(7, recvEntry)] })
    let f := flying (.grp aGrp)
    let late := { f with now := 2 ^ 16 }
    s.pkg.grps[0]? = some aMsg ∧ dieOfEndpoint s 0 = some 0 ∧ recvAt recvEntry 15 1 / 128 ≠ 0 ∧ recvAt recvEntry 15 1 / 64 % 2 = 1 ∧
    s.launch (ctxIndex (recvAt recvEntry 12 3)) = some aLaunch ∧ aLaunch.ctxid.toNat = recvAt recvEntry 12 3 ∧ aLaunch.phase ≠ .readOut ∧
    recvAt recvEntry 18 1 < 40 ∧ aMsg.off + aMsg.data.length ≤ recvAt recvEntry 8 4 ∧ recvAt 0 15 1 / 128 = 0 ∧
    judgeGrp s 0 7 0 1 = 0 ∧ grpReaches s 0 aMsg = true ∧ covered s 0 aMsg.clock = true ∧
    (0 : Nat) < granCount (recvAt recvEntry 0 8 % 2 ^ 21 + aMsg.off) aMsg.data.length ∧
    [{ aMsg with judged := some 0, entry := recvEntry, fin := [0] }].find? (fun m => m.cluster = 0 && m.tile = 0 && m.endpoint = 0 && m.over_ 0) =
      some { aMsg with judged := some 0, entry := recvEntry, fin := [0] } ∧
    inFlight s (issuer 0 0) = false ∧ awaiting f 0 0 5 = some (underWay (.grp aGrp), aGrp) ∧ (underWay (.grp aGrp)).eng = 1 ∧
    dieOfEndpoint f 5 = none ∧ awaiting f 0 0 6 = none ∧ (aGrp.heard 5 0).waiting = [] ∧ ({ aGrp with waiting := [5, 6] }.heard 5 0).waiting ≠ [] ∧
    canEnd f (underWay (.grp aGrp)) = true ∧
    aGrp.since + atLeast1 (late.cluster 0).rtmo * ((late.cluster 0).rmax + 1) ≤ late.now ∧
    ¬aGrp.since + atLeast1 (f.cluster 0).rtmo * ((f.cluster 0).rmax + 1) ≤ f.now := by decide +kernel

/-- Where all UALink ports are enabled, up and open, so is that of every endpoint. -/
theorem earOpen_of {s : State} (h : ∀ i, i < 16 → (portEnabled s i && !(s.pkg.port i).down && (s.pkg.port i).receive.open_) = true) (e : Nat) :
    earOpen s e = true := h _ (Nat.mod_lt _ (by decide))
theorem witness_GroupMessages_ear (e : Nat) : earOpen (placed aLaunch) e = true := earOpen_of (by decide +kernel) e
/-- Every UALink port is down. -/
def deaf : State := State.reset.modPkg (fun p => { p with ports := (List.range 16).map (fun i => (i, { ExtPort.reset with down := true })) })
theorem witness_GroupMessages_deaf (e : Nat) : earOpen deaf e = false := by
  have h : ∀ i, i < 16 → (deaf.pkg.port i).down = true := by decide
  simp [earOpen, linkPort, h _ (Nat.mod_lt _ (by decide : 0 < 16))]

/-- A request of cp.amo of die 0. -/
def aRemote : Remote :=
  { tag := 3, sent := 0, retries := 0, held := false, refused := false, since := 0, die := some 0, endpoint := 0, addr := 0, key := sramKey 0 0,
    size := 8, dup := 0, op := 1, t := 1, c := 0, res := 0, handle := 0, wait := false, data := [7], moved := false }
/-- It in flight, at its target. -/
def anAsk (enq : Bool) : Ask := { cluster := 0, tile := 0, die := 0, enq := enq, req := aRemote, moved := false }
theorem witness_RemoteRequests_target :
    let s (enq : Bool) := (placed aLaunch).modPkg (fun p => { p with asks := [anAsk enq] })
    let old := { s false with now := 8400 }
    let known := (s false).modDie 0 (fun D => { D with replies := [{ endpoint := 0, tag := 3, status := 0, value := 5, at_ := 0 }] })
    let bound := (s true).modDie 0 (fun D => { D with queues := [(0, { Queue.reset with bound := some (0, 0) })] })
    let away := (s true).modDie 0 (fun D => { D with queues := [(0, { Queue.reset with forward := some 1 })] })
    (s false).pkg.asks[0]? = some (anAsk false) ∧ ((s false).die 0).replies.find? (fun y => y.endpoint = 0 && y.tag = 3) = none ∧
    (known.die 0).replies.find? (fun y => y.endpoint = (known.die 0).endpoint && y.tag = 3) = some { endpoint := 0, tag := 3, status := 0, value := 5, at_ := 0 } ∧
    8400 ≤ ageOf old 0 * 64 ∧ ageOf (s false) 0 * 64 < 8400 ∧ (match forwardKey (s false) 0 aRemote.key with | .ok k => k.1 == aRemote.key | .error _ => false) = true ∧
    dupOf (s false) { key := aRemote.key, size := 8, home := .die 0, dup := aRemote.dup } = none ∧ servable (s false) 0 { key := aRemote.key, size := 8, home := .die 0 } = true ∧
    forwardedQueue (s true) 0 0 = none ∧ (((s true).die 0).queues.get Queue.reset 0).bound = none ∧ forwardedQueue bound 0 0 = none ∧
    ((bound.die 0).queues.get Queue.reset 0).bound = some (0, 0) ∧ bound.stream 0 0 = some aStream ∧ aRemote.data.length ≤ aStream.extent ∧
    gap (aStream.rsv + 1) aStream.tf ≤ aStream.extent ∧ aStream.extent < gap (4096 + 1) aStream.tf ∧ aStream.outstanding < 64 ∧
    (streamWrite (bound.putStream 0 0 (aStream.reserve 1).1) (some 0) 0 0 0 [7]).isSome = true ∧
    ((aStream.reserve 1).1.publish 0 1).isSome = true ∧ forwardedQueue away 0 0 = some 1 ∧
    (decide362 (s false) 0 9 9 0 (runAmo (s false) 24 0 0 (sramKey 0 0) 8 0 1 1 0)).isSome = true ∧
    outsideHome (s false) 0 9 9 (sramKey 0 0) = (0, sramKey 0 0) ∧ enqTarget bound 0 9 9 0 = 0 ∧
    (let gone := (placed aLaunch).modPkg (fun p => { p with asks := [{ anAsk false with die := 1, req := { aRemote with key := sramKey 1 0 } }] })
     let gone := gone.modDie 1 (fun D => { D with forwards := [(0, .to (sramKey 2 0))] })
     (match forwardKey gone 0 (sramKey 1 0) with | .ok k => k == (sramKey 2 0, true) | .error _ => false) = true ∧ keyHome gone (sramKey 2 0) = .die 2 ∧
     (gone.die 1).replies.find? (fun y => y.endpoint = 0 && y.tag = 3) = none) ∧
    (decide362 bound 0 9 9 0 (runEnq bound none 0 0 [7])).isSome = true := by decide +kernel
theorem witness_RemoteRequests_sender :
    let f := flying (.remote aRemote)
    let x := underWay (.remote aRemote)
    let out := flying (.remote { aRemote with die := none })
    let a : Answer := { cluster := 0, tile := 0, tag := 3, status := 0, value := 5, home := some 1 }
    let late := { f with now := 5000 }
    let spent := { aRemote with retries := 7 }
    f.pkg.answers.find? (fun a => a.cluster = 0 && a.tile = 0) = none ∧
    remoteOf out 0 0 (fun r => r.out && r.die.isNone) = some (underWay (.remote { aRemote with die := none }), { aRemote with die := none }) ∧
    sendsAgain aRemote 0 = false ∧ sendsAgain aRemote stBusy = true ∧ canEnd f x = true ∧
    (f.modPkg (fun p => { p with answers := [a] })).pkg.answers.find? (fun a => a.cluster = 0 && a.tile = 0) = some a ∧
    remoteOf f 0 0 (fun r => r.out && r.tag = 3) = some (x, aRemote) ∧ remoteOf f 0 0 (fun r => r.out && r.tag = 4) = none ∧
    remoteOf late 0 0 (fun r => r.out && r.since + atLeast1 (late.cluster 0).rtmo ≤ late.now) = some (x, aRemote) ∧
    remoteOf f 0 0 (fun r => r.out && r.since + atLeast1 (f.cluster 0).rtmo ≤ f.now) = none ∧ aRemote.retries < (f.cluster 0).rmax ∧
    (f.cluster 0).rmax ≤ spent.retries ∧
    (let g := { flying (.remote { aRemote with refused := true }) with now := 1024 }
     (remoteOf g 0 0 (fun r => r.refused && r.since + atLeast1 (g.cluster 0).rint ≤ g.now)).isSome = true ∧ tagFree g 0 = true) ∧
    (let h := flying (.remote { aRemote with held := true })
     (remoteOf h 0 0 (fun r => r.held)).isSome = true ∧ tagFree (h.modDie 0 (fun D => { D with tags := [0] })) 0 = false) := by decide +kernel

/-! ### Witnesses: reductions, sessions, the matrix engine -/

/-- A red.fab descriptor of one f32 over the cluster at position 0, tag 5. -/
def fabDesc : List Byte := leBytes 4 0x100 ++ leBytes 4 0x200 ++ leBytes 4 1 ++ [9, 0] ++ leBytes 2 1 ++ [5, 0] ++ leBytes 14 0
/-- A participant that waits with it. -/
def aParty (mask : Byte) : RedParty := { pos := 0, tag := 63, cluster := 0, tile := 0, cmd := 1, desc := (fabDesc.set 14 mask).set 16 63 }
/-- A red.est descriptor: ports 0 and 1 of tile 0, one index. -/
def estBytes : List Byte :=
  leBytes 8 7 ++ leBytes 8 0x3FF0000000000000 ++ leBytes 8 0 ++ leBytes 4 1 ++ leBytes 4 0 ++ leBytes 4 0 ++ [0, 0, 4, 0, 0, 1, 9, 0] ++ leBytes 20 0
/-- An open session with a member at position 0. -/
def aMember : Member :=
  { tile := 0, ctx := 0, feed := 0, take := 1, fslot := 0, fpos := 1, vt := 9, chunks := [], sums := [], knows := false, level2 := false, items := 0,
    from_ := 0, cmd := 1, gone := false, owed := 0, sent := 0, closed := false, done := false }
/-- The session. -/
def aSession : Session :=
  { params := [], seed := 7, z := 0, tol := 0, total := 4, nmin := 0, nmax := 4, csz := 2, fin := false, c := 0, n := 0, mean := 0, m2 := 0,
    flags := 0, stopped := false, failed := false, members := [(0, aMember)], ended := false }
/-- The machine with it. -/
def inSession (S : Session) : State := placed { aLaunch with session := some S }

theorem witness_FabricReductions :
    (let s := commanded 2 1 false 0 0 fabDesc
     let d := descriptor s 0 (headCmd s 2)
     starts s 2 1 true = true ∧ (s.cluster 0).launch = some 0 ∧ s.launch 0 = some aLaunch ∧ fabBadMode d = false ∧ descOk (headCmd s 2) = true ∧
     fabOk d (s.cluster 0).pos aLaunch.consist.length = true ∧ tagBusy aLaunch (fabTag d) 0 = false ∧
     tagBusy { aLaunch with reds := [{ aParty 1 with tag := 5 }] } (fabTag d) 0 = true) ∧
    fabBadMode (fabDesc.set 13 4) = true ∧ fabOk (fabDesc.set 12 0) 0 1 = false ∧
    (63 : Nat) < 64 ∧ partiesOf { aLaunch with reds := [aParty 1] } 63 = [aParty 1] ∧ (fabMask (aParty 1).desc).testBit 0 = true ∧
    (fabMask (aParty 3).desc).testBit 1 = true ∧ fabAgree (aParty 1).desc (aParty 1).desc = true ∧ fabAgree (aParty 1).desc (aParty 3).desc = false ∧
    (let s := commanded 2 3 false 0x40 0 []
     starts s 2 3 false = true ∧ estOperands (headCmd s 2) = true) := by decide +kernel
theorem witness_EstimatingSessions_join :
    let s := commanded 2 2 false 0 0 estBytes
    let d := estDesc s 0 (headCmd s 2)
    let slots : Tbl Word := [(0, 1), (64, 0x0100000000000000)]
    let t := s.modTile 0 (fun T => T.modCtx 0 (fun c => { c with block := { c.block with slots := slots } }))
    starts s 2 2 true = true ∧ joinNow s 0 0 = none ∧ (s.cluster 0).launch = some 0 ∧ estOperands (headCmd s 2) = true ∧ estOk d = true ∧
    estBusy s aLaunch 0 0 = false ∧ (s.cluster 0).pos = 0 ∧ openSession aLaunch = none ∧ portFree (s.tile 0) (estFeed d) = true ∧
    portFree (s.tile 0) (estTake d) = true ∧ takeSlotOk (t.tile 0) d = true ∧ openSession { aLaunch with session := some aSession } = some aSession ∧
    estParams d ≠ aSession.params ∧ portFree ((s.tile 0).setPort 0 { Port.reset with loan := true }) 0 = false := by decide +kernel
theorem witness_EstimatingSessions_serve :
    let q : Nat × Nat × Nat × Nat := (1, 0, 0, 0)
    sessionAt (inSession aSession) 0 0 = some (aSession, aMember) ∧ aSession.ended = false ∧ aMember.knows = false ∧ aMember.chunks.length < 2 ∧
    aSession.stopped = false ∧ aSession.c < aSession.nmax ∧ aSession.nmax ≤ { aSession with c := 4 }.c ∧
    (sessionAt (inSession { aSession with members := [(15, { aMember with sums := [q], chunks := [(0, 2)] })] }) 0 15).isSome = true ∧
    (mergeInto (aSession.put 0 { aMember with sums := [], chunks := [] }) q).complete = false ∧
    (mergeInto ({ aSession with c := 4 }.put 0 aMember) q).complete = true ∧ { aMember with knows := true }.stopDue = true ∧ aMember.stopDue = false := by
  decide +kernel

/-- A k-step of node (0, 0, 0). -/
def aKstep : Kstep :=
  { node := { tile := 0, ctx := 0, slot := 0 }, round := 0, imm := 0, amod := 8, width := 1, a := [], b := [], accepted := false,
    bySeq := false, fired := 0, started := false, set := BndSet.reset, check := false }
/-- Cluster 0 of a launch with its matrix engine changed. -/
def mattering (s : State) (f : Matrix → Matrix) : State := s.modCluster 0 (fun K => { K with mx := f K.mx })
theorem witness_MatrixEngine :
    let s := { mattering (placed aLaunch) (fun m => { m with queue := [aKstep] }) with now := 2 }
    let r := mattering (placed aLaunch) (fun m => { m with queue := [{ aKstep with accepted := true }] })
    let e := mattering (placed aLaunch) (fun m => { m with slotMode := true, left := 0, table := [0x00010000, 0x00010000] })
    let on := { aKstep with accepted := true, started := true }
    let u (now : Nat) := { mattering (placed aLaunch) (fun m => { m with queue := [on], busyUntil := 8 }) with now := now }
    (s.cluster 0).mx.queue[0]? = some aKstep ∧ aKstep.fired + 2 ≤ s.now ∧ ((placed aLaunch).cluster 0).mx.queue = [] ∧
    (s.cluster 0).mx.running = none ∧ nextKstep s 0 = none ∧ (r.cluster 0).mx.running = none ∧
    nextKstep r 0 = some { aKstep with accepted := true } ∧ ((u 7).cluster 0).mx.running = some on ∧ (u 7).now < ((u 7).cluster 0).mx.busyUntil ∧
    ((u 8).cluster 0).mx.busyUntil ≤ (u 8).now ∧ (e.cluster 0).mx.running = none ∧ mmaBase aKstep.imm + tileBanks (mmaM aKstep.imm) (mmaN aKstep.imm) aKstep.width ≤ 4 ∧
    aKstep.check = false ∧ (e.cluster 0).mx.slotMode = true ∧ (e.cluster 0).mx.busyUntil ≤ e.now ∧ (e.cluster 0).mx.newTable = none ∧
    slotCycles ((e.cluster 0).mx.table.getD 1 0) ≠ 0 ∧ slotCycles ((e.cluster 0).mx.table.getD 2 0) = 0 := by decide +kernel
theorem witness_MatrixEngine_commands :
    (let s (mode : Bool) (a : Word) := commanded 4 1 mode a 0 []
     starts (s true 1) 4 1 false = true ∧ starts (s true 0) 4 1 false = true ∧ starts (s false 1) 4 1 false = true ∧ (headCmd (s true 1) 4).mode = true ∧
     (headCmd (s false 1) 4).mode = false ∧ (matrixContexts (s true 0) 0).length ≤ 4 ∧
     4 < (matrixContexts ((List.range 5).foldl (fun s c => s.modTile 0 (fun T => T.modCtx c (fun C => { C with block := { C.block with slots := [(0, 0x8900000000000000)] } }))) (s true 0)) 0).length) ∧
    (let s := commanded 4 2 true 0x1FFF00 0 []
     starts s 4 2 false = true ∧ (headCmd s 4).mode = true ∧ tableOk s 0 (readTable s 0 0x1FFF00) = true) ∧
    (let s := commanded 4 2 true 0x40 0 (leBytes 4 1)
     starts s 4 2 false = true ∧ tableOk s 0 (readTable s 0 0x40) = false) ∧
    (let s := commanded 4 3 false 15 0 []
     starts s 4 3 false = true ∧ (headCmd s 4).a.toNat < 16 ∧ ((s.cluster 0).mx.bank 0).tag ≠ .open_) ∧
    (let s := commanded 4 4 false 0x40 0 []
     starts s 4 4 false = true ∧ (headCmd s 4).b = 0) := by decide +kernel

/-! ### Witnesses: invalidation, control, links, the platform -/

/-- A byte of another die. -/
def farPiece : Piece := { key := sramKey 1 0x8000, size := 1, home := .die 1 }
/-- A range under invalidation. -/
def anInval : Inval := { ctxids := [0], lo := 0, len := 16384, ats := none }
/-- A write on its way to die 0. -/
def aReq : Req :=
  { id := 4, src := 1, home := 0, clock := [], no := 1, tile := 160, round := none, piece := { key := sramKey 0 0, size := 1, home := .die 0 },
    data := [7], amo := none, cmd := none, addr := 0, since := 0, retries := 0, holders := [], dropped := [] }
theorem witness_InvalidationAndRequests :
    let s := State.reset.modDie 23 (fun D => { D with invals := [anInval] })
    let p := (placed aLaunch).modDie 0 (fun D => { D with pri := [(0, 3)] })
    let r (q : Req) := State.reset.modPkg (fun p => { p with reqs := [q] })
    (23 : Nat) < dieCount ∧ (s.die 23).invals = [anInval] ∧ (State.reset.die 0).invals = [] ∧
    accessLeft s anInval 23 = false ∧
    (let q := (mapped (fun q => { q with loads := [{ no := 0, d := 5, pieces := [lvPiece], got := [], sgn := false, value := none, addr := 0, since := 0, retries := 0 }] }))
     accessLeft q anInval 0 = true) ∧ (p.die 0).pri.contains (0, 3) = true ∧ p.launch (ctxIndex 0) = some aLaunch ∧ aLaunch.ctxid.toNat = 0 ∧
    (State.reset.die 0).pri.contains (0, 3) = false ∧ requestOf (r aReq) 4 = some aReq ∧ reqReady (r aReq) aReq = true ∧
    reqReady (r { aReq with holders := [2] }) { aReq with holders := [2] } = false ∧ requestOf (r { aReq with holders := [2] }) 4 = some { aReq with holders := [2] } ∧
    covered (setRequest (r { aReq with dropped := [2] }) aReq) 0 [] = true ∧ requestOf State.reset 4 = none := by decide +kernel
/-- A control word of an op for context 0. -/
def ctl (op : Nat) : Word := BitVec.ofNat 64 (op * 2 ^ 60)
theorem witness_ControlAndLanes :
    let s := (placed aLaunch).modDie 0 (fun D => { D with spcount := 1 })
    let saved := { aLaunch with phase := .readOut, saved := [noSaved], savedClusters := [Cluster.reset], consist := [], place := [] }
    let out := { aLaunch with saved := [noSaved] }
    let rec_ : Rec := s.tileRec 0 true 0 5 0 []
    let lane := State.reset.modDie 0 (fun D => { D with slots := [rec_] })
    let full := lane.modDie 0 (fun D => { D with amber := { D.amber with lwr := 16 } })
    (State.reset.die 0).busy = false ∧ ctlOp (ctl 1) = 1 ∧ ctlOp (ctl 15) = 15 ∧ ctlOp (ctl 0) = 0 ∧ ctlReserved (ctl 1) = true ∧
    State.reset.launch 0 = none ∧ s.launch 0 = some aLaunch ∧ ctlCtxid (ctl 1) = 0 ∧ controlDie aLaunch (ctlPage (ctl 1)) = 0 ∧
    (freeFrames (s.die 0)).length = 1 ∧ (freeFrames (State.reset.die 0)).length < aLaunch.pages ∧ aLaunch.place.any (unplaced s) = false ∧
    (let busy := s.modDie 0 (fun D => { D with waiting := [s.tileRec 0 true 0 5 0 []] })
     aLaunch.place.any (unplaced busy) = true) ∧ aLaunch.dead = false ∧ { aLaunch with dead := true }.dead = true ∧ controlDie saved 0 = 0 ∧ chooseClusters (placed saved) 0 1 = some [1] ∧ aLaunch.place[0]? = some 0 ∧ unplaced s 0 = false ∧
    (s.tile 0).seq.phase ≠ .stopped ∧ (seqState (fun q => { q with phase := .stopped })).tiles ≠ [] ∧
    (∀ k ∈ out.consist, readoutReady (placed out) k = true) ∧ out.saved ≠ [] ∧ out.phase ≠ .readOut ∧ rec_.amber = true ∧
    (lane.die 0).amber.room = true ∧ (lane.die 0).slots.find? (fun r => r.amber) = some rec_ ∧ (full.die 0).amber.room = false ∧
    nextRecord (full.die 0) = none ∧ nextRecord ((State.reset.modDie 0 (fun D => { D with slots := [{ rec_ with amber := false }] })).die 0) = some { rec_ with amber := false } := by
  decide +kernel
/-- An ingress message of one byte for entry 0. -/
def aMessage : List Byte := leBytes 8 0 ++ [7]
/-- An ingress entry of the launch's stream, of a policy. -/
def inEntry (hold : Bool) : Ingress := { image := BitVec.ofNat 64 (2 ^ 47 + hold.toNat * 2 ^ 46), delivered := 0, dropped := 0 }
theorem witness_LinksAndIngress :
    let s (hold : Bool) := (placed aLaunch).modDie 0 (fun D => { D with ingress := [(0, inEntry hold)] })
    let full := (streaming { aStream with rsv := 4096 }).modDie 0 (fun D => { D with ingress := [(0, inEntry true)], held := [(3, aMessage)] })
    let tired := State.reset.modDie 0 (fun D => D.setLink 3 { Link.reset with retries := 16 })
    let late := { State.reset.modPkg (fun p => { p with reqs := [aReq] }) with now := 65536 }
    let loads := { rounded (.fabLds (to5 0 0)) [] (fun r => { r with loads := [{ aLoad with pieces := [farPiece] }] }) with now := 65536 }
    let waits := { (loading.modSeq 0 (fun q => { q with phase := .running, loads := q.loads.map (fun l => { l with pieces := [farPiece] }) })) with now := 65536 }
    ((State.reset.die 23).link 3).up = true ∧ ((State.reset.die 23).link 3).dead = false ∧ ((tired.die 0).link 3).retries = 16 ∧
    ((State.reset.die 0).link 0).retries < 16 ∧ (State.reset.pkg.port 15).receive.nextv = false ∧ (State.reset.pkg.port 15).receive.stopped = false ∧
    ((s true).die 0).stalled 0 = false ∧ inValid (((s true).die 0).entry 0).image = true ∧ inHold (((s true).die 0).entry 0).image = true ∧
    inHold (((s false).die 0).entry 0).image = false ∧ liveLaunch (s true) (inCtxid (((s true).die 0).entry 0).image) = some (0, aLaunch) ∧
    (s true).stream 0 (inHandle (((s true).die 0).entry 0).image) = some aStream ∧ 8 ≤ aMessage.length ∧ leAt aMessage 1 7 = 0 ∧ 5 ≤ aStream.scope ∧
    gap (aStream.rsv + 1) aStream.tf ≤ aStream.extent ∧ aStream.extent < gap (4096 + 1) aStream.tf ∧ (full.die 0).stalled 3 = true ∧
    (full.die 0).held.find 3 = some aMessage ∧ (match ingressFate full 0 aMessage with | .held => true | _ => false) = true ∧
    (match ingressFate (s true) 0 aMessage with | .written _ _ => true | _ => false) = true ∧
    late.pkg.reqs.find? (fun r => r.id = 4) = some aReq ∧ timedOut late aReq.src 0 = true ∧ timedOut State.reset 1 0 = false ∧
    aReq.retries < (late.cluster (clusterOf aReq.tile)).rmax ∧ ((loads.tile 0).round.bind (fun r => r.loads[0]?)).isSome = true ∧
    remotePieces 1 [lvPiece] = true ∧ remotePieces 0 [farPiece] = true ∧ timedOut loads 0 0 = true ∧ (waits.tile 0).seq.loads[0]?.isSome = true ∧ (waits.tile 0).seq.phase = .running ∧
    (let s := { State.reset with now := 4096 }
     (s.cluster 0).routerDown = false ∧ 2 ^ (s.die 0).ridle ≤ routerIdle s 0 ∧ onStaticRoute s 0 = false) := by decide +kernel
/-- Boot refused: an image too short. What else the ROM asks of an image, and what authorises a transition, are free values of the model. -/
theorem witness_Platform :
    let p := State.reset.pkg
    let up := State.reset.modPkg (fun p => { p with bootstat := 2 })
    let b := State.reset.modPkg (fun p => { p with bootstat := 1, bootlen := 1 })
    (p.bootstat = 0 ∧ p.wiping = false) ∧ b.pkg.bootstat = 1 ∧ imageOk b.pkg (bootImage b) = false ∧ up.pkg.life.next = some .provisioned ∧
    up.pkg.bootstat = 2 ∧ Life.next .returned = none ∧ { p with wiping := true }.wiping = true ∧ { p with identity := some (0, 0) }.identity = some (0, 0) ∧ p.identity = none ∧
    (9 : Nat) ≤ 9 ∧ (State.reset.die 0).scrubHeld.find 1 = none ∧ slotFree (State.reset.die 0) true = true ∧ p.lastFlush + 2 ^ 36 ≤ { State.reset with now := 2 ^ 36 }.now ∧
    State.reset.now < p.lastFlush + 2 ^ 36 ∧ 4 < bits (0x0500000000000000 : Word) 63 56 ∧ deviceMemory State.reset 0 false (2 ^ 30 - 1) 1 = true ∧
    deviceMemory State.reset 0 false (2 ^ 30) 1 = false ∧ keyInside (sramKey 0 0) = true ∧ keyInside (hostKey 0) = false := by decide +kernel
theorem witness_DecodeOfEncode : wellFormed (.add 4 5 14) = true ∧ wellFormed (.fabMov { pm := 1, mod := 0, t0 := 0x105, t1 := 0, imm := 0 }) = true ∧
    wellFormed (.cfgWrite 3 5 2 0xBEEF) = true ∧ (match encode (.add 4 5 14) with | .seq w => w.toNat | _ => 0) = 0x04857000 := by decide +kernel
theorem witness_EncodeOfDecode : (∃ i, decodeSeq 0x04857000 = .ok i) ∧ (∃ i, decodeSlot 0x1001050000000000 = .ok i) ∧
    (∃ i, decodeCfg (0b0#1 ++ 0x3#4 ++ 0x05#6 ++ 0x02#5 ++ 0xBEEF#16) = .ok i) := ⟨⟨_, rfl⟩, ⟨_, rfl⟩, ⟨_, rfl⟩⟩
/-- Tile 0 runs the word of an instruction at its pc. -/
def runsWord (w : Nat) : State := { placeSeq State.reset w with agenda := [] }
theorem witness_StepRunsDecodedInstruction :
    (let s := runsWord 0x04857000
     s.agenda = [] ∧ s.pkg.shutDown = false ∧ s.focus.tile < tileCount ∧ (s.tile 0).live = true ∧ (s.tile 0).seq.phase = .running ∧
     decodeBytes (fetchBytes s 0) = .ok (.add 4 5 14)) ∧
    (∃ e, decodeBytes (fetchBytes (runsWord 0) 0) = .error e) ∧
    (let s := placeSlot State.reset 0x1001050000000000
     s.agenda = [(0, .slot 0 0 0)] ∧ decodeSlot (((s.tile 0).ctx 0).block.word 0) = .ok (.fabAdd { pm := 0, mod := 0, t0 := 0x105, t1 := 0, imm := 0 })) ∧
    isEvent .bootgo = true ∧ configuring.cfg.words = [0, 0] ∧ (∃ i, decodeCfg 0 = .ok i) :=
  ⟨⟨rfl, rfl, by decide, by decide +kernel, by decide +kernel, rfl⟩, ⟨_, rfl⟩, ⟨rfl, rfl⟩, by decide +kernel, rfl, ⟨_, rfl⟩⟩
/-- The sequencers of tiles 0 and 1 each have a word to run in one cycle, that of tile 0 first on the agenda. -/
def together (a b : Instr) : State :=
  let w (i : Instr) : Nat := match encode i with | .seq w => w.toNat | _ => 0
  let s := (placed aLaunch).modTile 1 (fun T => { T with launch := some 0 })
  let s := { placeSeq { placeSeq s (w a) with focus := { s.focus with tile := 1 } } (w b) with focus := s.focus }
  { s with agenda := [(0, .seq 0), (0, .seq 1)] }
-- R170: within a cycle clears and takes come before sets, so that a set wins.
theorem test_clear_before_set : (nextTurn (together (.evSet 0) (.evClr 0))).2 = .seq 1 := by decide +kernel
-- R178: the write of the highest tile stands, so that its turn comes last.
theorem test_tag_writes_in_tile_order : (nextTurn (together (.tset 0 0) (.tset 0 0))).2 = .seq 0 := by decide +kernel
theorem witness_StepRunsDecodedInstruction_order :
    (let s := together (.evSet 0) (.evClr 0)
     let s0 := pass { s with agenda := [(0, .seq 1)] } 0
     let cycle : List Turn := [.seq 0, .seq 1]
     cycle.all (fun y => !comesBefore (turnPlaces s0 y) (turnPlaces s0 (.seq 1))) = true) := by decide +kernel
theorem witness_StepRunsDecodedInstruction_turns :
    (let s := { State.reset with agenda := [(0, .event .bootgo), (3, .seq 0)] }
     nextTurn s = (pass { s with agenda := [(3, .seq 0)] } 0, .event .bootgo)) ∧
    (nextTurn { State.reset with agenda := [] }).2 = .seq 0 := by decide +kernel
theorem witness_MemoryStaysCanonical : memoryOk State.reset = true ∧ ∃ t, step State.reset = .next t := ⟨by decide +kernel, _, rfl⟩
theorem witness_EveryInstructionCompletes : wellFormed .nop = true ∧ focusOk State.reset = true ∧
    focusOk { State.reset with focus := { tile := 3839, ctx := 7, slot := 127, launch := 16383 } } = true ∧ focusOk { State.reset with focus := { tile := 3840, ctx := 0, slot := 0, launch := 0 } } = false := by
  decide +kernel

/-! ### Witnesses of further clauses -/

/-- A leaf entry of a page size and tier, present and readable. -/
def leafOf (size tier : Nat) : Nat := 3 * 2 ^ 62 + size * 2 ^ 59 + tier * 2 ^ 57 + 2 ^ 56 + 2 ^ 53
/-- Page tables of die 0 from its root 0 on: pointers from level to level, and leaves of every size. -/
def tables : List (Nat × Nat) :=
  [(0, 2 ^ 63 + 0x20000), (8, leafOf 7 3), (16, 2 ^ 63 + 2 ^ 48), (0x20000, 2 ^ 63 + 0x40000), (0x20008, leafOf 4 0), (0x40000, 2 ^ 63 + 0x40800),
   (0x40008, leafOf 2 1), (0x40010, leafOf 3 2), (0x40018, leafOf 0 0), (0x40800, leafOf 0 0), (0x40808, leafOf 1 3), (0x40810, leafOf 0 0 - 2 ^ 53),
   (0x40818, 2 ^ 63)]
/-- A package with these tables. -/
def walked : State := { State.reset with mem := State.reset.mem.writes (tables.flatMap (fun p => putBytes (sramKey 0 p.1) (leBytes 8 p.2))) }
/-- The cause of the fault that translating an address for a read gives in context 0, 0 where it translates. -/
def walkCause (s : State) (wr : Bool) (lv : Nat) : Nat :=
  match Machine.lvPiece s 0 Ctx.reset [] wr lv with | .ok _ => 0 | .error f => f.cause
/-- The walk of an address from a level down: the leaf and log2 of its page size. -/
def walkOf (lv : Nat) : Nat × Nat := match walkFrom walked 0 lv 3 0 with | .ok (e, n) => (e.toNat, n) | .error c => (c, 0)
-- The five levels and sizes, an entry that is not valid, a leaf at the wrong level, a reserved bit, a pointer at L0, an absent leaf, and a
-- missing permission.
theorem witness_TranslationAndFaultingOperands_walk :
    [0, 2 ^ 14, 2 ^ 22, 2 ^ 23, 2 ^ 30, 2 ^ 44].map walkOf = [(leafOf 0 0, 14), (leafOf 1 3, 18), (leafOf 2 1, 22), (leafOf 3 2, 26), (leafOf 4 0, 30), (leafOf 7 3, 44)] ∧
    [2 ^ 24, 3 * 2 ^ 22, 2 ^ 45, 3 * 2 ^ 14, 2 ^ 15].map (walkCause walked false) = [9, 0xA, 0xA, 0xA, 0xC] ∧ walkCause walked true 0 = 0xB ∧
    walkCause walked false 0 = 0 ∧ frameOk walked (BitVec.ofNat 64 (leafOf 2 1)) 22 = true ∧ walkCause walked false (2 ^ 44) = 0xD ∧
    (walked.modPkg (fun p => { p with resident := [(0, 2 ^ 30)] })).pkg.resident.contains (0, 2 ^ 30) = true := by decide +kernel
/-- A duplicated page of dies 0 and 1, whose home copy is that of die 1. -/
def aDup : Dup := { ctxid := 0, page := 0, homeKey := sramKey 1 0, copies := [(0, sramKey 0 0), (1, sramKey 1 0)], dropped := [] }
/-- A store of tile 0 to a place. -/
def storeTo (p : Piece) : SeqStore := { byteStore with piece := p }
/-- Tile 0 with such a store in its queue, and the duplicated page. -/
def storingTo (p : Piece) : State :=
  (seqState (fun q => { q with no := 1, queue := [storeTo p] })).modPkg (fun k => { k with dups := [aDup] })
/-- A byte of another package, of the duplicated page. -/
def outPiece : Piece := { key := remoteKey 30 false 0, size := 1, home := .outside }
def dupPiece : Piece := { key := sramKey 0 4, size := 1, home := .die 0, dup := 14 }
theorem witness_StoresFromQueueToMemory_sent :
    [farPiece, outPiece, dupPiece].all (fun p => drainReady (storingTo p) 0 0 (storeTo p)) = true ∧ dupOf (storingTo farPiece) farPiece = none ∧
    dupOf (storingTo outPiece) outPiece = none ∧ keyKind outPiece.key = 4 ∧ dupOf (storingTo dupPiece) dupPiece = some (aDup, 0, 4) ∧
    keyHome (storingTo dupPiece) aDup.homeKey = .die 1 := by decide +kernel
/-- A store of a round that the sequencer started, on its way. -/
def aWrite : RoundWrite := { no := 0, place := 0, port := none, ctx := 0, slot := 0, bySeq := true }
theorem witness_Fences_wide :
    (let s := State.reset.modPkg (fun p => { p with reqs := [{ aReq with tile := 0, round := some aWrite, piece := dupPiece }, { aReq with tile := 0, piece := dupPiece }] })
     s.pkg.reqs.any (fun r => r.tile = 0 && r.round.isSome) = true ∧
     s.pkg.reqs.any (fun r => r.tile = 0 && r.piece.dup != 0 && r.round.any (fun w => w.bySeq)) = true ∧
     s.pkg.reqs.any (fun r => r.tile = 0 && r.round.isNone && r.cmd.isNone && r.piece.dup != 0) = true ∧
     4 ≤ (4 : BitVec 3).toNat) := by decide +kernel
theorem witness_ContextControlAndEnd_task :
    (let s := (tasked (entry 1 0) true).modSeq 0 (fun q => { q with task := some 511 })
     drained s 0 = true ∧ (sq s).queue = [] ∧ (sq s).loads = [] ∧ inFlight s 0 = false ∧ (sq s).task = some 511 ∧ ((s.cluster 0).task 511).running = true ∧
     ((State.reset.cluster 0).task 0).running = false) := by decide +kernel
theorem witness_FabricMemoryTraffic_sent :
    (let s (h : Held) : State := (State.reset.modTile 0 (fun T => { T with drain := [h] })).modPkg (fun k => { k with dups := [aDup] })
     let h (p : Piece) (amo : Option (Nat × Nat)) : Held := { aHeld amo with pieces := [p] }
     [farPiece, outPiece, dupPiece].all (fun p => !((s (h p none)).tile 0).olderWrites 0) = true ∧ dupOf (s (h farPiece none)) farPiece = none ∧
     farPiece.home = .die 1 ∧ dupOf (s (h outPiece none)) outPiece = none ∧ (h farPiece (some (1, 3))).amo = some (1, 3) ∧
     dupOf (s (h dupPiece none)) dupPiece = some (aDup, 0, 4)) := by decide +kernel
/-- Slot 0 a mma with operand tokens, on tile 0 of a launch on clusters 0 and 1, the member of its gang, if it has one, on tile 4. -/
def multiplying (imm : BitVec 30) (a b : List Tok) (g : Round → Round) : State :=
  let on (imm : BitVec 30) (a b : List Tok) : Tile :=
    { (rounded (.fabMma (to5 0 imm)) [] (fun r => g (r.setSt 0 { SlotSt.reset with toks := a, toksR := b }))).tile 0 with launch := some 0 }
  { placed { aLaunch with place := [0, 4], consist := [0, 1] } with
    tiles := [(0, on imm a b), (4, on (imm ||| 0x80) [] [])],
    clusters := [(0, { Cluster.reset with launch := some 0 }), (1, { Cluster.reset with launch := some 0, pos := 1 })] }
/-- The node of tile 0. -/
def mmaNode (imm : BitVec 30) (s : State) : Fab := slotFab s 0x89 (to5 0 imm)
/-- Is it ready, its members free, for its turn? -/
def mmaReady (imm : BitVec 30) (s : State) : Bool :=
  let e := mmaNode imm s
  predPresent e.r 0x89 e.f e.slot && e.space && decide (e.mx.unperformed e.node < 2) && e.members.all (memberFree s (mmaCastPos imm.toNat)) &&
    acceptable e.mx e.node e.r.no 0 (mmaM imm.toNat) (mmaN imm.toNat) e.mmaWidth s.now && !(e.mmaPred.any (·.null)) && !refuses e.f 0x89 e.mmaPred
/-- n vector tokens of a value. -/
def vecs (n v : Nat) : List Tok := List.replicate n (dataTok .vector (BitVec.ofNat 512 v) [])
theorem witness_MatrixAndBoundNodes_gang :
    (let imm : BitVec 30 := 0x200
     let s := multiplying imm (vecs (panelA 0 0x200) 1) (vecs (panelB 0 0x200) 1) id
     mmaReady imm s = true ∧ mmaGat 0x200 = false ∧ (mmaNode imm s).members = [(4, 0, 0)] ∧ (4 : Nat) ≠ (mmaNode imm s).t ∧
     (mmaNode imm s).opA = .panel (vecs (panelA 0 0x200) 1) ∧ (mmaNode imm s).opB = .panel (vecs (panelB 0 0x200) 1)) := by decide +kernel
theorem witness_MatrixAndBoundNodes_rows :
    (let s (a b : List Tok) := multiplying 0 a b id
     let null : List Tok := [{ num 0 with null := true }]
     let stop (k : Nat) : List Tok := [stopTok .vector k []]
     mmaReady 0 (s null (stop 1)) = true ∧ (mmaNode 0 (s null (stop 1))).opA = .null ∧ (mmaNode 0 (s null (stop 1))).whole = true ∧
     mmaReady 0 (s (stop 2) (stop 2)) = true ∧ (mmaNode 0 (s (stop 2) (stop 2))).opA = .stop 2 ∧ (mmaNode 0 (s (stop 2) (stop 2))).opB = .stop 2 ∧
     mmaReady 0 (s (stop 1) (stop 2)) = true ∧ (mmaNode 0 (s (stop 1) (stop 2))).whole = true ∧ (mmaNode 0 (s (stop 1) (stop 2))).opB = .stop 2) := by
  decide +kernel
theorem witness_MatrixAndBoundNodes_gather :
    (let imm : BitVec 30 := 0x1000
     let s (v : Nat) (b : List Tok) := multiplying imm (vecs (panelIndex 0x1000) v) b id
     let full (v : Nat) := s v (vecs (panelB 0 0x1000) 1)
     let group : State := (multiplying imm [] [{ num 0 with null := true }] id).modCluster 0 (fun K =>
       { K with mx := { K.mx with gathers := [{ node := { tile := 0, ctx := 0, slot := 0 }, rows := [], steps := 1, cache := [], deps := [] }] } })
     mmaReady imm (full 0) = true ∧ mmaGat 0x1000 = true ∧ (mmaNode imm (full 0)).group = none ∧ (0x1000 : Nat) / 2 ^ 11 % 2 = 0 ∧
     (mmaNode imm (full 0)).opA = .panel (vecs (panelIndex 0x1000) 0) ∧ (mmaNode imm (full 1)).opB = .panel (vecs (panelB 0 0x1000) 1) ∧
     1 % mmaRowBytes 0 ≠ 0 ∧ 1 + mmaRowBytes 0 ≤ 2 ^ 21 ∧ mmaReady imm group = true ∧ (mmaNode imm group).group.isSome = true ∧
     (mmaNode imm group).members = [] ∧ (mmaNode imm group).opA = .partial_ ∧ (mmaNode imm group).opB = .null) := by decide +kernel
theorem witness_RoundsStartAndCommit_held :
    (let s := (blocked (some seqRun)).modTile 0 (fun T => T.setPort 2 { Port.reset with prog := some (lvProg true), fault := some (9, 64, none) })
     heldFault (s.tile 0) 0 = some (2, 9, 64, none) ∧ (s.tile 0).seq.queue = [] ∧
     (let q := (storing 1).modTile 0 (fun T => T.modCtx 0 (fun c => { c with run := some { seqRun with below := 1 } }))
      ∃ y ∈ (q.tile 0).seq.queue, y.no < 1)) := by
  refine ⟨by decide +kernel, by decide +kernel, byteStore, by decide +kernel, by decide⟩
theorem witness_RoundsStartAndCommit_gang :
    (let s := multiplying 0x200 [] [] (fun r => { r with ganged := true })
     gangOf s 0 0 = [(4, 0)] ∧ inSet s 0 0 (4, 0) = true ∧ canCommit s 0 = true ∧ canCommit s 4 = true ∧ (s.tile 0).launch = some (s.tile 0).launchNo ∧
     aLaunch.session = none) := by decide +kernel
theorem witness_PortsOfARound_sent :
    (let w : PortWrite := { addr := 0, data := [7], c := 0, no := 0, deps := [1], xlat := none }
     let far : Xlat := { ctxid := 0, page := 0, span := 14, leaf := BitVec.ofNat 64 (2 ^ 43), rd := true, wr := true }
     let P : Port := { Port.reset with prog := some (lvProg true), committed := [w], tlb := [far] }
     let s := (porting P).modTile 0 (fun T => { T with drain := [{ aHeld none with place := 0 }] })
     publishDue s 0 0 = false ∧ P.winBlocked = none ∧ P.fault = none ∧ (s.tile 0).olderWrites 0 = false ∧
     ((s.tile 0).drain.all (fun x => !(x.no = 0 && w.deps.contains x.place))) = true ∧ P.mustFlush (lvProg true) 0 = false ∧
     (match portPiece s 0 P (lvProg true) none 0 with | .ok (q, x) => decide (q.home = .die 1) && !x.2 && (dupOf s q).isNone | .error _ => false) = true) := by
  decide +kernel
theorem witness_PortsOfARound_publish :
    (let s := porting { Port.reset with prog := some { streamProg with write := true, pub := true }, pubDue := [(0, 0)], cursor := 0 }
     publishDue s 0 0 = true ∧ (aStream.advanceHwm (streamOff 0)).isSome = true ∧ s.stream 0 (streamHandle streamProg.base) = some aStream) := by decide +kernel
theorem witness_StreamCommands_unbind :
    (let s := (placed aLaunch).modDie 0 (fun D => { D with queues := [(1, { Queue.reset with bound := some (0, 0), gen := 1023 }), (2, { Queue.reset with retired := true })] })
     ((s.die 0).queues.get Queue.reset 1).bound = some (0, 0) ∧ ((s.die 0).queues.get Queue.reset 1).retired = false ∧
     ((s.die 0).queues.get Queue.reset 2).retired = true) := by decide +kernel
theorem witness_TaskEngine_commands :
    (let s (a : Word) : State := (chained (tasked (entry 2 0) true) 4 3 false a 0 []).modCluster 0 (fun K =>
       K.setChain 4 0 { K.chain 4 0 with notes := [(0, (0, some 511))] })
     starts (s 0) 4 3 false = true ∧ (headCmd (s 0) 4).task = some 511 ∧ (((s 0).cluster 0).task 511).running = true ∧
     starts (s 16) 4 3 false = true ∧ (headCmd (s 0) 4).a = 0 ∧ (headCmd (s 0) 4).b = 0 ∧ 16 ≤ (headCmd (s 16) 4).a.toNat) := by decide +kernel
/-- Cluster 0 with the first page of LV space on die 1. -/
def hubFar (s : State) : State :=
  s.modCluster 0 (fun K => { K with tlb := [{ ctxid := 0, page := 0, span := 14, leaf := BitVec.ofNat 64 (2 ^ 43), rd := true, wr := true }] })
/-- Every UALink port disabled. -/
def portless (s : State) : State := s.modPkg (fun p => { p with caps := p.caps.put 0x1B 0 })
theorem portless_there (s : State) (e : Nat) (h : ((portless s).cap 0x1B) = 0) : endpointThere (portless s) e = false := by
  simp [endpointThere, h]
theorem witness_CopyCommands_far :
    (let s := hubFar (commanded 1 1 false 0 0 (bulk 0x100 0 8 1 0))
     starts s 1 1 true = true ∧ (match lvAccess s 0 (s.tile 0).selected (s.cluster 0).tlb 0 8 true with
       | .ok ([q], _) => decide (q.size = 8) && (dupOf s q).isNone && decide (q.home = .die 1) | _ => false) = true) ∧
    ((portless State.reset).cap 0x1B = 0 ∧ (dieOfEndpoint State.reset 5).isNone = true ∧ maskBits 32 = [5] ∧ (32 : BitVec 1024) ≠ 0) := by decide +kernel
theorem witness_GroupMessages_parts :
    (let m : GrpMsg := { aMsg with data := List.replicate 257 1, judged := some 0, entry := recvEntry, fin := [0, 1, 2, 3], source := some 9 }
     let s := ((placed aLaunch).modPkg (fun p => { p with grps := [m] })).modDie 0 (fun D => { D with receive := [(7, recvEntry)] })
     s.pkg.grps[0]? = some m ∧ grpReaches s 0 m = true ∧ granCount 0x100 m.data.length = 5 ∧ m.fin.contains 4 = false ∧ granLen 0x100 257 4 = 1 ∧
     covered s 0 m.clock = true ∧ m.source = some 9 ∧ { m with judged := some 3 }.judged = some 3 ∧ { m with judged := some 3 }.over_ 0 = true ∧
     aMsg.judged = none ∧ { m with fin := [0, 1, 2, 3, 4] }.over_ 0 = true ∧ m.over_ 0 = false) := by decide +kernel
theorem witness_EstimatingSessions_refused :
    (let s := commanded 2 2 false 0 0 estBytes
     let d := estDesc s 0 (headCmd s 2)
     takeSlotOk (s.tile 0) d = false ∧
     (let other := { aSession with params := estParams d }
      let own := { aLaunch with session := some { other with members := [(0, aMember)] } }
      openSession own = some { other with members := [(0, aMember)] } ∧ estBusy s own 0 1 = false ∧ ((s.modCluster 0 (fun K => { K with pos := 1 })).cluster 0).pos = 1)) := by decide +kernel
theorem witness_EstimatingSessions_cycle :
    (let m := { aMember with owed := 1 }
     let S := { aSession with members := [(0, m)] }
     let due := { aSession with members := [(0, { aMember with knows := true })] }
     let cut := inSession { aSession with members := [(0, { aMember with chunks := [(0, 0)] })] }
     sessionAt (inSession S) 0 0 = some (S, m) ∧ S.stopped = false ∧ S.c < S.nmax ∧ { S with stopped := true }.stopped = true ∧
     aLaunch.phase ≠ .readOut ∧ due.members.find? (fun p => p.1 % 16 = 0 && p.2.stopDue) = some (0, { aMember with knows := true }) ∧
     aSession.members.find? (fun p => p.1 % 16 = 1 && p.2.stopDue) = none ∧ aSession.members.find 0 = some aMember ∧ aMember.gone = false ∧
     aMember.level2 = false ∧ ((cut.tile 0).port 0).givenNow = 0 ∧ ((cut.tile 0).port aMember.take).buf.length = 0) := by decide +kernel
theorem witness_InvalidationAndRequests_atomics :
    (let r : Req := { aReq with amo := some 1 }
     let s := State.reset.modPkg (fun p => { p with reqs := [r], lost := [(9, 3)], dups := [aDup] })
     requestOf s 4 = some r ∧ covered s r.home r.clock = true ∧ requestOf s 9 = none ∧ s.pkg.lost.find? (fun q => q.1 = 9) = some (9, 3) ∧
     s.pkg.lost.find? (fun q => q.1 = 8) = none ∧
     s.pkg.dups.find? (fun d => d.homeKey ≤ dupPiece.key && dupPiece.key < d.homeKey + 2 ^ 14) = none ∧
     s.pkg.dups.find? (fun d => d.homeKey ≤ sramKey 1 4 && sramKey 1 4 < d.homeKey + 2 ^ 14) = some aDup) := by decide +kernel
theorem witness_ControlAndLanes_resume :
    (let past := seqState (fun q => { q with phase := .stopped, tcause := 0x40000003, tepc := 0x3FFF })
     (past.tile 0).seq.phase = .stopped ∧ (past.tile 0).seq.mode = false ∧ (past.tile 0).seq.tcause.getLsbD 30 = true ∧ (past.tile 0).seq.tepc = 0x3FFF ∧
     ctlOp (ctl 3) = 3 ∧ ctlPage (ctl 3) < aLaunch.pages ∧ ctlOp (ctl 4) = 4 ∧ ctlOp (ctl 2) = 2 ∧ (State.reset.pkg.driverAbsent = false)) := by
  decide +kernel
theorem witness_LinksAndIngress_links :
    (let one (f : Link → Link) : Link := (State.reset.modDie 0 (fun D => D.setLink 0 (f Link.reset))).die 0 |>.link 0
     let full := one (fun l => { l with next := 128, buf := List.replicate 128 0 })
     let again := one (fun l => { l with next := 3, buf := [1, 2, 3], resendFrom := some 1 })
     (full.buf.drop 0).length = 128 ∧ full.resendFrom = none ∧ (again.resendFrom.map (· - 1)) = some 0 ∧ again.buf.drop 1 = [2, 3] ∧
     ackedBy again 1 = 1 ∧ (0x8000 : BitVec 16).getLsbD 15 = true ∧ (one (fun l => { l with dead := true })).dead = true ∧
     (one (fun l => { l with draining := true })).draining = true) := by decide +kernel
/-- A transmit key at its end, with a message that waits behind it. -/
def keyed (nextv : Bool) : State := State.reset.modPkg (fun p =>
  { p with ports := [(3, { ExtPort.reset with transmit := { KeyDir.reset with nextv := nextv, count := keySpent }, waiting := [.upliRead 0 0 8] })] })
theorem witness_LinksAndIngress_keys :
    (let d (b : Bool) := ((keyed b).pkg.port 3).dir false
     keySpent ≤ (d true).count ∧ (d true).stopped = false ∧ ((keyed true).pkg.port 3).waiting = [.upliRead 0 0 8] ∧ (d true).nextv = true ∧
     (d false).nextv = false ∧ ((keyed true).pkg.port 3).down = false ∧ ((keyed true).pkg.port 3).draining = false ∧
     (let stop := { KeyDir.reset with stopped := true, nextv := true }
      stop.stopped = true ∧ stop.nextv = true) ∧ ¬keySpent ≤ (State.reset.pkg.port 0).receive.count) := by decide +kernel
theorem witness_LinksAndIngress_held :
    (let s (im : BitVec 64) (st : Stream) := (streaming st).modDie 0 (fun D => { D with ingress := [(0, { image := im, delivered := 0, dropped := 0 })] })
     let hold := (inEntry true).image
     leAt [1] 1 7 = 0 ∧ ([1] : List Byte).length < 8 ∧ inValid (((s 0 aStream).die 0).entry 0).image = false ∧
     ((s hold { aStream with scope := 4 }).stream 0 0).any (fun st => st.scope < 5) = true ∧ aMessage.drop 8 ≠ [] ∧
     64 ≤ { aStream with resvs := List.replicate 64 { start := 0, size := 1, published := false } }.outstanding ∧
     (let t := (s hold aStream).modDie 0 (fun D => { D with held := [(3, aMessage)] })
      (t.die 0).held.find 3 = some aMessage ∧ (match ingressFate t 0 aMessage with | .written _ _ => true | _ => false) = true) ∧
     (let t := (s hold { aStream with scope := 4 }).modDie 0 (fun D => { D with held := [(3, aMessage)] })
      (match ingressFate t 0 aMessage with | .dropped _ => true | _ => false) = true)) := by decide +kernel
theorem witness_LinksAndIngress_lost :
    (let r : Req := { aReq with retries := 7, cmd := some 1 }
     let s := { State.reset.modPkg (fun p => { p with reqs := [r] }) with now := 65536 }
     let t := s.modCluster 40 (fun K => K.setChain 1 0 { Chain.reset with started := [{ underWay (.begun 1) with seq := 1 }] })
     timedOut s r.src r.since = true ∧ ¬r.retries < (s.cluster (clusterOf r.tile)).rmax ∧ clusterOf r.tile = 40 ∧ r.tile % 4 = 0 ∧
     ((s.cluster 40).chain 1 0).started.find? (fun x => x.seq = 1) = none ∧ (((t.cluster 40).chain 1 0).started.find? (fun x => x.seq = 1)).isSome = true ∧
     aReq.cmd = none ∧ (s.die r.src).reqtmo = 65536) := by decide +kernel
theorem witness_Platform_states :
    (let p := State.reset.pkg
     ¬(({ p with bootstat := 2 }.bootstat = 0 ∨ { p with bootstat := 2 }.bootstat = 3) ∧ p.wiping = false) ∧ 1 + (2 ^ 30 - 1) ≤ 2 ^ 30 ∧ 2 ^ 30 < 2 + (2 ^ 30 - 1) ∧
     { p with life := .returned }.life = .returned ∧ p.wiping = false ∧ p.identity.isNone = true ∧
     (let s := State.reset.modTile 0 (fun T => { T with launch := some 0 })
      (s.tile 0).launch = some 0 ∧ (1 : Nat) ≤ 1) ∧
     { State.reset.die 0 with slots := List.replicate 16 (State.reset.tileRec 0 true 0 5 0 []) }.slots.length = 16 ∧
     tmSize 1 ≤ 2 ^ 20) := by decide +kernel
theorem witness_ConfigurationStream_cfgs :
    (let L (f : Cfg → Cfg) : Launch := { aLaunch with cfg := f { Cfg.reset with by_ := some 0 } }
     (L (fun c => { c with done := true })).cfg.done = true ∧ (L (fun c => { c with rejected := true })).cfg.rejected = true ∧
     (L id).cfg.by_ = some 0 ∧ (L id).cfg.words = [] ∧ (L (fun c => { c with fault := some (0x20, 0, none) })).cfg.fault = some (0x20, 0, none) ∧
     (L (fun c => { c with words := [1] })).cfg.words ≠ []) := by decide +kernel
theorem witness_Apertures_refused :
    (let v : Word := BitVec.ofNat 64 (2 ^ 63 + 2 ^ 62 + 13 * 2 ^ 24)
     let st := aStream
     let s := (streaming st).setAperture 0 { bind := v, err := 0 }
     apertureOf s 0 = some (v, 0, 0, st) ∧ (st.readers.find 0).isSome = true ∧ serialLt 48 0 0 = false ∧ serialLe 48 0 st.hwm = true) := by decide +kernel
theorem witness_ConfigurationStream_rejects :
    (let s := placed configuring
     let C := configuring.cfg
     touchedBusy s configuring = false ∧ C.header ≠ none ∧ C.left ≠ 0 ∧ (1 : BitVec 8) ≠ 0 ∧ (1 : BitVec 25) ≠ 0 ∧ configuring.pages ≤ (1 : BitVec 4).toNat ∧
     8 < (9 : BitVec 4).toNat ∧
     (let L := { configuring with cfg := { C with header := none, selected := none, left := 0 } }
      cfgLive L = true ∧ L.cfg.words.tail ≠ [] ∧ L.cfg.header = none ∧ L.cfg.selected = none ∧ touchedBusy (placed L) L = false) ∧
     (let L := { configuring with cfg := { C with left := 0 } }
      cfgLive L = true ∧ ¬(L.cfg.header = none ∨ L.cfg.left ≠ 0) ∧ L.cfg.left = 0)) := by decide +kernel
theorem witness_LaunchLifecycle_ways :
    submitReady State.reset 0 aPacket .host = true ∧ submitHeard State.reset .host = State.reset ∧ routeOpen State.reset 0 23 = true ∧
    aPacket ++ List.replicate (64 - aPacket.length) 0 = aPacket ∧ { aLaunch with saved := [noSaved] }.saved ≠ [] := by decide +kernel
theorem witness_LaunchLifecycle_port (p : List Byte) : submitReady State.reset 0 [] (.ualink 9) = true ∧ submitReady deaf 0 p (.ualink 9) = false := by
  refine ⟨?_, by simp [submitReady, witness_GroupMessages_deaf 9]⟩
  have h : earOpen State.reset 9 = true := earOpen_of (by decide +kernel) 9
  simp only [submitReady, h]; decide +kernel
theorem witness_TaskEngine_ends :
    (let s (eng cmd : Nat) (mode : Bool) (a b : Word) : State := (chained (tasked (entry 2 0) true) eng cmd mode a b []).modCluster 0 (fun K =>
       K.setChain eng 0 { K.chain eng 0 with notes := [(0, (0, some 511))] })
     let bad : List (Nat × Nat × Bool × Bool) := [(1, 1, true, false), (1, 2, true, false), (1, 3, true, false), (1, 4, true, false), (1, 5, true, false),
       (2, 1, true, false), (2, 2, true, false), (2, 3, false, false), (3, 1, true, false), (3, 2, false, false), (3, 3, true, false), (3, 5, false, false),
       (4, 1, false, true), (4, 2, false, true), (4, 3, false, false), (4, 4, false, false)]
     (∀ p ∈ bad, starts (s p.1 p.2.1 p.2.2.2 0 512) p.1 p.2.1 p.2.2.1 = true ∧ 512 ≤ (headCmd (s p.1 p.2.1 p.2.2.2 0 512) p.1).b.toNat ∧
       (headCmd (s p.1 p.2.1 p.2.2.2 0 512) p.1).task = some 511 ∧ (headCmd (s p.1 p.2.1 p.2.2.2 0 512) p.1).mode = p.2.2.2 ∧
       (((s p.1 p.2.1 p.2.2.2 0 512).cluster 0).chain p.1 0).started.length ≤ 0) ∧
     fabBadMode (descriptor (s 2 1 false 0 512) 0 (headCmd (s 2 1 false 0 512) 2)) = false ∧ joinNow (s 2 2 false 0 512) 0 0 = none ∧
     (let t := s 3 4 true 64 0
      starts t 3 4 false = true ∧ 64 ≤ (headCmd t 3).a.toNat ∧ (headCmd t 3).mode = true) ∧
     (let t := s 3 2 false 511 0
      starts t 3 2 false = true ∧ (headCmd t 3).a.toNat < 512 ∧ (headCmd t 3).b = 0)) := by decide +kernel
theorem witness_TaskCommands_ready :
    (let s := commanded 3 4 true 63 0 []
     issuerDone s 0 0 (headCmd s 3) = true) ∧
    (let s := commanded 3 3 false 0x40 0 []
     issuerReleased s 0 0 { headCmd s 3 with flags := 1 } = true) ∧ submitReady State.reset 0 aPacket (.context 0) = true := by decide +kernel
/-- A command of the copy engine that goes on, its descriptor read, some granules of its source read and some written. -/
def ongoing (cmd : Nat) (desc : List Byte) (src : Tbl (List Byte)) (fin : List Nat) : Cmd :=
  { underWay (.begun 0) with cmd := cmd, desc := some (desc ++ List.replicate (64 - desc.length) 0), src := src, fin := fin }
/-- The machine with it, alone in its chain. -/
def going (x : Cmd) : State :=
  (placed aLaunch).modCluster 0 (fun K => K.setChain 1 0 { Chain.reset with head := 1, tail := 1, next := 2, first := 2, started := [x] })
/-- What Runs asks of a command that goes on, as a test. -/
def runs (s : State) (x : Cmd) : Bool :=
  !x.release && decide ((copyStarted s 0 0)[0]? = some x) && decide (x.eng = 1) && x.desc.isSome && decide (x.scope ≠ 7) && goesOn s 0 0 x.cmd true x &&
    (copyStarted s 0 0).all (fun y => match y.stage with | .ended _ _ => false | _ => true) && decide (((s.cluster 0).evq.get [] 0).length < 64) &&
    ((s.cluster 0).chain 1 0).held.isEmpty
theorem runs_of {s : State} {x : Cmd} (h : runs s x = true) : Runs s 0 0 1 x.cmd 0 x := by
  simp only [runs, Bool.and_eq_true, decide_eq_true_eq, Bool.not_eq_true', List.all_eq_true, List.isEmpty_iff] at h
  obtain ⟨⟨⟨⟨⟨⟨⟨⟨h1, h2⟩, h3⟩, h4⟩, h5⟩, h6⟩, h7⟩, h8⟩, h9⟩ := h
  refine ⟨Or.inl h1, Or.inr ⟨by decide, by decide, h2, h3, h4, h5, h6, ?_, h8, h9⟩⟩
  intro y hy st r hr
  have := h7 y hy
  simp [hr] at this
theorem runs_start {s : State} {cmd : Nat} (h : starts s 1 cmd true = true) (n : Nat) (hn : (copyStarted s 0 0).length ≤ n) :
    Runs s 0 0 1 cmd n ((headCmd s 1).read s 0 true) := by
  have hr : (headCmd s 1).release = false := by
    simp only [starts, Bool.and_eq_true, Bool.not_eq_true'] at h; exact h.2
  have hr2 : ((headCmd s 1).read s 0 true).release = (headCmd s 1).release := by
    unfold Cmd.read; split <;> rfl
  exact ⟨Or.inl (hr2.trans hr), Or.inl ⟨headCmd s 1, starts_of h, hn, rfl⟩⟩
theorem witness_CopyCommands_parts :
    (let d := bulk 0x1FFFC0 0x100 64 1 1
     let x := ongoing 1 d [] []
     let y := ongoing 1 d [(0, List.replicate 64 7)] []
     let b := parseBulk (descriptor (going y) 0 y)
     runs (going x) x = true ∧ memoryOk (going x) = true ∧ bulkOk (descriptor (going x) 0 x) = true ∧ (0 : Nat) < granCount b.src.toNat b.len ∧
     x.src.find 0 = none ∧ b.src.toNat % 2 ^ 21 + b.len ≤ 2 ^ 21 ∧ sideMissing (going x) 0 0 x b.ss b.src b.len false = false ∧
     sideMissing (going x) 0 0 x b.ds b.dst b.len true = false ∧ banksReady ((going x).cluster 0).mx b.ss b.src b.len = true ∧
     runs (going y) y = true ∧ bulkWhole b = false ∧ y.part b.src 0 64 = some (List.replicate 64 7) ∧ y.fin.contains 0 = false ∧
     granOff b.dst.toNat 0 = 0 ∧ granLen b.dst.toNat b.len 0 = 64 ∧ (y.fin ++ [0]).length = granCount b.dst.toNat b.len) ∧
    (let d := bulk 0x100 0x13F 65 1 1
     let y := ongoing 1 d [(0, List.replicate 64 7), (1, [8])] []
     let b := parseBulk (descriptor (going y) 0 y)
     runs (going y) y = true ∧ bulkWhole b = true ∧ (y.whole b.src b.len).isSome = true ∧ granCount b.dst.toNat b.len = 2 ∧
     granLen b.dst.toNat b.len 0 = 1 ∧ y.part b.src 1 64 = some (List.replicate 63 7 ++ [8])) := by decide +kernel
theorem witness_CopyCommands_spaces :
    (let y := ongoing 1 (bulk 0x100 0 64 1 2) [(0, List.replicate 64 7)] []
     let b := parseBulk (descriptor (going y) 0 y)
     runs { going y with mem := [] } y = true ∧ b.ds = 2 ∧ bulkOk (descriptor (going y) 0 y) = true ∧ y.part b.src 0 64 = some (List.replicate 64 7)) ∧
    (let y := ongoing 1 (bulk 0x100 0 8 1 0) [(0, List.replicate 8 7)] []
     let s := hubFar (going y)
     runs s y = true ∧ (match lvAccess s 0 (s.tile 0).selected (s.cluster 0).tlb 0 8 true with
       | .ok ([q], _) => decide (q.size = 8) && (dupOf s q).isNone && decide (q.home = .die 1) && decide (q.dup = 0) | _ => false) = true) ∧
    (let y := ongoing 1 (bulk 0x100 0 8 1 0) [(0, List.replicate 8 7)] []
     let s := hubMapped (going y)
     runs s y = true ∧ (match lvAccess s 0 (s.tile 0).selected (s.cluster 0).tlb 0 8 true with
       | .ok ([q], _) => decide (q.home = .die 0) && servable s 0 q | _ => false) = true) ∧
    (let x := ongoing 1 (bulk 0 0x100 8 0 1) [] []
     let s := hubMapped (going x)
     runs s x = true ∧ (match lvAccess s 0 (s.tile 0).selected (s.cluster 0).tlb 0 8 false with
       | .ok (ps, _) => ps.all (servable s 0) | _ => false) = true) := by decide +kernel
theorem witness_CopyCommands_casts :
    (let d := leBytes 8 0x100 ++ leBytes 4 0x200 ++ leBytes 4 64 ++ leBytes 2 1 ++ [1, 3] ++ leBytes 2 0x8000 ++ leBytes 10 0
     let y := ongoing 2 d [(0, List.replicate 64 7)] []
     runs (going y) y = true ∧ mcastOk (descriptor (going y) 0 y) 1 = true ∧ (parseMcast (descriptor (going y) 0 y)).ss = 1 ∧
     (receivers aLaunch 1)[0]? = some 0 ∧ y.part 0x100 0 64 = some (List.replicate 64 7) ∧ caughtUp (going y) 0 (.die 1) = true) ∧
    (let d := leBytes 8 0x100 ++ leBytes 4 0 ++ leBytes 4 8 ++ leBytes 2 4095 ++ [1] ++ leBytes 13 0
     let x := { ongoing 3 d [] [] with groups := [(4095, 1)] }
     let s := going x
     runs s x = true ∧ grpOk (descriptor s 0 x) = true ∧ x.groups.get 0 4095 ≠ 0 ∧ grpInside s (maskBits 1) = [0] ∧ grpOutside s (maskBits 1) = [] ∧
     { x with src := [(0, List.replicate 8 0)] }.whole 0x100 8 = some (List.replicate 8 0) ∧
     ({ ongoing 3 (leBytes 8 0x13F ++ leBytes 4 0 ++ leBytes 4 8 ++ leBytes 2 4095 ++ [1] ++ leBytes 13 0) [(0, [1])] [] with groups := [(4095, 1)] }.whole 0x13F 8 = none)) ∧
    (let d := leBytes 8 0x100 ++ leBytes 4 0 ++ leBytes 4 8 ++ [1, 0] ++ leBytes 14 0
     let x := ongoing 5 d [] []
     runs (going x) x = true ∧ enqDescOk (descriptor (going x) 0 x) = true ∧ enqDie (going x) 0 0 = some 0 ∧ dieEnabled (going x) 0 = true ∧
     { x with src := [(0, List.replicate 8 0)] }.whole 0x100 8 = some (List.replicate 8 0)) ∧
    (let s := commanded 1 3 false 0 0 []
     starts s 1 3 true = true ∧ (headCmd s 1).groups = s.pkg.groups) := by decide +kernel
/-- Cluster 0 with the first page of LV space at domain endpoint 30. -/
def hubAway (s : State) : State :=
  s.modCluster 0 (fun K => { K with tlb := [{ ctxid := 0, page := 0, span := 14, leaf := BitVec.ofNat 64 (2 * 2 ^ 57 + 30 * 2 ^ 38), rd := true, wr := true }] })
theorem missing_of {s : State} {wr : Bool} {a : Word} (h : (portless s).cap 0x1B = 0)
    (hx : (match Machine.lvPiece (portless s) 0 ((portless s).tile (issuer 0 0)).selected ((portless s).cluster 0).tlb wr a.toNat with
      | .ok x => keyKind (xlatKey x a.toNat) == 4 | .error _ => false) = true) : (endpointMissing (portless s) 0 0 a wr).isSome = true := by
  unfold endpointMissing
  split at hx
  · rename_i x heq
    try rw [heq]
    simp only [beq_iff_eq] at hx
    simp only [hx, portless_there s _ h, decide_true, Bool.not_false, Bool.and_self, if_true, Option.isSome_some]
  · simp at hx
theorem witness_CopyCommands_missing :
    (let d := leBytes 8 0 ++ leBytes 8 1 ++ leBytes 8 0 ++ [0x11] ++ leBytes 5 0x100 ++ leBytes 2 0
     let s := hubAway (commanded 1 4 false 0 0 d)
     starts (portless s) 1 4 true = true ∧ notLv 0 = false ∧ (endpointMissing (portless s) 0 0 0 true).isSome = true) ∧
    (let s := hubAway (commanded 1 1 false 0 0 (bulk 0 0x100 8 0 1))
     starts (portless s) 1 1 true = true ∧ (endpointMissing (portless s) 0 0 0 false).isSome = true ∧ granCount 0 8 = 1 ∧
     copyAddr 0 (BitVec.ofNat 64 0) (granOff 0 0) = 0) := by
  refine ⟨⟨by decide +kernel, by decide +kernel, missing_of (by decide +kernel) (by decide +kernel)⟩,
    by decide +kernel, missing_of (by decide +kernel) (by decide +kernel), by decide +kernel, by decide +kernel⟩
-- Each link of die 8, in the middle of the array, leads to a die whose link leads back; one of die 0 leads nowhere.
theorem linkBack_middle (link : Nat) : (linkBack 8 link).isSome = true := by
  have h : ∀ v : Fin 4, (adjacentDies 8 (match v.val with | 0 => 8 - 1 | 1 => 8 + 1 | 2 => 8 - 6 | _ => 8 + 6) &&
      decide ((match v.val with | 0 => 8 - 1 | 1 => 8 + 1 | 2 => 8 - 6 | _ => 8 + 6) < dieCount)) = true := by decide
  have hv : (adjacentDies 8 (linkPeer 8 link) && decide (linkPeer 8 link < dieCount)) = true := h (linkSide 8 link)
  simp only [linkBack, hv, if_true, Option.isSome_some]
theorem linkBack_corner : ∃ link, link < 4 ∧ linkBack 0 link = none := by
  refine ⟨((Config.linkOrder 0).symm 0).val, ((Config.linkOrder 0).symm 0).isLt, ?_⟩
  have h : linkSide 0 ((Config.linkOrder 0).symm 0).val = 0 := by simp [linkSide]
  simp [linkBack, linkPeer, h, adjacentDies]
theorem witness_LinksAndIngress_flit (link : Nat) : ∃ back, linkBack 8 link = some back ∧
    ((State.reset.die 8).link link).up = true ∧ ((State.reset.die 8).link link).dead = false ∧
    ((State.reset.die (linkPeer 8 link)).link back).up = true ∧ ((State.reset.die (linkPeer 8 link)).link back).dead = false ∧
    ((State.reset.die (linkPeer 8 link)).link back).sentAt ≠ some State.reset.now ∧
    ((State.reset.die (linkPeer 8 link)).link back).resendFrom = none ∧ ((State.reset.die (linkPeer 8 link)).link back).buf.length < 128 ∧
    ((State.reset.die (linkPeer 8 link)).link back).draining = false := by
  obtain ⟨b, hb⟩ := Option.isSome_iff_exists.mp (linkBack_middle link)
  exact ⟨b, hb, by simp [State.reset, State.die, Tbl.get, Tbl.find, Die.reset, Die.link, Link.reset]⟩
theorem witness_LinksAndIngress_timers :
    (let s := (hubFar (going (ongoing 1 (bulk 0 0x100 8 0 1) [] [])))
     let x := ongoing 1 (bulk 0 0x100 8 0 1) [] []
     let t := { s with now := 65536 }
     (copyStarted t 0 0)[0]? = some x ∧ x.stage = .begun 0 ∧ waitingPart t 0 0 x (.read 0) = some 0 ∧ x.retryAt ≤ t.now ∧ cmdReady t 0 0 true x = true ∧
     timedOut t 0 x.since = true ∧ timedOut s 0 x.since = false) ∧
    (let P : Port := { Port.reset with prog := some (lvProg false), since := some 0,
                                       tlb := [{ ctxid := 0, page := 0, span := 14, leaf := BitVec.ofNat 64 (2 ^ 43), rd := true, wr := true }] }
     let s := porting P
     (s.tile 0).live = true ∧ P.fetching (lvProg false) = true ∧ P.fault = none ∧ (lvProg false).isStream = false ∧
     (match portPiece s 0 P (lvProg false) (P.windowed (lvProg false) 0) ((lvProg false).addr 0) with
      | .ok (q, _) => remotePieces 0 [q] | .error _ => false) = true ∧
     P.since.any (timedOut s 0) = false ∧ P.since.any (timedOut { s with now := 65536 } 0) = true) ∧
    (let amo : SeqLoad := { no := 0, d := 5, pieces := [farPiece], got := [], sgn := false, value := some 3, addr := 0, since := 0, retries := 7 }
     let s := { (loading.modSeq 0 (fun q => { q with phase := .running, loads := [amo] })) with now := 65536 }
     (s.tile 0).seq.loads[0]? = some amo ∧ (s.tile 0).live = true ∧ ¬amo.retries < (s.cluster 0).rmax ∧ 0 < (s.cluster 0).rmax ∧
     (s.tile 0).seq.mode = false ∧ (s.tile 0).seq.tvec = 0 ∧ timedOut s 0 amo.since = true) := by decide +kernel
/-- A participant on cluster 40, on die 1, that waits with one on cluster 0. -/
def twoParties : List RedParty := [aParty 3, { aParty 3 with pos := 1, cluster := 40 }]
theorem witness_LinksAndIngress_reduction :
    (let x : Cmd := { underWay .partners with eng := 2, cmd := 1 }
     let L := { aLaunch with consist := [0, 40], reds := twoParties }
     let s := (placed L).modCluster 0 (fun K => K.setChain 2 0 { Chain.reset with started := [x] })
     let s := s.modCluster 40 (fun K => { K.setChain 2 0 { Chain.reset with started := [x] } with launch := some 0 })
     let late := { s with now := 65536 }
     ((late.cluster 0).chain 2 0).started[0]? = some x ∧ (late.cluster 0).launch = some 0 ∧
     L.reds.find? (fun q => q.cluster = 0 && q.tile = 0 && q.cmd = x.seq) = some (aParty 3) ∧ partiesOf L 63 = twoParties ∧
     reductionLate late 0 (partiesOf L 63) = true ∧ reductionLate s 0 (partiesOf L 63) = false ∧ partiesReach s (sortParties twoParties) = true) := by
  decide +kernel
theorem witness_InvalidationAndRequests_ready :
    (let s := State.reset.modPkg (fun p => { p with reqs := [aReq] })
     aReq.holders = [] ∧ aReq.dropped = [] ∧ queuedBehind s aReq = false ∧ covered s aReq.home aReq.clock = true ∧ aReq.home ≠ outHome ∧
     routeOpen s aReq.src aReq.home = true) ∧
    (let s := State.reset
     (match forwardKey s dieCount (upliKey 0 64) with | .ok k => k == (sramKey 0 64, false) | .error _ => false) = true ∧
     keyHome s (sramKey 0 64) = .die 0 ∧ servable s 0 { key := sramKey 0 64, size := 8, home := .die 0 } = true ∧
     (let t := s.modDie 0 (fun D => { D with forwards := [(0, .migrating)] })
      (match forwardKey t dieCount (upliKey 0 64) with | .error f => f == 0xF | .ok _ => false) = true)) := by decide +kernel
theorem witness_InvalidationAndRequests_ear (e : Nat) : earOpen State.reset e = true ∧ earOpen deaf e = false :=
  ⟨earOpen_of (by decide +kernel) e, witness_GroupMessages_deaf e⟩
theorem witness_ControlAndLanes_restore :
    (let saved (p : LPhase) : Launch := { aLaunch with phase := .readOut, resumeTo := p, saved := [noSaved], savedClusters := [Cluster.reset], consist := [], place := [] }
     between { saved .running with phase := .running } = false ∧ between { saved .configuring with phase := .configuring } = true ∧
     controlDie (saved .running) 0 = 0 ∧ (saved .running).dead = false ∧ chooseClusters (placed (saved .configuring)) 0 1 = some [1] ∧
     ((List.range 1).map (fun q => ([1] : List Nat).getD (q / 1) 0 * 4 + q % 1)).Nodup ∧ (saved .running).place[0]? = none ∧
     chooseClusters (State.reset.modPkg (fun p => { p with caps := p.caps.put 2 0 })) 0 2000 = none) := by decide +kernel
theorem witness_FabricReductions_reach :
    partiesReach (placed aLaunch) [aParty 1] = true ∧
    (let s := (placed aLaunch)
     let t := (List.range 4).foldl (fun s i => s.modDie 0 (fun D => D.setLink i { Link.reset with draining := true })) s
     (t.die 0).links.length = 4) := by decide +kernel
theorem witness_EstimatingSessions_root :
    (let s := inSession aSession
     rootReached s 0 aMember = true ∧ memberLost s 0 0 aMember = false ∧ { aMember with owed := 1 }.owed ≠ 0 ∧ { aMember with gone := true }.gone = true ∧
     (let x : Cmd := { underWay (.faulted 0x2A 0 0) with eng := 2, cmd := 2 }
      let t := s.modCluster 0 (fun K => K.setChain 2 0 { Chain.reset with started := [x] })
      memberLost t 0 0 aMember = true)) := by decide +kernel
theorem witness_FabricMemoryTraffic_streams :
    (let a : Word := 0x8000000000000000
     let h (o : Word) : Held := { aHeld none with addr := a + o, pieces := [] }
     let s (st : Stream) (o : Word) : State := (streaming st).modTile 0 (fun T => { T with drain := [h o] })
     let t := s aStream 0
     (t.tile 0).drain = [h 0] ∧ heldWaits t 0 (h 0) = false ∧ (h 0).blocked = none ∧ streamReached t (some 0) (t.tile 0).launchNo = true ∧
     pieceAt (streamOff (h 0).addr) 8 = 8 ∧ writeDecision t 0 0 0 8 = .pass ∧ (streamWrite t (some 0) 0 0 0 (h 0).data).isSome = true ∧
     writeDecision (s aStream 4096) 0 0 4096 8 = .block ∧
     (let late := { aStream with hwm := 8192, rsv := 8192, readers := [(0, { live := true, cursor := 8192, release := 8192 })], furthest := 8192 }
      writeDecision (s late 0) 0 0 0 8 = .fault 0x21)) := by decide +kernel
theorem witness_PortsOfARound_streams :
    (let g := { streamProg with write := true }
     let w : PortWrite := { addr := 0x8000000000000000, data := [1], c := 0, no := 0, deps := [], xlat := none }
     let P : Port := { Port.reset with prog := some g, committed := [w] }
     let s := porting P
     publishDue s 0 0 = false ∧ P.winBlocked = none ∧ P.fault = none ∧ writeDue s 0 0 w = true ∧ g.spad = false ∧ g.isStream = true ∧
     streamReached s (some 0) 0 = true ∧ writeDecision s 0 0 0 1 = .pass ∧ (streamWrite s (some 0) 0 0 0 w.data).isSome = true ∧
     writeDecision s 0 0 4096 1 = .block ∧
     (let late := { aStream with hwm := 8192, rsv := 8192, readers := [(0, { live := true, cursor := 8192, release := 8192 })], furthest := 8192 }
      writeDecision (streaming late) 0 0 0 1 = .fault 0x21) ∧
     (let r : Port := { Port.reset with prog := some streamProg }
      (streamRead (streaming { aStream with hwm := 1 }) (some 0) 0 0 0 1).isSome = true ∧ r.issued < streamProg.total ∧
      settledBytes s 0 [] (byteNames [] 0 1) = true)) := by decide +kernel
theorem witness_MatrixAndBoundNodes_refusing :
    (let imm : BitVec 30 := 0
     let f : FabWord := { to5 0 imm with pm := 1 }
     let s (a b : List Tok) : State := rounded (.fabMma f) [(3, bitTok false [])] (fun r => r.setSt 0 { SlotSt.reset with toks := a, toksR := b })
     let e (a b : List Tok) : Fab := slotFab (s a b) 0x89 f
     let stop : List Tok := [stopTok .vector 1 []]
     let x := e stop stop
     let y := e (vecs (panelA 0 0) 1) (vecs (panelB 0 0) 1)
     working (s stop stop) = true ∧ predPresent x.r 0x89 f x.slot = true ∧ x.space = true ∧ x.mx.unperformed x.node < 2 ∧ x.members = [] ∧
     acceptable x.mx x.node x.r.no 0 (mmaM 0) (mmaN 0) x.mmaWidth (s stop stop).now = true ∧
     x.mmaPred.any (·.null) = false ∧ refuses f 0x89 x.mmaPred = true ∧ x.opA = .stop 1 ∧ x.opB = .stop 1 ∧ refuses f 0x89 y.mmaPred = true ∧
     y.opA = .panel (vecs (panelA 0 0) 1) ∧ y.opB = .panel (vecs (panelB 0 0) 1)) := by decide +kernel
theorem witness_MatrixAndBoundNodes_begins :
    (let s := multiplying 0x1000 (vecs (panelIndex 0x1000) 0) [stopTok .vector 1 []] id
     working { s with focus := { tile := 0, ctx := 0, slot := 0, launch := 0 } } = true ∧ mmaGat 0x1000 = true ∧
     (mmaNode 0x1000 s).opA = .panel (vecs (panelIndex 0x1000) 0) ∧ (mmaNode 0x1000 s).opB = .stop 1) := by decide +kernel
/-- Slot 0 has acted in the round. -/
def actedOnce (i : Instr) (toks : List (Nat × Tok)) : State := rounded i toks (fun r => { r with fired := [0] })
theorem witness_acted_twice :
    (let f := to5 0 2
     takesData (actedOnce (.fabExit f) [(1, num 1)]) 0x90 f = true ∧ (slotFab (actedOnce (.fabExit f) [(1, num 1)]) 0x90 f).r.fired.contains 0 = true ∧
     fires (actedOnce (.fabBar f) data3) 0x92 f .data = true ∧ fires (actedOnce (.fabAmo f) data3) 0x7E f .data = true ∧
     fires (actedOnce (.fabAmos f) data3) 0x7F f .data = true ∧
     fires (actedOnce (.fabSt f) [(1, stopTok .scalar 1 []), (2, stopTok .scalar 1 []), (3, bitTok true [])]) 0x71 f (.stop 1) = true ∧ opCounted 0x71 = true ∧
     (let h := to5 9 0x20000
      let s := actedOnce (.fabBst h) [(1, num 2), (2, num 0)]
      fires s 0x8C h .data = true ∧ (slotFab s 0x8C h).r.fired.contains 0 = true ∧ ((slotFab s 0x8C h).mx.bank 0).tag ≠ .open_ ∧
      (match boundAddr h (heldOf (slotFab s 0x8C h)) with | .ok a => (boundFault h a).isNone | .error _ => false) = true)) := by decide +kernel
theorem witness_RoundsStartAndCommit_arrivals :
    (let g (stores : List Held) (r : Round) : Round := { r with bars := [5], stores := stores }
     let s (stores : List Held) : State := (placed aLaunch).modTile 0 (fun T => { T with
       ctxs := ((blocked (some seqRun)).tile 0).ctxs, round := some (g stores (newRound (blocked (some seqRun)) 0 0)) })
     let t := s [aHeld none]
     (t.tile 0).arrivals = [] ∧ (∀ x ∈ [aHeld none], x.no = (newRound (blocked (some seqRun)) 0 0).no) ∧ (t.tile 0).launch = some (t.tile 0).launchNo ∧
     canCommit t 0 = true ∧ gangOf t 0 0 = [] ∧ roundPending (s []) 0 (fun w => decide (w.no < 1)) = false ∧
     (∀ p, p < 4 → (((s []).tile 0).port p).committed = [] ∧ (((s []).tile 0).port p).buf = [])) := by decide +kernel
theorem witness_Platform_scrub :
    (let D := State.reset.die 0
     let r := scrubRec State.reset 0 1 0
     let full := { D with slots := List.replicate 256 r }
     D.scrubHeld.find 1 = none ∧ slotFree D true = true ∧ slotFree full true = false ∧ { D with scrubHeld := [(1, r)] }.scrubHeld.find 1 = some r ∧
     { D with scrubHeld := [(2, r)] }.scrubHeld.find 1 = none) := by decide +kernel
theorem witness_LinksAndIngress_sends :
    (let R : Link := { Link.reset with next := 130, buf := List.replicate 128 0, resendFrom := some 127 }
     R.resendFrom = some 127 ∧ 127 + 1 = R.buf.length ∧ { R with resendFrom := none }.resendFrom = none ∧ 128 ≤ R.buf.length ∧
     { Link.reset with draining := true }.draining = true ∧ etherOpen State.reset 3 = true ∧
     etherOpen (State.reset.modPkg (fun p => { p with ports := [(19, { ExtPort.reset with down := true })] })) 3 = false) := by decide +kernel
theorem witness_RemoteRequests_ways :
    (anAsk false).reaches (placed aLaunch) = true ∧ (anAsk true).reaches (placed aLaunch) = true ∧
    (∀ d, ((none : Option Nat).orElse (fun _ => aRemote.die)) = some d → routeOpen (placed aLaunch) d (dieOfCluster 0) = true) := by
  refine ⟨by decide +kernel, by decide +kernel, ?_⟩
  intro d h
  have : d = 0 := by simpa [aRemote] using h.symm
  subst this
  decide +kernel
theorem witness_RemoteRequests_ear (e : Nat) : earOpen (placed aLaunch) e = true ∧ earOpen (flying (.remote { aRemote with die := none })) e = true :=
  ⟨earOpen_of (by decide +kernel) e, earOpen_of (by decide +kernel) e⟩
theorem witness_TranslationAndFaultingOperands_cfgs :
    Free (regs [(5, 2)]) [5, 6] ∧ ((regs [(5, 2)]).x 5).toNat % 4 ≠ 0 ∧ ((regs [(6, 0)]).x 6).toNat = 0 ∧ 2 ^ 20 < ((regs [(6, 0x100001)]).x 6).toNat := by
  unfold Free; decide +kernel
theorem witness_LinksAndIngress_resumes :
    (let s := State.reset.modPkg (fun p => { p with ports := [(3, { ExtPort.reset with receive := { KeyDir.reset with stopped := true, nextv := true } })] })
     ((s.pkg.port 3).dir true).stopped = true ∧ ((s.pkg.port 3).dir true).nextv = true) := by decide +kernel
/-- No record of a port's keys waits where no die holds a record that has no slot. -/
theorem witness_LinksAndIngress_resumes_rec : keyRecWaits State.reset 3 true = false := by
  simp [keyRecWaits, State.reset, State.die, Tbl.get, Tbl.find, Die.reset]

end Sys2Proof.Tests
end

section
/-! SUPPORT. Division at a width w: the cases of R147, what fits the width, and the dividend put together again. -/

namespace Sys2Proof.Machine

/-! ### Signed -/

theorem divS_zero (w : Nat) (s : Int) :
    divS w s 0 = if s = 0 then 0 else if s > 0 then 2 ^ (w - 1) - 1 else -2 ^ (w - 1) := by simp [divS]

theorem remS_zero (w : Nat) (s : Int) : remS w s 0 = s := by simp [remS]

/-- The quotient that does not fit saturates, and the remainder makes up for it. -/
theorem divS_overflow (w : Nat) : divS w (-2 ^ (w - 1)) (-1) = 2 ^ (w - 1) - 1 := by simp [divS]

theorem remS_overflow (w : Nat) : remS w (-2 ^ (w - 1)) (-1) = -1 := by simp [remS]

theorem divS_ordinary {w : Nat} {s t : Int} (h0 : t ≠ 0) (ho : ¬(s = -2 ^ (w - 1) ∧ t = -1)) : divS w s t = s.tdiv t :=
  (if_neg h0).trans (if_neg ho)

theorem remS_ordinary {w : Nat} {s t : Int} (h0 : t ≠ 0) (ho : ¬(s = -2 ^ (w - 1) ∧ t = -1)) : remS w s t = s.tmod t :=
  (if_neg h0).trans (if_neg ho)

/-- A divisor of zero, the quotient that does not fit, and every other division. -/
theorem signed_division_cases (w : Nat) (s t : Int) :
    t = 0 ∨ (s = -2 ^ (w - 1) ∧ t = -1) ∨ (t ≠ 0 ∧ ¬(s = -2 ^ (w - 1) ∧ t = -1)) := by tauto

theorem divS_mul_add_remS (w : Nat) (s t : Int) : divS w s t * t + remS w s t = s := by
  obtain rfl | ⟨rfl, rfl⟩ | ⟨h0, ho⟩ := signed_division_cases w s t
  · simp [remS_zero]
  · rw [divS_overflow, remS_overflow]; ring
  · rw [divS_ordinary h0 ho, remS_ordinary h0 ho, Int.tdiv_mul_add_tmod]

/-- A truncated quotient of a value in [-m, m) stays in it, but for -m divided by -1: any divisor but 1, 0 and -1 halves it at least. -/
theorem tdiv_bounds {s t m : Int} (hl : -m ≤ s) (hu : s < m) (ho : ¬(s = -m ∧ t = -1)) : -m ≤ s.tdiv t ∧ s.tdiv t < m := by
  by_cases ht : 2 ≤ t.natAbs
  · have hhalf : (s.tdiv t).natAbs ≤ s.natAbs / 2 := by
      rw [Int.natAbs_tdiv]; exact Nat.div_le_div_left ht (by decide)
    omega
  · obtain rfl | rfl | rfl : t = -1 ∨ t = 0 ∨ t = 1 := by omega
    all_goals simp at ho ⊢; omega

/-- A truncated remainder has the sign of the dividend and is no larger. -/
theorem tmod_bounds {s m : Int} (t : Int) (hl : -m ≤ s) (hu : s < m) : -m ≤ s.tmod t ∧ s.tmod t < m := by
  have hsize : (s.tmod t).natAbs ≤ s.natAbs := by rw [Int.natAbs_tmod]; exact Nat.mod_le _ _
  have hsign : s ≤ 0 → s.tmod t ≤ 0 := fun hs => by
    have := Int.tmod_nonneg t (Int.neg_nonneg_of_nonpos hs)
    rw [Int.neg_tmod] at this
    omega
  omega

theorem divS_bounds {w : Nat} {s : Int} (t : Int) (hl : -2 ^ (w - 1) ≤ s) (hu : s < 2 ^ (w - 1)) :
    -2 ^ (w - 1) ≤ divS w s t ∧ divS w s t < 2 ^ (w - 1) := by
  obtain rfl | ⟨rfl, rfl⟩ | ⟨h0, ho⟩ := signed_division_cases w s t
  · rw [divS_zero]; split_ifs <;> omega
  · rw [divS_overflow]; omega
  · rw [divS_ordinary h0 ho]; exact tdiv_bounds hl hu ho

theorem remS_bounds {w : Nat} {s : Int} (t : Int) (hl : -2 ^ (w - 1) ≤ s) (hu : s < 2 ^ (w - 1)) :
    -2 ^ (w - 1) ≤ remS w s t ∧ remS w s t < 2 ^ (w - 1) := by
  obtain rfl | ⟨rfl, rfl⟩ | ⟨h0, ho⟩ := signed_division_cases w s t
  · rw [remS_zero]; exact ⟨hl, hu⟩
  · rw [remS_overflow]; omega
  · rw [remS_ordinary h0 ho]; exact tmod_bounds t hl hu

/-- The quotient of two registers is held exactly. -/
theorem toInt_ofInt_divS (u v : Word) : (ofInt (divS 64 u.toInt v.toInt)).toInt = divS 64 u.toInt v.toInt := by
  obtain ⟨hl, hu⟩ := divS_bounds v.toInt u.le_toInt u.toInt_lt
  exact BitVec.toInt_ofInt_eq_self (by decide) hl hu

theorem toInt_ofInt_remS (u v : Word) : (ofInt (remS 64 u.toInt v.toInt)).toInt = remS 64 u.toInt v.toInt := by
  obtain ⟨hl, hu⟩ := remS_bounds v.toInt u.le_toInt u.toInt_lt
  exact BitVec.toInt_ofInt_eq_self (by decide) hl hu

/-! ### Unsigned -/

theorem divU_zero (w s : Nat) : divU w s 0 = if s = 0 then 0 else 2 ^ w - 1 := by simp [divU]

theorem remU_zero (s : Nat) : remU s 0 = s := by simp [remU]

theorem divU_ordinary (w s : Nat) {t : Nat} (h0 : t ≠ 0) : divU w s t = s / t := if_neg h0

theorem remU_ordinary (s : Nat) {t : Nat} (h0 : t ≠ 0) : remU s t = s % t := if_neg h0

theorem divU_mul_add_remU (w s t : Nat) : divU w s t * t + remU s t = s := by
  by_cases h0 : t = 0
  · simp [h0, remU_zero]
  · rw [divU_ordinary w s h0, remU_ordinary s h0, Nat.div_add_mod']

/-- The unsigned quotient of two registers is held exactly. -/
theorem toNat_ofNat_divU (u v : Word) : (BitVec.ofNat 64 (divU 64 u.toNat v.toNat)).toNat = divU 64 u.toNat v.toNat := by
  refine Nat.mod_eq_of_lt ?_
  by_cases h0 : v.toNat = 0
  · rw [h0, divU_zero]; split_ifs <;> decide
  · rw [divU_ordinary 64 _ h0]; exact (Nat.div_le_self _ _).trans_lt u.isLt

theorem toNat_ofNat_remU (u v : Word) : (BitVec.ofNat 64 (remU u.toNat v.toNat)).toNat = remU u.toNat v.toNat := by
  refine Nat.mod_eq_of_lt ?_
  have := divU_mul_add_remU 64 u.toNat v.toNat
  exact (by omega : remU u.toNat v.toNat ≤ u.toNat).trans_lt u.isLt

end Sys2Proof.Machine
end

section
/-! SUPPORT. The constant sequence (R150): the four pieces of R118 add up, and each instruction of the sequence changes d and pc alone. -/

namespace Sys2Proof.Machine

/-! ### The pieces of a constant (R118) -/

theorem toNat_sext16 (p : BitVec 16) : (sext p).toNat = p.toNat + if 2 ^ 15 ≤ p.toNat then 2 ^ 64 - 2 ^ 16 else 0 := by
  rw [sext, BitVec.toNat_signExtend, BitVec.toNat_setWidth_of_le (by decide), BitVec.msb_eq_decide]
  simp

/-- The low piece, sign extended, and what stands above it rounded make the value: the rounding carries what the sign takes away. -/
theorem sext_add_rounded (y : Word) : sext (y.truncate 16 : BitVec 16) + (y + 0x8000) >>> 16 <<< 16 = y := by
  have hy := y.isLt
  apply BitVec.eq_of_toNat_eq
  rw [BitVec.toNat_add, toNat_sext16, BitVec.toNat_shiftLeft, BitVec.toNat_ushiftRight, BitVec.toNat_add, BitVec.toNat_setWidth,
    Nat.shiftLeft_eq, Nat.shiftRight_eq_div_pow, show (0x8000 : Word).toNat = 0x8000 from rfl]
  split_ifs <;> omega

/-- Rounding at bit k + 15 is the same before and after the low k bits are cut off; what it carries out of the word is lost either way. -/
theorem rounded_ushiftRight (y : Word) {k : Nat} (hk : k = 16 ∨ k = 32) :
    (y >>> k + 0x8000) >>> 16 <<< (16 + k) = (y + BitVec.ofNat 64 (2 ^ (k + 15))) >>> (k + 16) <<< (k + 16) := by
  have hy := y.isLt
  apply BitVec.eq_of_toNat_eq
  simp only [BitVec.toNat_shiftLeft, BitVec.toNat_ushiftRight, BitVec.toNat_add, Nat.shiftLeft_eq, Nat.shiftRight_eq_div_pow,
    BitVec.reduceToNat, BitVec.toNat_ofNat]
  rcases hk with rfl | rfl <;> omega

/-- The same at the place k of an inner piece. -/
theorem inner_piece_add_rounded (y : Word) {k : Nat} (hk : k = 16 ∨ k = 32) :
    sext ((y >>> k).truncate 16 : BitVec 16) <<< k + (y + BitVec.ofNat 64 (2 ^ (k + 15))) >>> (k + 16) <<< (k + 16) = y >>> k <<< k := by
  rw [← rounded_ushiftRight y hk, BitVec.shiftLeft_add, ← BitVec.shiftLeft_add_distrib, sext_add_rounded]

/-- Above the highest piece nothing is left. -/
theorem top_piece (y : Word) : sext ((y >>> 48).truncate 16 : BitVec 16) <<< 48 = y >>> 48 <<< 48 := by
  conv => rhs; rw [← sext_add_rounded (y >>> 48), BitVec.shiftLeft_add_distrib, ← BitVec.shiftLeft_add]
  simp [BitVec.shiftLeft_eq_zero]

/-- The four pieces of R118, each sign extended and shifted to its place, add up to the value, in the order of R150. -/
theorem pieces_add (v : Word) :
    sext (((v + 0x800080008000) >>> 48).truncate 16 : BitVec 16) <<< 48 + sext (((v + 0x80008000) >>> 32).truncate 16 : BitVec 16) <<< 32 +
      sext (((v + 0x8000) >>> 16).truncate 16 : BitVec 16) <<< 16 + sext (v.truncate 16 : BitVec 16) = v := by
  have hhigher : sext (((v + 0x80008000) >>> 32).truncate 16 : BitVec 16) <<< 32 + (v + 0x800080008000) >>> 48 <<< 48 =
      (v + 0x80008000) >>> 32 <<< 32 := by
    simpa [BitVec.add_assoc] using inner_piece_add_rounded (v + 0x80008000) (.inr rfl)
  have hhi : sext (((v + 0x8000) >>> 16).truncate 16 : BitVec 16) <<< 16 + (v + 0x80008000) >>> 32 <<< 32 = (v + 0x8000) >>> 16 <<< 16 := by
    simpa [BitVec.add_assoc] using inner_piece_add_rounded (v + 0x8000) (.inl rfl)
  linear_combination top_piece (v + 0x800080008000) + hhigher + hhi + sext_add_rounded v

/-! ### A register of the sequencer -/

/-- What a write to a register leaves of the register table (R141). -/
theorem Seq.set_x (q : Seq) (d : Reg) (v : Word) : (q.set d v).x = if d = 0 then q.x else q.x.put d.toNat v := by
  unfold Seq.set
  split <;> rfl

/-- With no load outstanding no register is awaited (R160). -/
theorem Seq.busy_of_no_loads {q : Seq} (h : q.loads = []) (rs : List Reg) : q.busy rs = false := by simp [Seq.busy, h]

/-- Of two changes of one sequencer the second works on what the first leaves. -/
@[simp] theorem State.modSeq_modSeq (s : State) (t : Nat) (f g : Seq → Seq) : (s.modSeq t f).modSeq t g = s.modSeq t (fun q => g (f q)) := by
  simp [State.modSeq, State.modTile, State.setTile, State.tile]

/-- A change of the sequencer in focus changes nothing else. -/
theorem onlySequencer_modSeq (s : State) (f : Seq → Seq) : onlySequencer s (s.modSeq s.focus.tile f) := by
  refine ⟨rfl, rfl, rfl, rfl, rfl, rfl, rfl, rfl, rfl, fun _ _ => rfl, fun u hu => ?_, ?_⟩
  · simp [State.modSeq_tile, hu]
  · simp [sq]

/-! ### A run of instructions with one destination -/

/-- s with v in d of the sequencer in focus, and pc n words on. -/
def State.wroteAfter (s : State) (d : Reg) (v : Word) (n : BitVec 14) : State :=
  s.modSeq s.focus.tile (fun q => { q.set d v with pc := q.pc + n })

@[simp] theorem sq_wroteAfter (s : State) (d : Reg) (v : Word) (n : BitVec 14) :
    sq (s.wroteAfter d v n) = { (sq s).set d v with pc := (sq s).pc + n } := by
  simp [sq, State.wroteAfter]

theorem State.wroteAfter_x (s : State) {d : Reg} (hd : d ≠ 0) (v : Word) (n : BitVec 14) : (s.wroteAfter d v n).x d = v := by
  show (sq (s.wroteAfter d v n)).get d = v
  rw [sq_wroteAfter]
  exact (Seq.get_set _ d d v).trans (if_pos ⟨rfl, hd⟩)

/-- Of two values written to one register in a row the later stands. -/
theorem State.wroteAfter_wroteAfter (s : State) (d : Reg) (u v : Word) (n m : BitVec 14) :
    (s.wroteAfter d u n).wroteAfter d v m = s.wroteAfter d v (n + m) := by
  by_cases hd : d = 0#5 <;> simp [State.wroteAfter, Seq.set_x, hd, BitVec.add_assoc]

/-- With no load outstanding, and away from the last word, an instruction on one register writes its result and moves on. -/
theorem aluOp1_wroteAfter {s : State} (d a : Reg) (hl : (sq s).loads = []) (hpc : (sq s).pc ≠ 0x3FFF) (f : Word → Word) :
    aluOp1 s d a f = .next (s.wroteAfter d (f (s.x a)) 1) := by
  rw [aluOp1_free (Seq.busy_of_no_loads hl _)]
  exact congrArg _ (writeNext_inner d _ hpc)

/-- The next instruction of a run works on the value that the run has left in d. -/
theorem aluOp1_after_wroteAfter {s : State} {d : Reg} {n : BitVec 14} (hd : d ≠ 0) (hl : (sq s).loads = []) (hpc : (sq s).pc + n ≠ 0x3FFF)
    (u : Word) (f : Word → Word) : aluOp1 (s.wroteAfter d u n) d d f = .next (s.wroteAfter d (f u) (n + 1)) := by
  rw [aluOp1_wroteAfter d d (by simpa using hl) (by simpa using hpc), State.wroteAfter_x s hd, State.wroteAfter_wroteAfter]

end Sys2Proof.Machine

namespace Sys2Proof.Results

open Sys2Proof Sys2Proof.Machine

/-- Settles O4: each instruction of the sequence adds a piece of v to what the one before leaves in d, and the pieces add up to v. -/
theorem constantSequence : Obligations.ConstantSequence := by
  intro s d v hd hl hpc
  refine ⟨_, _, _, _,
    (exec_addi48 s d 0 _).trans (aluOp1_wroteAfter d 0 hl (by bv_omega) _),
    (exec_addi32 _ d d _).trans (aluOp1_after_wroteAfter hd hl (by bv_omega) _ _),
    (exec_addi16 _ d d _).trans (aluOp1_after_wroteAfter hd hl (by bv_omega) _ _),
    (exec_addi _ d d _).trans (aluOp1_after_wroteAfter hd hl (by bv_omega) _ _), ?_, ?_, ?_⟩
  · refine (State.wroteAfter_x s hd _ _).trans ?_
    rw [show s.x 0 = 0 from Seq.get_zero _, zero_add]
    exact pieces_add v
  · rw [sq_wroteAfter]; rfl
  · exact onlySequencer_modSeq s _

/-- Settles O2: the quotient and the remainder are those of the model's division at width 64, which a register holds exactly. -/
theorem divisionResults : Obligations.DivisionResults := by
  intro s d a b hf
  refine ⟨_, _, _, _, (exec_div s d a b).trans (aluOp_free hf _), (exec_rem s d a b).trans (aluOp_free hf _),
    (exec_divu s d a b).trans (aluOp_free hf _), (exec_remu s d a b).trans (aluOp_free hf _), ⟨?_, ?_, ?_, ?_⟩, ?_, ?_, ?_⟩
  all_goals simp only [toInt_ofInt_divS, toInt_ofInt_remS, toNat_ofNat_divU, toNat_ofNat_remU]
  · intro h0
    rw [h0]
    exact ⟨divS_zero 64 _, remS_zero 64 _⟩
  · rintro ⟨hs, ht⟩
    rw [hs, ht]
    exact ⟨divS_overflow 64, remS_overflow 64⟩
  · intro h0 ho
    exact ⟨divS_ordinary h0 ho, remS_ordinary h0 ho⟩
  · exact (divS_mul_add_remS 64 _ _).symm
  · intro h0
    rw [h0]
    exact ⟨divU_zero 64 _, remU_zero _⟩
  · intro h0
    exact ⟨divU_ordinary 64 _ h0, remU_ordinary _ h0⟩
  · exact (divU_mul_add_remU 64 _ _).symm

end Sys2Proof.Results
end

section
/-! SUPPORT. Traps and the return from them (R181, R184): what eret aims at, and the instructions that read no register. -/

namespace Sys2Proof.Machine

/-- An instruction that reads and writes no register waits for no load (R160). -/
@[simp] theorem Seq.busy_nil (q : Seq) : q.busy [] = false := by simp [Seq.busy]

/-- With no register of its own awaited, an instruction that writes no memory ends in its next state. -/
theorem seqOp_go_free {s t : State} {rs : List Reg} (h : (s.tile s.focus.tile).seq.busy rs = false) (hm : t.mem = s.mem) :
    seqOp s rs (.go t []) = .next t :=
  (seqOp_free h _).trans (perform_go_nil hm)

/-- An instruction that reads and writes no register, and takes a trap. -/
theorem seqOp_trapAct (s : State) (cause : Nat) (tval xa : Word) :
    seqOp s [] (trapAct s cause tval xa) = .next (takeTrap s s.focus.tile cause tval xa) :=
  seqOp_go_free (Seq.busy_nil _) (takeTrap_mem _ _ _ _ _ _)

/-- The statements' word of an instruction is the one that the model puts into tval (R182). -/
theorem wordOf_eq_instrWord (i : Instr) : wordOf i = instrWord i := rfl

/-! ### Targets (R154) -/

theorem checkTarget_inside {g : Word} (ha : g.toNat % 4 = 0) (hr : g.toNat < 0x10000) : checkTarget g = none := by
  simp [checkTarget, ha, hr]

theorem checkTarget_outside {g : Word} (ha : g.toNat % 4 = 0) (hr : 0x10000 ≤ g.toNat) : checkTarget g = some 3 := by
  simp [checkTarget, ha, hr]

/-! ### The return (R184) -/

/-- Where eret returns to: tepc, or past it when the trapping instruction's effects stand. -/
def Seq.returnTarget (q : Seq) : Nat := q.tepc.toNat * 4 + (if q.tcause.getLsbD 30 then 4 else 0)

theorem trapReturn_eq (s : State) (t : Nat) : trapReturn s t =
    transfer s t (BitVec.ofNat 64 (s.tile t).seq.returnTarget) 0 (fun q => { q with mode := q.tcause.getLsbD 31 }) := rfl

/-- tepc names a word, and so does the target. -/
theorem Seq.returnTarget_mod (q : Seq) : q.returnTarget % 4 = 0 := by
  unfold Seq.returnTarget
  split <;> omega

/-- tepc has 14 bits, so that the target is at most one word past private memory and a register holds it. -/
theorem Seq.toNat_ofNat_returnTarget (q : Seq) : (BitVec.ofNat 64 q.returnTarget).toNat = q.returnTarget := by
  have hpc := q.tepc.isLt
  refine Nat.mod_eq_of_lt ?_
  unfold Seq.returnTarget
  split <;> omega

theorem trapReturn_inside {s : State} {t : Nat} (h : (s.tile t).seq.returnTarget < 0x10000) : trapReturn s t =
    s.modSeq t (fun q => { q with mode := q.tcause.getLsbD 31, pc := BitVec.ofNat 14 ((s.tile t).seq.returnTarget / 4) }) := by
  have hv := (s.tile t).seq.toNat_ofNat_returnTarget
  rw [trapReturn_eq, transfer_ok (checkTarget_inside (by rw [hv, Seq.returnTarget_mod]) (by rwa [hv])), hv]

theorem trapReturn_outside {s : State} {t : Nat} (h : 0x10000 ≤ (s.tile t).seq.returnTarget) :
    trapReturn s t = takeTrap s t 3 (BitVec.ofNat 64 (s.tile t).seq.returnTarget) 0 := by
  have hv := (s.tile t).seq.toNat_ofNat_returnTarget
  rw [trapReturn_eq, transfer_trap (checkTarget_outside (by rw [hv, Seq.returnTarget_mod]) (by rwa [hv]))]

/-- In system mode eret returns. -/
theorem execEret_system {s : State} (h : (sq s).mode = true) : execEret s = .next (trapReturn s s.focus.tile) := by
  have hm : (s.tile s.focus.tile).seq.mode = true := h
  simpa [execEret, hm] using seqOp_go_free (Seq.busy_nil _) (trapReturn_mem s s.focus.tile)

/-- In program mode eret is the privilege trap (R181). -/
theorem execEret_program {s : State} (h : (sq s).mode = false) :
    execEret s = .next (takeTrap s s.focus.tile 2 (wordOf .eret) 0) := by
  have hm : (s.tile s.focus.tile).seq.mode = false := h
  simpa [execEret, hm, wordOf_eq_instrWord] using seqOp_trapAct s 2 (instrWord .eret) 0

end Sys2Proof.Machine

namespace Sys2Proof.Results

open Sys2Proof Sys2Proof.Machine

/-- Settles O11: the target of eret is the aligned one of tepc and tcause, so that of the checks of R154 only the range can fail;
trap and an illegal word are one trap each. -/
theorem trapCausesAndReturn : Obligations.TrapCausesAndReturn := by
  refine ⟨fun s => ⟨fun hsys hin => ?_, fun hsys hout => ?_, fun hprog => ?_⟩, fun s a w => ⟨fun hfree => ?_, ?_⟩⟩
  · exact (exec_eret s).trans <| (execEret_system hsys).trans (congrArg _ (trapReturn_inside hin))
  · exact (exec_eret s).trans <| (execEret_system hsys).trans (congrArg _ (trapReturn_outside hout))
  · exact (exec_eret s).trans (execEret_program hprog)
  · exact (exec_trap s a).trans (seqOp_go_free hfree (takeTrap_mem _ _ _ _ _ _))
  · exact (exec_illegalInstruction s w).trans (seqOp_trapAct s 1 _ 0)

end Sys2Proof.Results
end

section
/-! SUPPORT. The turn of a fabric slot (R191, R196, R215): what each fate of it makes of the machine, and what a fate leaves of memory. -/

namespace Sys2Proof.Machine

/-! ### Memory under a fabric fault (R209, R269): voiding a round writes no byte -/

/-- Steps that leave memory one by one leave it together. -/
theorem foldl_mem {α : Type} {f : State → α → State} (h : ∀ s x, (f s x).mem = s.mem) (l : List α) (s : State) : (l.foldl f s).mem = s.mem :=
  List.foldlRecOn l f (motive := fun t => t.mem = s.mem) rfl (fun t ht x _ => (h t x).trans ht)

@[simp] theorem moveStream_mem (s : State) (l k : Nat) (st : Stream) : (s.moveStream l k st).mem = s.mem := by
  simp [State.moveStream, State.putStream]

@[simp] theorem rewindCursors_mem (s : State) (t ctx : Nat) : (rewindCursors s t ctx).mem = s.mem := by
  refine foldl_mem (fun s p => ?_) _ s
  dsimp only
  split
  · split
    · rfl
    · split
      · exact moveStream_mem _ _ _ _
      · rfl
  · rfl

@[simp] theorem modMx_mem (s : State) (k : Nat) (f : Matrix → Matrix) : (s.modMx k f).mem = s.mem := rfl

@[simp] theorem voidRound_mem (s : State) (t : Nat) : (voidRound s t).mem = s.mem := by
  unfold voidRound
  dsimp only
  split
  · rfl
  · rw [modMx_mem, rewindCursors_mem, State.setTile_mem]

@[simp] theorem priRequest_mem (s : State) (die ctxid : Nat) (pri : Option Nat) : (priRequest s die ctxid pri).mem = s.mem := by
  unfold priRequest
  split
  · rfl
  · split <;> rfl

@[simp] theorem voidWith_mem (s : State) (t slot port source cause : Nat) (value : Word) (pri : Option Nat) :
    (voidWith s t slot port source cause value pri).mem = s.mem := by
  unfold voidWith
  split <;> simp

@[simp] theorem fabricFault_mem (s : State) (t slot port source cause : Nat) (value : Word) (pri : Option Nat) :
    (fabricFault s t slot port source cause value pri).mem = s.mem := by
  unfold fabricFault
  split
  · rfl
  · exact (foldl_mem (fun s (p : Nat × Nat) => voidWith_mem s p.1 slot port source cause value pri) _ _).trans (voidWith_mem _ _ _ _ _ _ _ _)

/-! ### Memory under the sends of a slot (R188, R196) -/

/-- Where a fate is an act, the act leaves the memory of s. -/
def Fate.KeepsMem (x : Fate) (s : State) : Prop := ∀ e, x = .ok e → e.s.mem = s.mem

theorem Fate.rank_le (x : Fate) : x.rank ≤ 16 := by
  cases x with
  | wait | ok => exact le_rfl
  | fault | gather | port => dsimp only [Fate.rank]; split_ifs <;> omega

/-- Two outputs come to an act only where both do: a fault of the first stands unless the second raises one that goes before it (R270). -/
theorem Fate.both_ok {x : Fate} {e e2 : Fab} {k : Fab → Fate} (h : x.both e k = .ok e2) : ∃ e1, x = .ok e1 ∧ k e1 = .ok e2 := by
  have hrank (f : Fate) (hf : (if (k e).rank < f.rank then k e else f) = .ok e2) : f = .ok e2 := by
    split at hf
    · next hlt =>
      rw [hf] at hlt
      exact absurd (f.rank_le) (Nat.not_le.mpr hlt)
    · exact hf
  cases x with
  | ok e1 => exact ⟨e1, rfl, h⟩
  | wait => exact nomatch h
  | fault c v p => exact nomatch hrank _ h
  | gather c v p => exact nomatch hrank _ h
  | port q c v p => exact nomatch hrank _ h

/-- A token put at a destination changes the round and the ports of the tile alone. -/
theorem Fab.put_state {e e1 : Fab} {out : Nat} {d : Dest} {tok : Tok} (h : e.put out d tok = some e1) : e1.s = e.s := by
  cases d with
  | none | slot | away | ports => cases h; rfl
  | g k | v k =>
    simp only [Fab.put] at h
    split at h
    · exact nomatch h
    · cases h; rfl

theorem Fab.send_state {e e1 : Fab} {out : Nat} {tok : Tok} (h : e.send out tok = .ok e1) : e1.s = e.s := by
  unfold Fab.send at h
  split at h
  · exact nomatch h
  · split at h
    · next hput =>
      cases h
      have hs := Fab.put_state hput
      exact hs
    · exact nomatch h

theorem Fab.send_keepsMem (e : Fab) (out : Nat) (tok : Tok) : (e.send out tok).KeepsMem e.s :=
  fun _ h => congrArg State.mem (Fab.send_state h)

theorem Fab.sends_keepsMem (e : Fab) (tok : Tok) (tok' : Fab → Tok) : ((e.send 0 tok).both e (fun e1 => e1.send 1 (tok' e1))).KeepsMem e.s := by
  intro e2 h
  obtain ⟨e1, h1, h2⟩ := Fate.both_ok h
  exact congrArg State.mem ((Fab.send_state h2).trans (Fab.send_state h1))

theorem Fab.emit_keepsMem (e : Fab) (tok : Tok) : (e.emit tok).KeepsMem e.s := e.sends_keepsMem _ _

theorem Fab.emitNull_keepsMem (e : Fab) (deps : List Nat) : (e.emitNull deps).KeepsMem e.s := e.sends_keepsMem _ _

theorem Fab.emitStop_keepsMem (e : Fab) (k : Nat) (deps : List Nat) : (e.emitStop k deps).KeepsMem e.s := e.sends_keepsMem _ _

/-! ### The turn -/

/-- The answer to a turn of the slot in focus that comes to a fate. -/
def Fate.turn (x : Fate) (s : State) : Host.Outcome State Fault Refusal := perform s (x.act s s.focus.tile s.focus.slot)

theorem Fate.turn_wait (s : State) : Fate.wait.turn s = .next s := rfl

theorem Fate.turn_fault (s : State) (c : Nat) (v : Word) (p : Option Nat) :
    (Fate.fault c v p).turn s = .next (fabricFault s s.focus.tile s.focus.slot 0 0 c v p) :=
  perform_go_nil (fabricFault_mem _ _ _ _ _ _ _ _)

theorem Fate.turn_ok {s : State} {e : Fab} (h : e.s.mem = s.mem) : (Fate.ok e).turn s = .next e.done := perform_go_nil h

/-- The slot at work is the one in focus, with the opcode and the fields of its word. -/
theorem atWork_op {s : State} {op : Nat} {f : FabWord} {e : Fab} (h : AtWork s op f e) : e.op = op := by
  obtain ⟨-, -, -, -, r, -, -, rfl⟩ := h
  rfl

theorem atWork_fields {s : State} {op : Nat} {f : FabWord} {e : Fab} (h : AtWork s op f e) : e.f = f := by
  obtain ⟨-, -, -, -, r, -, -, rfl⟩ := h
  rfl

theorem atWork_mem {s : State} {op : Nat} {f : FabWord} {e : Fab} (h : AtWork s op f e) : e.s.mem = s.mem := by
  obtain ⟨-, -, -, -, r, -, -, rfl⟩ := h
  rfl

/-- A fabric instruction at its turn comes to what its body makes of the slot. -/
theorem fabric_atWork {s : State} {op : Nat} {f : FabWord} {e : Fab} (h : AtWork s op f e) (body : Fab → Fate) :
    fabric op f s body = (body e).turn s := by
  obtain ⟨htile, hctx, hslot, hlive, r, hround, hr, rfl⟩ := h
  have hlive' : (s.tile s.focus.tile).live = true := hlive
  have hround' : (s.tile s.focus.tile).round = some r := hround
  simp [fabric, Fate.turn, htile, hctx, hslot, hlive', hround', hr]

section
variable {s : State} {i : Instr} {op : Nat} {f : FabWord} {e e1 : Fab}

theorem waits_of_turn (h : exec i s = Fate.wait.turn s) : Waits s i := h

theorem faults_of_turn {c : Nat} {v : Word} {p : Option Nat} (h : exec i s = (Fate.fault c v p).turn s) : FabricFaults s i c v p :=
  h.trans (Fate.turn_fault s c v p)

theorem does_of_turn (hw : AtWork s op f e) (h : exec i s = (Fate.ok e1).turn s) (he : e1.s = e.s := by rfl) : Does s i e1.done :=
  h.trans (Fate.turn_ok (he ▸ atWork_mem hw))

theorem acts_of_turn {x : Fate} (hw : AtWork s op f e) (h : exec i s = x.turn s) (hx : x.KeepsMem e.s) : Acts s i x := by
  rintro e1 rfl
  exact h.trans (Fate.turn_ok ((hx e1 rfl).trans (atWork_mem hw)))

theorem acts_emitNull {deps : List Nat} (hw : AtWork s op f e) (h : exec i s = (e1.emitNull deps).turn s) (he : e1.s = e.s := by rfl) :
    Acts s i (e1.emitNull deps) :=
  acts_of_turn hw h (he ▸ e1.emitNull_keepsMem deps)

theorem sends_of_turn {tok : Tok} (hw : AtWork s op f e) (h : exec i s = (e1.emit tok).turn s) (he : e1.s = e.s := by rfl) :
    Sends s i e1 tok := by
  have hacts : Acts s i (e1.emit tok) := acts_of_turn hw h (he ▸ e1.emit_keepsMem tok)
  refine ⟨hacts, fun hslots => ?_⟩
  obtain ⟨e2, h2, -⟩ := Fab.emit_toSlots hslots tok
  exact ⟨e2, h2, hacts e2 h2⟩

end

/-! ### Counted slots and the table (R196, R199) -/

theorem Fab.count_first {e : Fab} (hc : opCounted e.op = true) (hf : e.r.fired.contains e.slot = false) :
    e.count = .ok { e with r := { e.r with fired := e.r.fired ++ [e.slot] } } := by
  simp only [Fab.count, hc, hf, Bool.not_true, Bool.false_eq_true, if_false]

theorem Fab.count_again {e : Fab} (hc : opCounted e.op = true) (hf : e.r.fired.contains e.slot = true) :
    e.count = .fault 0x23 (Config.faultValue 0x23 e.slot) none := by
  simp only [Fab.count, hc, hf, Bool.not_true, Bool.false_eq_true, if_false, if_true]

/-- A slot that fires on data does what its opcode does on data. -/
theorem table_data {s : State} {op : Nat} {f : FabWord} {e : Fab} {h : Held3} (hf : FiresOn s op f e h) (onStop : Nat → Fab → Fab)
    (act : Fab → Held3 → Fate) : e.table onStop act = act e h := by
  obtain ⟨hw, ho, hs, hj⟩ := hf
  have hj' : judge e.f e.op h = .data := by rw [atWork_fields hw, atWork_op hw, hj]
  simp [Fab.table, ho, hs, hj']

/-- What a slot of the table comes to on data. -/
theorem fabric_table_data {s : State} {op : Nat} {f : FabWord} {e : Fab} {h : Held3} (hf : FiresOn s op f e h) (onStop : Nat → Fab → Fab)
    (act : Fab → Held3 → Fate) : fabric op f s (fun e => e.table onStop act) = (act e h).turn s := by
  rw [fabric_atWork hf.1, table_data hf]

end Sys2Proof.Machine
end

section
/-! SUPPORT. Sources, exit, null, bar and the stop operators (R203, R216, R217, R228 to R232, R242 to R244): the fate of a slot in each case
of its rule. -/

namespace Sys2Proof.Machine

/-! ### Fields of an immediate -/

theorem getLsbD_eq_decide {n : Nat} (x : BitVec n) (i : Nat) : x.getLsbD i = decide (x.toNat / 2 ^ i % 2 = 1) := Nat.testBit_eq_decide_div_mod_eq

/-- A field read as two's complement is the signed value of its bits. -/
theorem signedOf_toNat {n : Nat} (x : BitVec n) : signedOf n x.toNat = x.toInt := by
  simp only [signedOf, Nat.mod_eq_of_lt x.isLt, BitVec.toInt_eq_toNat_cond]

/-- The value of const (R217), an integer modulo the width of its type. -/
theorem constValue_eq (f : FabWord) : constValue f =
    ((if typeOf f = 8 then f.imm.toNat * 2 ^ 34 else if typeOf f = 9 then f.imm.toNat * 4
      else if typeOf f = 10 ∨ typeOf f = 11 then f.imm.toNat % 2 ^ 16 else if typeOf f = 12 ∨ typeOf f = 13 then f.imm.toNat % 2 ^ 8
      else if typeOf f < 4 then (f.imm.signExtend 64).toInt else f.imm.toNat : Int) % 2 ^ codeWidth (typeOf f)).toNat := by
  have himm := f.imm.isLt
  unfold constValue
  dsimp only
  split
  case h_1 h | h_2 h | h_3 h | h_4 h | h_5 h | h_6 h =>
    rw [h]
    simp only [codeWidth, Nat.reduceEqDiff, Nat.succ_ne_self, or_true, or_false, or_self, if_true, if_false]
    omega
  case h_7 h8 h9 h10 h11 h12 h13 =>
    rw [if_neg h8, if_neg h9, if_neg (not_or.mpr ⟨h10, h11⟩), if_neg (not_or.mpr ⟨h12, h13⟩)]
    by_cases hsigned : typeOf f < 4
    · rw [if_pos hsigned, if_pos (by simpa [codeSigned] using hsigned), signedOf_toNat, BitVec.toInt_signExtend_of_le (by decide)]
      push_cast
      rfl
    · rw [if_neg hsigned, if_neg (by simpa [codeSigned] using hsigned)]
      exact_mod_cast (Int.toNat_natCast _).symm

section
variable {s : State} {op : Nat} {f : FabWord} {e : Fab}

/-! ### Sources -/

theorem sourceOp_first (hw : AtWork s op f e) (ha : e.st.active = false) (hs : e.space = true) (fn : Fab → Kind × Vec) :
    sourceOp op f s fn = ((e.setSt { e.st with active := true }).emit (dataTok (fn e).1 (fn e).2 [])).turn s := by
  rw [sourceOp, fabric_atWork hw]
  simp [ha, hs]

theorem sourceOp_again (hw : AtWork s op f e) (ha : e.st.active = true) (fn : Fab → Kind × Vec) : sourceOp op f s fn = Fate.wait.turn s := by
  rw [sourceOp, fabric_atWork hw]
  simp [ha]

/-- A source sends its token in its first turn of the round. -/
theorem source_sends {i : Instr} {fn : Fab → Kind × Vec} (hi : exec i s = sourceOp op f s fn) (hw : AtWork s op f e)
    (ha : e.st.active = false) (hs : e.space = true) : Sends s i (e.setSt { e.st with active := true }) (dataTok (fn e).1 (fn e).2 []) :=
  sends_of_turn hw (hi.trans (sourceOp_first hw ha hs fn))

/-- And no token after it. -/
theorem source_waits {i : Instr} {fn : Fab → Kind × Vec} (hi : exec i s = sourceOp op f s fn) (hw : AtWork s op f e)
    (ha : e.st.active = true) : Waits s i :=
  waits_of_turn (hi.trans (sourceOp_again hw ha fn))

/-! ### exit (R242) -/

/-- Does a token at exit end the run: data by the end bit, a stop by its level? -/
def exitEnds (f : FabWord) (h : Held3) : Bool :=
  if h.l.level = 0 then f.imm.getLsbD 3 else decide (f.imm.toNat % 8 ≠ 0 ∧ f.imm.toNat % 8 ≤ h.l.level)

/-- The slot with its tokens consumed, and the end of the run noted if they bring it. -/
def Fab.exited (e : Fab) (ends : Bool) : Fab := { e.consume with r := { e.consume.r with ends := e.r.ends || ends } }

theorem exec_fabExit_refused {h : Held3} (hw : AtWork s 0x90 f e) (ho : e.operands = some h) (hn : h.pred.any (·.null) = false)
    (hr : refuses f 0x90 h.pred = true) : exec (.fabExit f) s = (Fate.ok e.consume).turn s := by
  rw [exec_fabExit, execFabExit, fabric_atWork hw]
  simp [ho, hn, hr]

theorem exec_fabExit_counts {h : Held3} (hw : AtWork s 0x90 f e) (ho : e.operands = some h)
    (hr : h.pred.any (·.null) = true ∨ refuses f 0x90 h.pred = false) : exec (.fabExit f) s =
      (e.exited (!(h.vals ++ h.pred.toList).any (·.null) && exitEnds f h)).count.turn s := by
  have hcond : (!(h.pred.any (·.null)) && refuses f 0x90 h.pred) = false := by
    rcases hr with hr | hr <;> simp [hr]
  have hends : (if h.l.level = 0 then decide (f.imm.toNat / 8 % 2 = 1) else f.imm.toNat % 8 != 0 && decide (h.l.level ≥ f.imm.toNat % 8))
      = exitEnds f h := by
    rw [exitEnds, getLsbD_eq_decide, Bool.decide_and, decide_not]
    rfl
  rw [exec_fabExit, execFabExit, fabric_atWork hw]
  simp [ho, hcond, hends, Fab.exited]

/-! ### bar (R244) -/

theorem exec_fabBar_data {h : Held3} (hf : FiresOn s 0x92 f e h) : exec (.fabBar f) s =
    (e.consume.count.andThen (fun e1 =>
      Fab.send { e1 with r := { e1.r with bars := e1.r.bars ++ [f.imm.toNat % 1024] } } 1 (bitTok true h.deps))).turn s :=
  fabric_table_data hf _ _

/-! ### Stop operators (R228) -/

/-- A slot in hand with its operands and space at its targets. -/
def HoldsReady (s : State) (op : Nat) (f : FabWord) (e : Fab) (h : Held3) : Prop := AtWork s op f e ∧ e.operands = some h ∧ e.space = true

variable {h : Held3} (hready : HoldsReady s op f e h) (onNull : Fab → Held3 → Fate) (onTok : Fab → Held3 → Tok → Fate)
include hready

theorem stopOp_null (hn : (h.vals ++ h.pred.toList).any (·.null) = true) : stopOp op f s onNull onTok = (onNull e.consume h).turn s := by
  obtain ⟨hw, ho, hs⟩ := hready
  rw [stopOp, fabric_atWork hw]
  simp only [ho, hs, hn, Bool.not_true, Bool.false_eq_true, if_false, if_true]

theorem stopOp_refused (hn : (h.vals ++ h.pred.toList).any (·.null) = false) (hr : refuses f op h.pred = true) :
    stopOp op f s onNull onTok = (Fate.ok e.consume).turn s := by
  obtain ⟨hw, ho, hs⟩ := hready
  rw [stopOp, fabric_atWork hw]
  simp only [ho, hs, hn, hr, Bool.not_true, Bool.false_eq_true, if_false, if_true]

theorem stopOp_takes (hn : (h.vals ++ h.pred.toList).any (·.null) = false) (hr : refuses f op h.pred = false) :
    stopOp op f s onNull onTok = (onTok e.consume h h.l).turn s := by
  obtain ⟨hw, ho, hs⟩ := hready
  rw [stopOp, fabric_atWork hw]
  simp only [ho, hs, hn, hr, Bool.not_true, Bool.false_eq_true, if_false]

end

end Sys2Proof.Machine
end

section
/-! SUPPORT. The clauses of StopAndSourceNodes: what the fates of exit, bar and the stop operators come to. -/

namespace Sys2Proof.Machine

/-! ### exit, null and bar -/

section
variable {s : State} {f : FabWord} {e : Fab} {h : Held3}

theorem fabExit_refused (hw : AtWork s 0x90 f e) (ho : e.operands = some h) (hn : h.pred.any (·.null) = false)
    (hr : refuses f 0x90 h.pred = true) : Does s (.fabExit f) e.consume.done :=
  does_of_turn hw (exec_fabExit_refused hw ho hn hr)

theorem fabExit_again (hw : AtWork s 0x90 f e) (ho : e.operands = some h)
    (hr : h.pred.any (·.null) = true ∨ refuses f 0x90 h.pred = false) (hf : e.r.fired.contains e.slot = true) :
    FabricFaults s (.fabExit f) 0x23 (Config.faultValue 0x23 e.slot) none := by
  have hc : opCounted e.op = true := by rw [atWork_op hw]; rfl
  refine faults_of_turn ((exec_fabExit_counts hw ho hr).trans ?_)
  rw [Fab.count_again (e := e.exited _) hc hf]
  rfl

theorem fabExit_first (hw : AtWork s 0x90 f e) (ho : e.operands = some h)
    (hr : h.pred.any (·.null) = true ∨ refuses f 0x90 h.pred = false) (hf : e.r.fired.contains e.slot = false) :
    Does s (.fabExit f) (Fab.done { e.consume with r := { e.consume.r with
      ends := e.r.ends || (!(h.vals ++ h.pred.toList).any (·.null) && exitEnds f h), fired := e.r.fired ++ [e.slot] } }) := by
  have hc : opCounted e.op = true := by rw [atWork_op hw]; rfl
  refine does_of_turn hw ((exec_fabExit_counts hw ho hr).trans ?_)
  rw [Fab.count_first (e := e.exited _) hc hf]
  rfl

theorem fabNull_acts (hf : FiresOn s 0x91 f e h) : Acts s (.fabNull f) (e.consume.emitNull h.deps) :=
  acts_emitNull hf.1 (fabric_table_data hf _ _)

theorem fabBar_again (hf : FiresOn s 0x92 f e h) (hfired : e.r.fired.contains e.slot = true) :
    FabricFaults s (.fabBar f) 0x23 (Config.faultValue 0x23 e.slot) none := by
  have hc : opCounted e.op = true := by rw [atWork_op hf.1]; rfl
  refine faults_of_turn ((exec_fabBar_data hf).trans ?_)
  rw [Fab.count_again (e := e.consume) hc hfired]
  rfl

theorem fabBar_first (hf : FiresOn s 0x92 f e h) (hfired : e.r.fired.contains e.slot = false) :
    Acts s (.fabBar f) (Fab.send { e.consume with r :=
      { e.consume.r with fired := e.r.fired ++ [e.slot], bars := e.r.bars ++ [f.imm.toNat % 1024] } } 1 (bitTok true h.deps)) := by
  have hc : opCounted e.op = true := by rw [atWork_op hf.1]; rfl
  refine acts_of_turn hf.1 ((exec_fabBar_data hf).trans ?_) (Fab.send_keepsMem _ _ _)
  rw [Fab.count_first (e := e.consume) hc hfired]
  rfl

end

/-! ### The stop operators -/

/-- The slot takes a token: none of its operands is a null, and the predicate does not refuse. -/
def TakesToken (s : State) (op : Nat) (f : FabWord) (e : Fab) (h : Held3) : Prop :=
  HoldsReady s op f e h ∧ (h.vals ++ h.pred.toList).any (·.null) = false ∧ refuses f op h.pred = false

section
variable {s : State} {op : Nat} {f : FabWord} {e : Fab} {h : Held3}

theorem takesToken_atWork (ht : TakesToken s op f e h) : AtWork s op f e := by
  obtain ⟨⟨hw, -, -⟩, -, -⟩ := ht
  exact hw

theorem stop_takes {i : Instr} {onNull : Fab → Held3 → Fate} {onTok : Fab → Held3 → Tok → Fate} (hi : exec i s = stopOp op f s onNull onTok)
    (ht : TakesToken s op f e h) : exec i s = (onTok e.consume h h.l).turn s := by
  obtain ⟨hready, hn, hr⟩ := ht
  exact hi.trans (stopOp_takes hready onNull onTok hn hr)

theorem stopKindOf_eq (f : FabWord) : stopKindOf f = if f.imm.getLsbD 3 then .vector else .scalar := by
  simp only [stopKindOf, getLsbD_eq_decide, decide_eq_true_eq]
  rfl

theorem fabStop_sends (ht : TakesToken s 0x68 f e h) : Sends s (.fabStop f) e.consume
    (stopTok (if f.imm.getLsbD 3 then .vector else .scalar) (if h.l.level = 0 then f.imm.toNat % 8 else h.l.level) h.deps) := by
  rw [← stopKindOf_eq]
  exact sends_of_turn (takesToken_atWork ht) (stop_takes (exec_fabStop s f) ht)

theorem fabSlvl_sends (ht : TakesToken s 0x69 f e h) :
    Sends s (.fabSlvl f) e.consume (bitTok (decide (f.imm.toNat % 8 ≤ h.l.level)) h.deps) :=
  sends_of_turn (takesToken_atWork ht) (stop_takes (exec_fabSlvl s f) ht)

theorem fabOrdt_sends (ht : TakesToken s 0x6C f e h) : Sends s (.fabOrdt f) e.consume (bitTok true h.deps) :=
  sends_of_turn (takesToken_atWork ht) (stop_takes (exec_fabOrdt s f) ht)

/-! sgate (R232) -/

theorem fabSgate_data (ht : TakesToken s 0x6A f e h) (hl : h.l.level = 0) :
    Does s (.fabSgate f) (e.consume.setSt { e.st with held := some { h.l with deps := h.deps } }).done := by
  refine does_of_turn (takesToken_atWork ht) ((stop_takes (exec_fabSgate s f) ht).trans ?_)
  rw [if_pos hl]
  rfl

theorem fabSgate_lower (ht : TakesToken s 0x6A f e h) (hl : h.l.level ≠ 0) (hk : h.l.level < f.imm.toNat % 8) :
    Does s (.fabSgate f) e.consume.done := by
  refine does_of_turn (takesToken_atWork ht) ((stop_takes (exec_fabSgate s f) ht).trans ?_)
  rw [if_neg hl, if_pos (show h.l.level < stopLevelOf f from hk)]

theorem fabSgate_sends (ht : TakesToken s 0x6A f e h) (hl : h.l.level ≠ 0) (hk : f.imm.toNat % 8 ≤ h.l.level) {d : Tok}
    (hd : e.st.held = some d) :
    Sends s (.fabSgate f) (e.consume.setSt { e.st with held := none }) { d with deps := unionDeps d.deps h.deps } := by
  refine sends_of_turn (takesToken_atWork ht) ((stop_takes (exec_fabSgate s f) ht).trans ?_)
  rw [if_neg hl, if_neg (show ¬h.l.level < stopLevelOf f from Nat.not_lt.mpr hk), show e.consume.st.held = some d from hd]
  rfl

theorem fabSgate_empty (ht : TakesToken s 0x6A f e h) (hl : h.l.level ≠ 0) (hk : f.imm.toNat % 8 ≤ h.l.level) (hd : e.st.held = none) :
    Acts s (.fabSgate f) ((e.consume.setSt { e.st with held := none }).emitNull h.deps) := by
  refine acts_emitNull (takesToken_atWork ht) ((stop_takes (exec_fabSgate s f) ht).trans ?_)
  rw [if_neg hl, if_neg (show ¬h.l.level < stopLevelOf f from Nat.not_lt.mpr hk), show e.consume.st.held = none from hd]
  rfl

/-! scount (R232) -/

theorem fabScount_data (ht : TakesToken s 0x6B f e h) (hl : h.l.level = 0) :
    Does s (.fabScount f) (e.consume.setSt { e.st with n := e.st.n + 1, deps := unionDeps e.st.deps h.deps }).done := by
  refine does_of_turn (takesToken_atWork ht) ((stop_takes (exec_fabScount s f) ht).trans ?_)
  rw [if_pos hl]
  rfl

theorem fabScount_lower (ht : TakesToken s 0x6B f e h) (hl : h.l.level ≠ 0) (hk : h.l.level < f.imm.toNat % 8) :
    Does s (.fabScount f) e.consume.done := by
  refine does_of_turn (takesToken_atWork ht) ((stop_takes (exec_fabScount s f) ht).trans ?_)
  rw [if_neg hl, if_pos (show h.l.level < stopLevelOf f from hk)]

theorem fabScount_sends (ht : TakesToken s 0x6B f e h) (hl : h.l.level ≠ 0) (hk : f.imm.toNat % 8 ≤ h.l.level) :
    Sends s (.fabScount f) (e.consume.setSt { e.st with n := 0, deps := [] })
      (dataTok .scalar (BitVec.ofNat 512 (e.st.n % 2 ^ 64)) (unionDeps e.st.deps h.deps)) := by
  refine sends_of_turn (takesToken_atWork ht) ((stop_takes (exec_fabScount s f) ht).trans ?_)
  rw [if_neg hl, if_neg (show ¬h.l.level < stopLevelOf f from Nat.not_lt.mpr hk)]
  rfl

/-! Nulls and refusals (R228) -/

theorem stop_null_acts {i : Instr} {onTok : Fab → Held3 → Tok → Fate} (hi : exec i s = stopOp op f s (fun e h => e.emitNull h.deps) onTok)
    (hready : HoldsReady s op f e h) (hn : (h.vals ++ h.pred.toList).any (·.null) = true) : Acts s i (e.consume.emitNull h.deps) :=
  acts_emitNull hready.1 (hi.trans (stopOp_null hready _ _ hn))

theorem stop_null_keeps {i : Instr} {onTok : Fab → Held3 → Tok → Fate} (hi : exec i s = stopOp op f s (fun e _ => .ok e) onTok)
    (hready : HoldsReady s op f e h) (hn : (h.vals ++ h.pred.toList).any (·.null) = true) : Does s i e.consume.done :=
  does_of_turn hready.1 (hi.trans (stopOp_null hready _ _ hn))

theorem stop_refused {i : Instr} {onNull : Fab → Held3 → Fate} {onTok : Fab → Held3 → Tok → Fate} (hi : exec i s = stopOp op f s onNull onTok)
    (hready : HoldsReady s op f e h) (hn : (h.vals ++ h.pred.toList).any (·.null) = false) (hr : refuses f op h.pred = true) :
    Does s i e.consume.done :=
  does_of_turn hready.1 (hi.trans (stopOp_refused hready _ _ hn hr))

end

end Sys2Proof.Machine

namespace Sys2Proof.Results

open Sys2Proof Sys2Proof.Machine

/-- Settles O29: each operator's turn comes to the fate its rule gives for data, a stop, a null and a refusal. -/
theorem stopAndSourceNodes : Obligations.StopAndSourceNodes := by
  refine ⟨fun s f e => ⟨fun _ hw ha hs => ?const, fun hw ha hs => ?grd, fun hw ha hs => ?vrd, fun op i hmem hw ha => ?again,
      fun h hw ho => ⟨fabExit_refused hw ho, fun hr hf => ⟨_, fabExit_again hw ho hr hf⟩, fabExit_first hw ho⟩, fun h => fabNull_acts,
      fun h hf hfired => ⟨_, fabBar_again hf hfired⟩, fun h => fabBar_first⟩,
    fun s f e h => ⟨fabStop_sends, fabSlvl_sends, fabOrdt_sends,
      fun ht => ⟨fabSgate_data ht, fabSgate_lower ht, fun hl hk => ⟨fun d => fabSgate_sends ht hl hk, fabSgate_empty ht hl hk⟩⟩,
      fun ht => ⟨fabScount_data ht, fabScount_lower ht, fabScount_sends ht⟩,
      fun op i hmem hready hn => ?sendsNull, fun op i hmem hready hn => ?keeps, fun op i hmem hready hn hr => ?refused⟩⟩
  case const =>
    have hsends := source_sends (exec_fabConst s f) hw ha hs
    rwa [constValue_eq] at hsends
  case grd => exact source_sends (exec_fabGrd s f) hw ha hs
  case vrd => exact source_sends (exec_fabVrd s f) hw ha hs
  all_goals simp only [List.mem_cons, Prod.mk.injEq, List.not_mem_nil, or_false] at hmem
  case again =>
    obtain ⟨rfl, rfl⟩ | ⟨rfl, rfl⟩ | ⟨rfl, rfl⟩ := hmem
    · exact source_waits (exec_fabConst s f) hw ha
    · exact source_waits (exec_fabGrd s f) hw ha
    · exact source_waits (exec_fabVrd s f) hw ha
  case sendsNull =>
    obtain ⟨rfl, rfl⟩ | ⟨rfl, rfl⟩ | ⟨rfl, rfl⟩ := hmem
    · exact stop_null_acts (exec_fabStop s f) hready hn
    · exact stop_null_acts (exec_fabSlvl s f) hready hn
    · exact stop_null_acts (exec_fabOrdt s f) hready hn
  case keeps =>
    obtain ⟨rfl, rfl⟩ | ⟨rfl, rfl⟩ := hmem
    · exact stop_null_keeps (exec_fabSgate s f) hready hn
    · exact stop_null_keeps (exec_fabScount s f) hready hn
  case refused =>
    obtain ⟨rfl, rfl⟩ | ⟨rfl, rfl⟩ | ⟨rfl, rfl⟩ | ⟨rfl, rfl⟩ | ⟨rfl, rfl⟩ := hmem
    · exact stop_refused (exec_fabStop s f) hready hn hr
    · exact stop_refused (exec_fabSlvl s f) hready hn hr
    · exact stop_refused (exec_fabOrdt s f) hready hn hr
    · exact stop_refused (exec_fabSgate s f) hready hn hr
    · exact stop_refused (exec_fabScount s f) hready hn hr

end Sys2Proof.Results
end
